-- ==== Sys2Proof/Word.lean ====
section
/-! DEFINITION. The word types of the Quizo model and the two sparse containers its state is built from.
Little-endian throughout (00 R6). -/
namespace Sys2Proof

/-- One byte. -/
abbrev Byte := BitVec 8
/-- A 16-bit register field. -/
abbrev W16 := BitVec 16
/-- A 32-bit register or F32 pattern. -/
abbrev W32 := BitVec 32
/-- A 64-bit register. -/
abbrev W64 := BitVec 64

/-- A finite map from numbers: keys strictly rising, one entry for each key. -/
abbrev SMap (α : Type) := List (Nat × α)

/-- Byte-addressed storage in one canonical form: addresses strictly rising, no byte of zero listed; an unlisted
address reads as zero. -/
abbrev Mem := List Host.Cell

end Sys2Proof
end

