-- ==== Sys2Proof/Machine/Bits.lean ====
section
/-! DEFINITION. Bit fields, byte order (00 R6: least significant byte first), saturation and CRC-32C. -/
namespace Sys2Proof

/-- `n` bits of `w` from bit `lo` upwards, as a number. -/
def nbits (w lo n : Nat) : Nat := (w >>> lo) % 2 ^ n

/-- Field of a bit vector, as a number. -/
def fld {k : Nat} (w : BitVec k) (lo n : Nat) : Nat := nbits w.toNat lo n

/-- One bit of a number. -/
def nbit (w i : Nat) : Bool := nbits w i 1 == 1

/-- A Bool as a bit of weight one. -/
def b2n (b : Bool) : Nat := if b then 1 else 0

/-- Bytes to the number they spell, first byte least significant (00 R6). -/
def leNat : List Byte → Nat
  | [] => 0
  | b :: bs => b.toNat + 256 * leNat bs

/-- The `n` bytes of a number, least significant first (00 R6). -/
def leBytes : Nat → Nat → List Byte
  | 0, _ => []
  | n + 1, v => BitVec.ofNat 8 v :: leBytes n (v / 256)

/-- Replace `n` bits of `w` from bit `lo` by `v`. -/
def setBits (w lo n v : Nat) : Nat :=
  w - nbits w lo n * 2 ^ lo + (v % 2 ^ n) * 2 ^ lo

/-- Two's-complement reading of an `n`-bit number. -/
def toS (n v : Nat) : Int := if v % 2 ^ n < 2 ^ (n - 1) then (v % 2 ^ n : Nat) else ((v % 2 ^ n : Nat) : Int) - (2 ^ n : Nat)

/-- The `n`-bit two's-complement pattern of an integer. -/
def ofS (n : Nat) (v : Int) : Nat := (v % ((2 ^ n : Nat) : Int)).toNat

/-- Increment that stops at the largest value of the field. -/
def satInc {n : Nat} (w : BitVec n) : BitVec n := if w = BitVec.allOnes n then w else w + 1#n

/-- Addition that stops at the largest value of the field. -/
def satAdd {n : Nat} (w : BitVec n) (k : Nat) : BitVec n :=
  if w.toNat + k ≥ 2 ^ n then BitVec.allOnes n else BitVec.ofNat n (w.toNat + k)

/-- Insert an element before the first that it does not exceed. -/
def insertBy {α : Type} (le : α → α → Bool) (a : α) : List α → List α
  | [] => [a]
  | b :: l => if le a b then a :: b :: l else b :: insertBy le a l

/-- A list in order; equal elements keep theirs. -/
def sortBy {α : Type} (le : α → α → Bool) : List α → List α
  | [] => []
  | a :: l => insertBy le a (sortBy le l)

/-- `⌈a / b⌉`. -/
def ceilDiv (a b : Nat) : Nat := (a + (b - 1)) / b

/-- One bit of the CRC-32C division, reflected polynomial 0x82F6_3B78. -/
def crcBit (c : W32) : W32 := if c.getLsbD 0 then (c >>> 1) ^^^ 0x82F63B78#32 else c >>> 1

/-- One byte of CRC-32C. -/
def crcByte (c : W32) (b : Byte) : W32 :=
  crcBit (crcBit (crcBit (crcBit (crcBit (crcBit (crcBit (crcBit (c ^^^ b.setWidth 32))))))))

/-- CRC-32C (Castagnoli): all ones in, all ones out, reflected. -/
def crc32c (bs : List Byte) : W32 := ~~~ (bs.foldl crcByte 0xFFFFFFFF#32)

/-- Two ranges `[a, a+n)` and `[b, b+m)` share a byte. -/
def overlaps (a n b m : Nat) : Bool := n != 0 && m != 0 && decide (a < b + m) && decide (b < a + n)

/-- The list with entry `i` replaced. -/
def listSet {α : Type} : List α → Nat → α → List α
  | [], _, _ => []
  | _ :: xs, 0, v => v :: xs
  | x :: xs, i + 1, v => x :: listSet xs i v

end Sys2Proof
end

