-- ==== Sys2Proof/Machine/Numerics.lean ====
section
/-! DEFINITION. Number formats, rounding, special values, the vector functions, conversions, block scales, random
bits and stochastic rounding (chapter 06). Values are exact dyadic numbers; every rounding is one call of
`roundMag`. -/
namespace Sys2Proof

/-- Format selectors, Table 6.1. -/
inductive Fmt where
  | f32 | w16 | h16 | q8e4 | q8e5 | q4 | i8
deriving DecidableEq, Repr

/-- An exact extended real: a special value, or `(-1)^neg * m * 2^e`. -/
inductive Val where
  | nan
  | inf (neg : Bool)
  | fin (neg : Bool) (m : Nat) (e : Int)
deriving DecidableEq, Repr

/-- Decode a 4-bit format selector; 0x7 to 0xF are reserved (R162). -/
def fmtOf (n : Nat) : Option Fmt :=
  match n with
  | 0 => some .f32 | 1 => some .w16 | 2 => some .h16 | 3 => some .q8e4
  | 4 => some .q8e5 | 5 => some .q4 | 6 => some .i8 | _ => none

/-- The selector of a format (Table 6.1). -/
def fmtCode : Fmt → Nat
  | .f32 => 0 | .w16 => 1 | .h16 => 2 | .q8e4 => 3 | .q8e5 => 4 | .q4 => 5 | .i8 => 6

/-- Formats that carry an E8M0 scale per 32 elements. -/
def fmtScaled : Fmt → Bool
  | .q8e4 | .q8e5 | .q4 => true
  | _ => false

/-- Element size in bits. -/
def fmtBits : Fmt → Nat
  | .f32 => 32 | .w16 => 16 | .h16 => 16 | .q8e4 => 8 | .q8e5 => 8 | .q4 => 4 | .i8 => 8

/-- Significand width with the hidden bit, exponent of the subnormal grid, largest finite magnitude code, infinity
code if any, canonical NaN (Tables 6.2 and 6.3). -/
structure FmtInfo where
  p : Nat
  qmin : Int
  maxMag : Nat
  infMag : Option Nat
  nan : Nat
deriving DecidableEq, Repr

/-- Tables 6.2 and 6.3; I8 is handled apart. -/
def fmtInfo : Fmt → FmtInfo
  | .f32 => ⟨24, -149, 0x7F7FFFFF, some 0x7F800000, 0x7FC00000⟩
  | .w16 => ⟨8, -133, 0x7F7F, some 0x7F80, 0x7FC0⟩
  | .h16 => ⟨11, -24, 0x7BFF, some 0x7C00, 0x7E00⟩
  | .q8e4 => ⟨4, -9, 0x7E, none, 0x7F⟩
  | .q8e5 => ⟨3, -16, 0x7B, some 0x7C, 0x7E⟩
  | .q4 => ⟨2, -1, 0x7, none, 0⟩
  | .i8 => ⟨8, 0, 0x7F, none, 0⟩

/-- Round `m * 2^e` to nearest, ties to even, on a grid of `p` significant bits whose subnormal step is `2^qmin`,
with no upper exponent limit. The answer is the magnitude code `(q - qmin) * 2^(p-1) + n`. -/
def roundMag (p : Nat) (qmin : Int) (m : Nat) (e : Int) : Nat :=
  if m = 0 then 0
  else
    let q : Int := max ((Nat.log2 m : Int) + e - (p - 1 : Nat)) qmin
    let n : Nat :=
      if e ≥ q then m <<< (e - q).toNat
      else
        let s := (q - e).toNat
        let d := m >>> s
        let r := m % 2 ^ s
        let h := 2 ^ (s - 1)
        if r > h then d + 1 else if r = h then (if d % 2 = 1 then d + 1 else d) else d
    (q - qmin).toNat * 2 ^ (p - 1) + n

/-- Exact value of an unscaled element of a format (R163, Table 6.2). -/
def decodeElem (f : Fmt) (bits : Nat) : Val :=
  match f with
  | .i8 => let v := toS 8 bits; .fin (decide (v < 0)) v.natAbs 0
  | _ =>
    let i := fmtInfo f
    let w := fmtBits f
    let neg := nbit bits (w - 1)
    let mag := bits % 2 ^ (w - 1)
    if mag > i.maxMag then
      (if i.infMag = some mag then .inf neg else .nan)
    else
      let ex := mag / 2 ^ (i.p - 1)
      let fr := mag % 2 ^ (i.p - 1)
      if ex = 0 then .fin neg fr i.qmin
      else .fin neg (fr + 2 ^ (i.p - 1)) (i.qmin + (ex - 1 : Nat))

/-- Multiply by a power of two. -/
def Val.scale (v : Val) (k : Int) : Val :=
  match v with
  | .fin n m e => .fin n m (e + k)
  | v => v

/-- Exact value of a scaled element: scale byte 0xFF makes it NaN (R163). -/
def decodeScaled (f : Fmt) (bits : Nat) (x : Nat) : Val :=
  if x = 255 then .nan else (decodeElem f bits).scale ((x : Int) - 127)

/-- Negate. -/
def Val.neg : Val → Val
  | .nan => .nan
  | .inf n => .inf (!n)
  | .fin n m e => .fin (!n) m e

/-- Magnitude. -/
def Val.abs : Val → Val
  | .nan => .nan
  | .inf _ => .inf false
  | .fin _ m e => .fin false m e

/-- Exact sum (R166, R167): a zero sum is negative only when both addends are negative zeros. -/
def Val.add : Val → Val → Val
  | .nan, _ => .nan
  | _, .nan => .nan
  | .inf a, .inf b => if a = b then .inf a else .nan
  | .inf a, _ => .inf a
  | _, .inf b => .inf b
  | .fin n m e, .fin n' m' e' =>
    let g := min e e'
    let x : Nat := m <<< (e - g).toNat
    let y : Nat := m' <<< (e' - g).toNat
    if x = 0 ∧ y = 0 then .fin (n && n') 0 0
    else if n = n' then .fin n (x + y) g
    else if x = y then .fin false 0 0
    else if x > y then .fin n (x - y) g else .fin n' (y - x) g

/-- Exact product (R167). -/
def Val.mul : Val → Val → Val
  | .nan, _ => .nan
  | _, .nan => .nan
  | .inf a, .inf b => .inf (a != b)
  | .inf a, .fin n m _ => if m = 0 then .nan else .inf (a != n)
  | .fin n m _, .inf b => if m = 0 then .nan else .inf (n != b)
  | .fin n m e, .fin n' m' e' => .fin (n != n') (m * m') (e + e')

/-- F32 pattern to exact value. -/
def f32Val (x : W32) : Val := decodeElem .f32 x.toNat

/-- Positive zero. -/
def f32Zero : W32 := 0#32
/-- Canonical NaN of F32. -/
def f32NaN : W32 := 0x7FC00000#32

/-- F32 pattern from sign and magnitude code. -/
def f32Of (neg : Bool) (mag : Nat) : W32 := BitVec.ofNat 32 (b2n neg * 2 ^ 31 + mag)

/-- rnd32 of R166. -/
def rnd32 : Val → W32
  | .nan => f32NaN
  | .inf n => f32Of n 0x7F800000
  | .fin n m e =>
    let g := roundMag 24 (-149) m e
    if g > 0x7F7FFFFF then f32Of n 0x7F800000 else f32Of n g

/-- Sign bit of an F32 pattern. -/
def f32Sign (x : W32) : Bool := x.getLsbD 31
/-- Magnitude bits of an F32 pattern. -/
def f32Mag (x : W32) : Nat := x.toNat % 2 ^ 31
/-- NaN test. -/
def f32IsNaN (x : W32) : Bool := decide (f32Mag x > 0x7F800000)
/-- Infinity or NaN. -/
def f32NonFinite (x : W32) : Bool := decide (f32Mag x ≥ 0x7F800000)
/-- Infinity. -/
def f32IsInf (x : W32) : Bool := decide (f32Mag x = 0x7F800000)
/-- Either zero. -/
def f32IsZero (x : W32) : Bool := decide (f32Mag x = 0)
/-- Order key with −0 below +0 (R168). -/
def f32KeyZ (x : W32) : Int := if f32Sign x then -(f32Mag x : Int) - 1 else f32Mag x
/-- Order key with the two zeros equal (R102, R121). -/
def f32Key (x : W32) : Int := if f32Sign x then -(f32Mag x : Int) else f32Mag x

/-- ADD of R92. -/
def f32Add (a b : W32) : W32 := rnd32 ((f32Val a).add (f32Val b))
/-- SUB of R92. -/
def f32Sub (a b : W32) : W32 := rnd32 ((f32Val a).add (f32Val b).neg)
/-- MUL of R92. -/
def f32Mul (a b : W32) : W32 := rnd32 ((f32Val a).mul (f32Val b))
/-- MAC of R92: d + a × b with one rounding. -/
def f32Mac (d a b : W32) : W32 := rnd32 ((f32Val d).add ((f32Val a).mul (f32Val b)))
/-- MAX of R168. -/
def f32Max (a b : W32) : W32 :=
  if f32IsNaN a || f32IsNaN b then f32NaN else if f32KeyZ a ≥ f32KeyZ b then a else b
/-- MIN of R168. -/
def f32Min (a b : W32) : W32 :=
  if f32IsNaN a || f32IsNaN b then f32NaN else if f32KeyZ a ≤ f32KeyZ b then a else b

/-! Correct rounding of quotients and square roots. -/

/-- The largest `r` with `r * r ≤ n`, one bit at a time from bit `k - 1`. -/
def isqrtGo (n : Nat) : Nat → Nat → Nat
  | 0, r => r
  | k + 1, r => let t := r + 2 ^ k; isqrtGo n k (if t * t ≤ n then t else r)

/-- Integer square root. -/
def isqrt (n : Nat) : Nat := isqrtGo n (Nat.log2 n / 2 + 1) 0

/-- Round `num / den * 2^e`: 64 bits of quotient and one sticky bit. -/
def rndRat (neg : Bool) (num den : Nat) (e : Int) : W32 :=
  let s := 64 + Nat.log2 den
  let n := num <<< s
  let q := n / den
  rnd32 (.fin neg (2 * q + b2n (q * den != n)) (e - (s : Int) - 1))

/-- RECIP: 1 / a, exact quotient rounded once (R169, Table 6.4). -/
def f32Recip (a : W32) : W32 :=
  match f32Val a with
  | .nan => f32NaN
  | .inf n => f32Of n 0
  | .fin n m e => if m = 0 then f32Of n 0x7F800000 else rndRat n 1 m (-e)

/-- SQRT, exact root rounded once (R92, Table 6.4). -/
def f32Sqrt (a : W32) : W32 :=
  match f32Val a with
  | .nan => f32NaN
  | .inf n => if n then f32NaN else f32Of false 0x7F800000
  | .fin n m e =>
    if m = 0 then f32Of n 0
    else if n then f32NaN
    else
      let s : Nat := 64 + (e % 2).toNat
      let v := m <<< s
      let r := isqrt v
      rnd32 (.fin false (2 * r + b2n (r * r != v)) ((e - (s : Int)) / 2 - 1))

/-- RSQRT: 1 / √a (R169, Table 6.4). -/
def f32Rsqrt (a : W32) : W32 :=
  match f32Val a with
  | .nan => f32NaN
  | .inf n => if n then f32NaN else f32Of false 0
  | .fin n m e =>
    if m = 0 then f32Of n 0x7F800000
    else if n then f32NaN
    else
      let s : Nat := 160 + (e % 2).toNat
      let r := isqrt (2 ^ s / m)
      rnd32 (.fin false (2 * r + b2n (r * r * m != 2 ^ s)) ((-e - (s : Int)) / 2 - 1))

/-! The transcendental functions of Table 6.5. Each is enclosed in an interval of integers at scale `2^-P`; the
precision doubles until both ends round to one value (the values are never midpoints, so this ends). -/

/-- Taylor sum of e^x at scale `2^P` for `0 ≤ x ≤ 1/2`, every term rounded down. -/
def expTaylor (P x : Nat) : Nat → Nat → Nat → Nat → Nat
  | 0, _, _, acc => acc
  | fuel + 1, n, t, acc =>
    let t' := (t * x) / (2 ^ P * n)
    if t' = 0 then acc else expTaylor P x fuel (n + 1) t' (acc + t')

/-- Square an interval `k` times at scale `2^P`. -/
def sqIter (P : Nat) : Nat → Nat × Nat → Nat × Nat
  | 0, i => i
  | k + 1, (l, h) => sqIter P k ((l * l) >>> P, ((h * h) >>> P) + 1)

/-- Interval for e^(num * 2^e) at scale `2^P`, for an argument in `[0, 256)`. -/
def expIv (P : Nat) (m : Nat) (e : Int) : Nat × Nat :=
  let sh : Int := e + P - 9
  let (xl, xh) : Nat × Nat :=
    if sh ≥ 0 then (m <<< sh.toNat, m <<< sh.toNat) else (m >>> (-sh).toNat, (m >>> (-sh).toNat) + 1)
  let lo := expTaylor P xl P 1 (2 ^ P) (2 ^ P)
  let hi := expTaylor P xh P 1 (2 ^ P) (2 ^ P) + 2 * P + 8
  sqIter P 9 (lo, hi)

/-- Interval for e^v, `|v| < 256`, sign apart. -/
def expSIv (P : Nat) (neg : Bool) (m : Nat) (e : Int) : Nat × Nat :=
  let (l, h) := expIv P m e
  if neg then (2 ^ (2 * P) / h, 2 ^ (2 * P) / l + 1) else (l, h)

/-- Sum of the odd powers of `z ≤ 1/3` divided by their exponents, at scale `2^P`, rounded down. -/
def atanhGo (P z2 : Nat) : Nat → Nat → Nat → Nat → Nat
  | 0, _, _, acc => acc
  | fuel + 1, k, t, acc => if t = 0 then acc else atanhGo P z2 fuel (k + 2) ((t * z2) >>> P) (acc + t / k)

/-- Interval for 2 atanh(num / den), `num / den ≤ 1/3`. -/
def atanh2Iv (P num den : Nat) : Nat × Nat :=
  let z := (num <<< P) / den
  let l := atanhGo P ((z * z) >>> P) P 1 z 0
  (2 * l, 2 * l + 8 * P + 16)

/-- Interval, as two integers, for ln(m * 2^e), `m > 0`. -/
def lnIv (P m : Nat) (e : Int) : Int × Int :=
  let L := Nat.log2 m
  -- the significand lies in [1, 2); above 3/2 it is halved, so that x lies in [3/4, 3/2]
  let up := decide (2 * m > 3 * 2 ^ L)
  let d := if up then 2 ^ (L + 1) else 2 ^ L
  let k : Int := e + L + b2n up
  let (tl, th) := if m ≥ d then atanh2Iv P (m - d) (m + d) else atanh2Iv P (d - m) (m + d)
  let (xl, xh) : Int × Int := if m ≥ d then (tl, th) else (-(th : Int), -(tl : Int))
  let (ll, lh) := atanh2Iv P 1 3
  if k ≥ 0 then (xl + k * ll, xh + k * lh) else (xl + k * lh, xh + k * ll)

/-- rnd32 of an integer at scale `2^-P`, times `2^x`. -/
def rndAt (P : Nat) (x : Int) (neg : Bool) (v : Int) : W32 :=
  rnd32 (.fin (neg != decide (v < 0)) v.natAbs (x - P))

/-- Double the precision until the two ends of the interval round alike. -/
def ziv (iv : Nat → Int × Int) (rnd : Nat → Int → W32) : Nat → Nat → W32
  | 0, P => rnd P (iv P).1
  | fuel + 1, P =>
    let (l, h) := iv P
    if rnd P l = rnd P h then rnd P l else ziv iv rnd fuel (2 * P)

/-- `m * 2^e ≥ k`. -/
def dyGe (m : Nat) (e : Int) (k : Nat) : Bool :=
  if e ≥ 0 then decide (m <<< e.toNat ≥ k) else decide (m ≥ k <<< (-e).toNat)

/-- EXP (R169): e^a. -/
def f32Exp (a : W32) : W32 :=
  match f32Val a with
  | .nan => f32NaN
  | .inf n => if n then f32Zero else f32Of false 0x7F800000
  | .fin n m e =>
    if m = 0 then 0x3F800000#32
    else if dyGe m e 105 then (if n then f32Zero else f32Of false 0x7F800000)
    else ziv (fun P => let (l, h) := expSIv P n m e; (l, h)) (fun P v => rndAt P 0 false v) 5 256

/-- LOG (R169): ln a. -/
def f32Log (a : W32) : W32 :=
  match f32Val a with
  | .nan => f32NaN
  | .inf n => if n then f32NaN else f32Of false 0x7F800000
  | .fin n m e =>
    if m = 0 then f32Of true 0x7F800000
    else if n then f32NaN
    else if a = 0x3F800000#32 then f32Zero
    else ziv (fun P => lnIv P m e) (fun P v => rndAt P 0 false v) 5 256

/-- TANH (R169): (e^(2|a|) − 1) / (e^(2|a|) + 1), an odd function. -/
def f32Tanh (a : W32) : W32 :=
  match f32Val a with
  | .nan => f32NaN
  | .inf n => f32Of n 0x3F800000
  | .fin n m e =>
    if m = 0 then a
    else if dyGe m e 20 then f32Of n 0x3F800000
    else
      ziv (fun P =>
          let (l, h) := expIv P m (e + 1)
          let one := 2 ^ P
          (((l - one) <<< P) / (l + one), ((h - one) <<< P) / (h + one) + 1))
        (fun P v => rndAt P 0 n v) 5 256

/-- Interval for 1 / (1 + e^(-v)) with v = ±m 2^e, `|v| < 256`. -/
def sigIv (P : Nat) (neg : Bool) (m : Nat) (e : Int) : Nat × Nat :=
  let (l, h) := expSIv P (!neg) m e
  (2 ^ (2 * P) / (2 ^ P + h), 2 ^ (2 * P) / (2 ^ P + l) + 1)

/-- SIGMOID (R169): 1 / (1 + e^−a). -/
def f32Sigmoid (a : W32) : W32 :=
  match f32Val a with
  | .nan => f32NaN
  | .inf n => if n then f32Zero else 0x3F800000#32
  | .fin n m e =>
    if m = 0 then 0x3F000000#32
    else if dyGe m e 120 then (if n then f32Zero else 0x3F800000#32)
    else ziv (fun P => let (l, h) := sigIv P n m e; (l, h)) (fun P v => rndAt P 0 false v) 5 256

/-- a / (1 + e^(-v)) for a finite nonzero `a = ±m 2^e` and `v = ±vm 2^ve` of the same sign; beyond `|v| = 120` the
result has rounded to a, or to a zero of a's sign. -/
def f32Gate (a : W32) (n : Bool) (m : Nat) (e : Int) (vm : Nat) (ve : Int) : W32 :=
  if dyGe vm ve 120 then (if n then f32Of true 0 else a)
  else ziv (fun P => let (l, h) := sigIv P n vm ve; ((l * m : Nat), (h * m : Nat))) (fun P v => rndAt P e n v) 5 256

/-- SILU (R169): a / (1 + e^−a). -/
def f32Silu (a : W32) : W32 :=
  match f32Val a with
  | .nan => f32NaN
  | .inf n => if n then f32Of true 0 else f32Of false 0x7F800000
  | .fin n m e => if m = 0 then a else f32Gate a n m e m e

/-- GELU (R169): 0.5 a (1 + tanh u) = a / (1 + e^(−2u)), u = c1 (a + c2 a³) exactly. -/
def f32Gelu (a : W32) : W32 :=
  match f32Val a with
  | .nan => f32NaN
  | .inf n => if n then f32Of true 0 else f32Of false 0x7F800000
  | .fin n m e =>
    if m = 0 then a
    else
      let x : Val := .fin false m e
      let u := ((f32Val 0x3F4C422A#32).mul (x.add ((f32Val 0x3D372713#32).mul (x.mul (x.mul x))))).scale 1
      match u with
      | .fin _ um ue => f32Gate a n m e um ue
      | _ => f32NaN

/-! Conversions (Table 6.6) -/

/-- Convert a finite dyadic to I8 with ties to even and saturation (R171). -/
def encodeI8 (n : Bool) (m : Nat) (e : Int) : Nat × Bool :=
  let k := if e ≥ 0 then m <<< e.toNat else
    let s := (-e).toNat
    let d := m >>> s
    let r := m % 2 ^ s
    let h := 2 ^ (s - 1)
    if r > h then d + 1 else if r = h then d + d % 2 else d
  if n then (if k > 128 then (0x80, true) else (ofS 8 (-(k : Int)), false))
  else (if k > 127 then (0x7F, true) else (k, false))

/-- Convert an F32 result to the bits of a scratchpad format under block scale `x` (127 in unscaled formats), and
whether the conversion saturates (R170, R171). -/
def encodeElem (f : Fmt) (x : Nat) (r : W32) : Nat × Bool :=
  let i := fmtInfo f
  let sg := fun (n : Bool) => b2n n * 2 ^ (fmtBits f - 1)
  match f, f32Val r with
  | .f32, _ => (r.toNat, false)
  | .i8, .nan => (0, false)
  | .i8, .inf n => (if n then 0x80 else 0x7F, true)
  | .i8, .fin n m e => encodeI8 n m e
  | _, .nan => (i.nan, false)
  | _, .inf n =>
    match i.infMag with
    | some g => (sg n + g, false)
    | none => (sg n + i.maxMag, true)
  | _, .fin n m e =>
    let g := roundMag i.p i.qmin m (e + 127 - x)
    if g > i.maxMag then
      match f with
      | .w16 | .h16 => (sg n + i.infMag.getD 0, true)
      | _ => (sg n + i.maxMag, true)
    else (sg n + g, false)

/-- EMAX of Table 6.7. -/
def fmtEmax : Fmt → Int
  | .q8e4 => 8 | .q8e5 => 15 | .q4 => 2 | _ => 0

/-- The largest finite magnitude among results. -/
def amaxOf (rs : List W32) : W32 :=
  rs.foldl (fun a r => if f32NonFinite r then a else if f32Mag r > f32Mag a then f32Of false (f32Mag r) else a) f32Zero

/-- The block scale of R173 for the live results of a block. -/
def blockScale (f : Fmt) (rs : List W32) : Nat :=
  match f32Val (amaxOf rs) with
  | .fin _ m e =>
    if m = 0 then 127
    else
      let x := ((Nat.log2 m : Int) + e - fmtEmax f + 127)
      let X := (max 0 (min x 254)).toNat
      let i := fmtInfo f
      -- round_unbounded: the format's precision and subnormal grid, no upper limit
      if X < 254 && decide (roundMag i.p i.qmin m (e + 127 - X) > i.maxMag) then X + 1 else X
  | _ => 127

/-- Decode one vector operand to F32 (R163, R90). -/
def toF32 (f : Fmt) (bits scale : Nat) : W32 :=
  match f with
  | .f32 => BitVec.ofNat 32 bits
  | _ => if fmtScaled f then rnd32 (decodeScaled f bits scale) else rnd32 (decodeElem f bits)

/-! Random bits and stochastic rounding -/

/-- Rotate left. -/
def rotl32 (v : W32) (n : Nat) : W32 := (v <<< n) ||| (v >>> (32 - n))

/-- One round of R187. -/
def rngRound (s : W32 × W32 × W32 × W32) : W32 × W32 × W32 × W32 :=
  let (a, b, c, d) := s
  let a := a + b
  let d := rotl32 (d ^^^ a) 16
  let c := c + d
  let b := rotl32 (b ^^^ c) 12
  let a := a + b
  let d := rotl32 (d ^^^ a) 8
  let c := c + d
  let b := rotl32 (b ^^^ c) 4
  (a, b, c, d)

/-- rng32 of R187. -/
def rng32 (seed : W64) (tid : W32) (idx : Nat) (step : W32) : W32 :=
  let a := seed.setWidth 32 ^^^ BitVec.ofNat 32 idx
  let b := (seed >>> 32).setWidth 32 ^^^ tid
  let c := step ^^^ (BitVec.ofNat 32 (idx >>> 32) <<< 24) ^^^ 0x4F1B2C87#32
  let (a, b, c, d) := rngRound (rngRound (a, b, c, 0x71D3A96E#32))
  a ^^^ b ^^^ c ^^^ d

/-- srst of R189, with whether it saturated. -/
def srst (x : W32) (seed : W64) (tid : W32) (idx : Nat) (step : W32) : Nat × Bool :=
  let m := f32Mag x
  let s := b2n (f32Sign x) * 0x8000
  if f32IsNaN x then (0x7FC0, false)
  else if m = 0x7F800000 then (s + 0x7F80, false)
  else
    let rb := (rng32 seed tid idx step).toNat % 65536
    let q := (m + rb) / 65536
    if q ≥ 0x7F80 then (s + 0x7F7F, true) else (s + q, false)

end Sys2Proof
end

