-- ==== Sys2Proof/Machine/SMap.lean ====
section
/-! DEFINITION. Operations on the sparse maps and on byte-addressed storage; every operation keeps the canonical
form (proved in Laws/Maps.lean). -/
namespace Sys2Proof

/-- The entry at key `k`. -/
def SMap.get? {α : Type} : SMap α → Nat → Option α
  | [], _ => none
  | (j, v) :: m, k => if j = k then some v else SMap.get? m k

/-- The entry at key `k`, or `d` where there is none. -/
def SMap.getD {α : Type} (m : SMap α) (k : Nat) (d : α) : α := (SMap.get? m k).getD d

/-- Insert or replace the entry at key `k`. -/
def SMap.set {α : Type} : SMap α → Nat → α → SMap α
  | [], k, v => [(k, v)]
  | (j, w) :: m, k, v =>
    if k < j then (k, v) :: (j, w) :: m
    else if k = j then (k, v) :: m
    else (j, w) :: SMap.set m k v

/-- Remove the entry at key `k`. -/
def SMap.erase {α : Type} (m : SMap α) (k : Nat) : SMap α := m.filter fun p => p.1 != k

/-- Store `v` at `k`, keeping no entry equal to the default `d`. -/
def SMap.setD {α : Type} [DecidableEq α] (m : SMap α) (k : Nat) (v d : α) : SMap α :=
  if v = d then SMap.erase m k else SMap.set m k v

/-- Apply `f` to the entry at `k`, reading `d` where there is none, and keep no entry equal to `d`. -/
def SMap.modD {α : Type} [DecidableEq α] (m : SMap α) (k : Nat) (d : α) (f : α → α) : SMap α :=
  SMap.setD m k (f (SMap.getD m k d)) d

/-- Apply `f` to the entry at `k` if there is one. -/
def SMap.adj {α : Type} (m : SMap α) (k : Nat) (f : α → α) : SMap α :=
  m.map fun p => if p.1 = k then (p.1, f p.2) else p

/-- Apply `f` to every entry. -/
def SMap.mapV {α : Type} (m : SMap α) (f : Nat → α → α) : SMap α := m.map fun p => (p.1, f p.1 p.2)

/-- Keep the entries that satisfy `f`. -/
def SMap.keep {α : Type} (m : SMap α) (f : Nat → α → Bool) : SMap α := m.filter fun p => f p.1 p.2

/-- The keys. -/
def SMap.keys {α : Type} (m : SMap α) : List Nat := m.map (·.1)

/-- The key of the first entry that satisfies `f`. -/
def SMap.findKey? {α : Type} (m : SMap α) (f : Nat → α → Bool) : Option Nat :=
  (m.find? fun p => f p.1 p.2).map (·.1)

/-- Keys strictly rising. -/
def SMap.wf {α : Type} : SMap α → Bool
  | [] => true
  | [_] => true
  | a :: b :: m => decide (a.1 < b.1) && SMap.wf (b :: m)

/-- One byte of storage. -/
def Mem.rd (m : Mem) (a : Nat) : Byte := SMap.getD m a 0#8

/-- Write one byte; writing zero removes the entry. -/
def Mem.wr (m : Mem) (a : Nat) (b : Byte) : Mem := SMap.setD m a b 0#8

/-- `n` bytes from address `a`, lowest first. -/
def Mem.rdN (m : Mem) (a n : Nat) : List Byte := (List.range n).map fun i => Mem.rd m (a + i)

/-- Write bytes from address `a` upwards. -/
def Mem.wrN (m : Mem) : Nat → List Byte → Mem
  | _, [] => m
  | a, b :: bs => Mem.wrN (Mem.wr m a b) (a + 1) bs

/-- The canonical form of storage: addresses strictly rising and no zero byte listed. -/
def Mem.wf (m : Mem) : Bool := SMap.wf m && m.all fun p => p.2 != 0#8

end Sys2Proof
end

