-- ==== Sys2Proof/Machine/TileState.lean ====
section
/-! DEFINITION. The status codes of the block and the state of one tile: scratchpad, accumulator file, Anvil, vector
engine, control core and their registers (chapters 03 to 07). -/
namespace Sys2Proof

/-- Traffic classes (Table 1.6). -/
inductive TCls where
  | slot | job | backfill
deriving DecidableEq, Repr

/-- Status codes, Table 5.14 (R160). -/
inductive Status where
  | ok | rsvdSet | version | busy | denied | fenced | parity | late | abandoned | overflowSkip | range | poisoned
  | notInRange | abftMismatch | degraded
deriving DecidableEq, Repr

/-- Storage errors that the reads of one command meet (R220): the environment brings them. -/
inductive StoreErr where
  /-- a corrected scratchpad read -/
  | spdCe
  /-- an uncorrectable aligned 8-byte scratchpad word -/
  | spdUe (word : Nat)
  /-- a corrected accumulator read -/
  | accCe
  /-- an uncorrectable accumulator element -/
  | accUe (elem : Nat)
deriving DecidableEq, Repr

/-- TILE_CP_STAT.STATE (Table 5.15). -/
inductive CpState where
  | idle | running | waiting | faulted
deriving DecidableEq, Repr

/-- What a waiting tile waits for (R126, R129, R130, R134, R135, R136, R104, R111). -/
inductive TileWait where
  /-- CTL.SEMWAIT on a semaphore for a count -/
  | sem (n count : Nat)
  /-- CTL.QPOP on an empty queue -/
  | qEmpty (q : Nat)
  /-- TNG.PUSH to a full queue of this module -/
  | qFull (q : Nat)
  /-- CTL.STEP -/
  | step
  /-- CTL.END -/
  | fin
  /-- held at the instruction after CTL.STEP until a quench (R363) or the end of hang handling (R374) -/
  | hold
  /-- TNG.PUSH to another module, at its port's transaction limit (R259, R357) -/
  | port
  /-- a unit's queue, a deposit, a Tongs slot, a page fill -/
  | unit
deriving DecidableEq, Repr

/-- A summary slot (Table 4.8). -/
structure Slot where
  max : W32
  min : W32
  sum : W32
  sumsq : W32
  valid : Bool
  fault : Bool
  nonfinite : Bool
  nnz : BitVec 17
  argmax : BitVec 17
deriving DecidableEq, Repr

/-- A weight block in the cells: its image as read, its shape, and the checksum weights of R69. -/
structure WBlock where
  fmt : Fmt
  k : Nat
  n : Nat
  img : List Byte
  ck : List W32
deriving DecidableEq, Repr

/-- The fields of a checked ANV.PASS (Table 3.3). -/
structure AnvPass where
  m : Nat
  n : Nat
  k : Nat
  accRow : Nat
  aAddr : Nat
  wAddr : Nat
  sAddr : Nat
  acc : Bool
  neww : Bool
  flat : Bool
  sig : Bool
  sem : Nat
  afmt : Fmt
  wfmt : Fmt
deriving DecidableEq, Repr

/-- One computed output row: the pass's own contributions p and the check value C; `ue` when the row read an
uncorrectable word (R220). -/
structure AnvRow where
  p : List W32
  c : W32
  ue : Bool
deriving DecidableEq, Repr

/-- An accepted pass and how far it has come. -/
structure AnvJob where
  pass : AnvPass
  /-- address of the instruction -/
  pc : Nat
  /-- place in the tile's program order (R80) -/
  seq : Nat
  /-- its new block is in the pending registers -/
  loaded : Bool
  issued : Bool
  rows : List AnvRow
  landed : Nat
  /-- mismatched rows so far -/
  mism : Nat
  /-- TBIN and NBR of the first mismatched row (R360) -/
  tbin : Nat
  nbr : Nat
  /-- TOL and ABFT_ACT as they stood when the pass was accepted (R86) -/
  tol : BitVec 5
  act : BitVec 2
deriving DecidableEq, Repr

/-- Location of a vector operand (Table 4.2, and BLOC of Table 4.4). -/
inductive VLoc where
  | none | spd | acc | scalar | imm
deriving DecidableEq, Repr

/-- The fields of a checked VEC.MAP, VEC.SRST or VEC.SMV. -/
structure VecOp where
  /-- function code of Table 4.3; unused by SRST and SMV -/
  fn : Nat
  srst : Bool
  smv : Bool
  aloc : VLoc
  afmt : Fmt
  aAddr : Nat
  asAddr : Nat
  bloc : VLoc
  bfmt : Fmt
  b : Nat
  dloc : VLoc
  dfmt : Fmt
  dAddr : Nat
  dsAddr : Nat
  count : Nat
  mask : Nat
  sem : Nat
  sig : Bool
  slot : Nat
  sumen : Bool
  grad : Bool
  eidx : Nat
  tid : Nat
deriving DecidableEq, Repr

/-- Running summaries of R102: 64 lane sums, 64 lane square sums, and the rest. -/
structure SumAcc where
  s : List W32
  q : List W32
  max : Option W32
  min : Option W32
  argmax : Nat
  nnz : Nat
  nonfinite : Bool
deriving DecidableEq, Repr

/-- An accepted vector instruction and how far it has come. -/
structure VecJob where
  op : VecOp
  pc : Nat
  seq : Nat
  /-- next group to issue -/
  group : Nat
  /-- accumulator-scalar operand read before group 0; its read was uncorrectable when the flag is set -/
  bval : Option (W32 × Bool)
  /-- VEC.SRST in a voting context: the outcome read once (R180); `some true` stores -/
  vote : Option Bool
  /-- reference time at which its wait for VOTED began (R180, R357) -/
  waitSince : Option Nat
  sums : SumAcc
  /-- lowest faulted element -/
  lowFault : Option Nat
  deposited : Bool
  /-- the context's step number at the instruction's issue (R189) -/
  step : W32
deriving DecidableEq, Repr

/-- One field of the following instruction that CTL.PFX patches: f + x in WID bits at POS (R124). -/
structure Patch where
  pos : Nat
  wid : Nat
  x : W32
deriving DecidableEq, Repr

/-- One physical tile. -/
structure Tile where
  /-- scratchpad bytes, 262,144 -/
  spd : Mem
  /-- 8-byte scratchpad words marked uncorrectable -/
  spdUe : List Nat
  /-- accumulator file, 512 rows of 16 F32 -/
  acc : SMap W32
  /-- accumulator elements marked uncorrectable -/
  accUe : List Nat
  -- TILE_CFG, TILE_ABFT_TOL (Table 3.8)
  abftAct : BitVec 2
  wchg : BitVec 2
  tol : BitVec 5
  -- ANV_STAT, ANV_PASS_COUNT, ANV_ABFT_COUNT, ANV_ABFT_LAST (Table 3.8)
  anvLastErr : Status
  anvNonfinite : Bool
  anvMismatch : Bool
  anvReject : Bool
  anvPasses : W32
  anvSkipped : W16
  anvMismatches : W16
  anvTbin : BitVec 5
  anvNbr : BitVec 4
  anvAccRow : BitVec 9
  /-- accepted passes, oldest first -/
  anvJobs : List AnvJob
  /-- block in the active registers -/
  anvActive : Option WBlock
  /-- block in the pending registers -/
  anvPending : Option WBlock
  /-- shape of the block the next NEWW = 0 pass would keep: format, K, N -/
  anvShape : Option (Fmt × Nat × Nat)
  -- VEC_STAT and counters (Table 4.10)
  vecLastErr : Status
  vecLaneFault : Bool
  vecNonfinite : Bool
  vecReject : Bool
  vecInstrs : W32
  vecElems : W32
  vecFaultLast : BitVec 17
  vecJobs : List VecJob
  slots : SMap Slot
  -- control core (Table 5.15)
  cpState : CpState
  cpLastErr : Status
  /-- address of the next instruction; 262,144 when the program has run off the scratchpad -/
  pc : Nat
  faultPc : BitVec 18
  /-- context holding the tile -/
  ctx : Option Nat
  x : SMap W32
  sems : SMap W16
  semSel : BitVec 7
  /-- Tongs engine that the bitstream gives the tile; none: the engine of its column (R343) -/
  tngSel : Option (BitVec 6)
  patches : List Patch
  wait : Option TileWait
  /-- program order of accepted instructions -/
  seq : Nat
  /-- the started LAUNCH the tile runs, by descriptor number -/
  launch : Option Nat
  -- TILE_NUM_FLAGS, TILE_SR_COUNT (Table 6.12)
  psn : Bool
  ovf : Bool
  srCount : W32
  -- TILE_SPD_ERR, TILE_ACC_ERR (Table 7.14)
  spdErrUe : W16
  spdErrCe : W16
  accErrUe : W16
  accErrCe : W16
deriving DecidableEq, Repr

/-- A summary slot at reset (Table 4.8). -/
def Slot.reset : Slot := ⟨0, 0, 0, 0, false, false, false, 0, 0⟩

/-- A tile at reset: Tables 3.8, 4.8, 4.10, 5.15, 6.12 and 7.14; storage as zeros. -/
def Tile.reset : Tile where
  spd := []
  spdUe := []
  acc := []
  accUe := []
  abftAct := 1
  wchg := 0
  tol := 12
  anvLastErr := .ok
  anvNonfinite := false
  anvMismatch := false
  anvReject := false
  anvPasses := 0
  anvSkipped := 0
  anvMismatches := 0
  anvTbin := 0
  anvNbr := 0
  anvAccRow := 0
  anvJobs := []
  anvActive := none
  anvPending := none
  anvShape := none
  vecLastErr := .ok
  vecLaneFault := false
  vecNonfinite := false
  vecReject := false
  vecInstrs := 0
  vecElems := 0
  vecFaultLast := 0
  vecJobs := []
  slots := []
  cpState := .idle
  cpLastErr := .ok
  pc := 0
  faultPc := 0
  ctx := none
  x := []
  sems := []
  semSel := 0
  tngSel := none
  patches := []
  wait := none
  seq := 0
  launch := none
  psn := false
  ovf := false
  srCount := 0
  spdErrUe := 0
  spdErrCe := 0
  accErrUe := 0
  accErrCe := 0

end Sys2Proof
end

