-- ==== Sys2Proof/Machine/MemState.lean ====
section
/-! DEFINITION. The state of the memory tiers (chapter 07): objects, pages and where each lies, movements in flight,
waits, the backing pool, retired frames, scrub and the MEM registers. -/
namespace Sys2Proof

/-- Where a page's bytes lie: a frame of T1, a frame of T2, a page of the backing pool. -/
inductive Place where
  | t1 (f : Nat)
  | t2 (f : Nat)
  | bk (b : Nat)
deriving DecidableEq, Repr

/-- Kinds of movement (R212, R227). -/
inductive MoveKind where
  | fill | zfill | evict | retire
deriving DecidableEq, Repr

/-- A movement in flight: its kind, where it lands, and the age the page's place held when it began (R213). -/
structure PageMove where
  kind : MoveKind
  dst : Place
  age : W16
deriving DecidableEq, Repr

/-- One page of an object. A page with no place is ZERO; with a movement it is MOVING; in its home tier RESIDENT;
elsewhere LOWER (Table 7.8). -/
structure Page where
  loc : Option Place
  move : Option PageMove
  /-- age counter of the place it lies in (R213) -/
  age : W16
  /-- contents, 2,097,152 bytes -/
  data : Mem
  /-- poisoned 64-byte words -/
  poison : List Nat
deriving DecidableEq, Repr

/-- A placement record (Table 7.5). -/
structure Obj where
  ctx : Nat
  /-- 1 for T1, 2 for T2 -/
  home : Nat
  aff : Nat
  skip : Bool
  pin : Bool
  /-- a PIN of it is in progress (R206, R209) -/
  pinning : Bool
  /-- RELEASE has begun (R210) -/
  releasing : Bool
  /-- local address of its first page, in units of 2 MiB -/
  base : Nat
  pages : Nat
deriving DecidableEq, Repr

/-- A wait for a page to become accessible (R215): the page, when it began, whether FILL_MS applies (R206, R358),
and its outcome once known; `cls` is the class of the access (R30). -/
structure PageWait where
  key : Nat
  cls : TCls
  since : Nat
  timed : Bool
  res : Option Status
deriving DecidableEq, Repr

/-- A movement that could not begin for want of a free frame (R216, R217): a fill, an eviction or a retirement move of
a page; `cls` is the class of the access that caused it (R30, R203); `victim` is the page being evicted for it; `stalled`
once it has counted in STALLS. -/
structure Demand where
  kind : MoveKind
  key : Nat
  cls : TCls
  victim : Option Nat
  stalled : Bool
deriving DecidableEq, Repr

/-- Counters of one tier (Table 7.13). -/
structure TierCnt where
  fills : W32
  evicts : W32
  zfills : W32
  ce : W32
  ue : W32
  stalls : W32
  lowater : BitVec 21
deriving DecidableEq, Repr

/-- The memory tiers. -/
structure MemSys where
  /-- objects by handle -/
  objs : SMap Obj
  /-- pages by handle × 2^20 + index; an absent page of an object is ZERO -/
  pages : SMap Page
  waits : SMap PageWait
  nextWait : Nat
  demands : List Demand
  /-- consecutive grants to page movements that passed a waiting class over (R30), by class -/
  passed : SMap Nat
  /-- regions of the backing pool: T3 offset in units of 2 MiB, and pages (R211) -/
  pool : List (Nat × Nat)
  /-- write count of each backing page (R225) -/
  bkWrites : SMap W64
  /-- frames whose retirement has taken effect, by tier; kept in flash (R227) -/
  retired1 : List Nat
  retired2 : List Nat
  /-- frames being retired: tier and frame -/
  retiring : List (Nat × Nat)
  /-- times of corrected errors of a frame, by tier × 2^21 + frame -/
  ceTimes : SMap (List Nat)
  t1 : TierCnt
  t2 : TierCnt
  t3 : TierCnt
  scrubPeriod : BitVec 8
  scrubBehind : Bool
  /-- a patrol pass in progress and when it started -/
  scrubSince : Option Nat
  /-- when the present scrub period began, and whether a pass has finished in it (R226) -/
  scrubAt : Nat
  scrubOk : Bool
deriving DecidableEq, Repr

/-- Statistics of one record (Table 7.11). -/
structure StatRec where
  count : Nat
  nonfin : Nat
  elems : Nat
  sumIn : Int
  sqIn : Nat
  sqOut : Nat
deriving DecidableEq, Repr

/-- Counters of a tier at reset (Table 7.13). -/
def TierCnt.reset (low : BitVec 21) : TierCnt := ⟨0, 0, 0, 0, 0, 0, low⟩

/-- The tiers at reset (Tables 7.12 and 7.13). -/
def MemSys.reset : MemSys where
  objs := []
  pages := []
  waits := []
  nextWait := 0
  demands := []
  passed := []
  pool := []
  bkWrites := []
  retired1 := []
  retired2 := []
  retiring := []
  ceTimes := []
  t1 := TierCnt.reset 1024
  t2 := TierCnt.reset 1024
  t3 := TierCnt.reset 0
  scrubPeriod := 0x18
  scrubBehind := false
  scrubSince := none
  scrubAt := 0
  scrubOk := false

/-- A page never written since PLACE. -/
def Page.zero : Page := ⟨none, none, 0, [], []⟩

end Sys2Proof
end

