-- ==== Sys2Proof/Machine/TileOps.lean ====
section
/-! DEFINITION. Named operations on one tile: storage reads with their error marks, register numbers, program order,
and what a unit of the tile asks of the rest of the block. -/
namespace Sys2Proof

/-! Arbitration at a shared point (R30, R257) -/

/-- One that has been passed over for 15 consecutive grants, or the first, among those that may be granted (R30, R257). -/
def grantOf (passed : SMap Nat) (cands : List Nat) : Option Nat :=
  (cands.find? fun c => decide (SMap.getD passed c 0 ≥ 15)).orElse fun _ => cands.head?

/-- Passes after a grant to `g`: one more for the others that wait, none for the rest. -/
def passOver (passed : SMap Nat) (waiting : List Nat) (g : Nat) : SMap Nat :=
  waiting.foldl (fun (m : SMap Nat) c => if c = g then m else SMap.set m c (SMap.getD passed c 0 + 1)) []

/-- Number of a traffic class, in the order of R30. -/
def TCls.num : TCls → Nat
  | .slot => 0 | .job => 1 | .backfill => 2

/-- The 8-bit code of a status (Table 5.14). -/
def Status.code : Status → Nat
  | .ok => 0 | .rsvdSet => 1 | .version => 2 | .busy => 3 | .denied => 4 | .fenced => 5 | .parity => 6 | .late => 7
  | .abandoned => 8 | .overflowSkip => 9 | .range => 10 | .poisoned => 11 | .notInRange => 12 | .abftMismatch => 13
  | .degraded => 14

/-- Rank of R150, 7 highest; 0 for a status outside that list. -/
def Status.rank : Status → Nat
  | .degraded => 7 | .fenced => 6 | .abandoned => 5 | .parity => 4 | .poisoned => 3 | .overflowSkip => 2 | .late => 1
  | _ => 0

/-- Of two conditions one execution met, the status it completes with (R150): the higher rank; a status outside the
list of R150 that came first stays. -/
def Status.worse (a b : Status) : Status :=
  if a = .ok then b
  else if b = .ok then a
  else if a.rank = 0 then a
  else if b.rank > a.rank then b else a

/-- What a unit of a tile asks of the rest of the block. -/
inductive TEff where
  /-- SIG completion: add 1 to a semaphore of the own tile; `pc` is the instruction (R127) -/
  | signal (sem pc : Nat)
  /-- the tile program faults (R138) -/
  | fault (st : Status) (pc : Nat)
  /-- set OVF of the tile and of its context (R176) -/
  | ovf
  /-- set PSN of the tile and of its context (R176) -/
  | psn
  /-- an event record of this tile -/
  | event (code arg0 : Nat)
  /-- an incident report (R360): mismatched rows, TBIN, NBR -/
  | incident (rows tbin nbr : Nat)
  /-- uncorrectable reads: 0 scratchpad, 1 accumulator (R361) -/
  | ue (storage : Nat)
  /-- corrected reads (R361, R384) -/
  | ce (n : Nat)
  /-- a skipped VEC.SRST (R184) -/
  | skipped
deriving DecidableEq, Repr

/-- A step of a tile's unit: the tile after it and what it asks. -/
abbrev TStep := Tile × List TEff

/-- Bytes of scratchpad: 262,144. -/
def spdSize : Nat := 262144

/-- The 8-byte words that `n` bytes from `a` touch. -/
def wordsOf (a n : Nat) : List Nat :=
  if n = 0 then [] else (List.range ((a + n - 1) / 8 - a / 8 + 1)).map (a / 8 + ·)

/-- Uncorrectable words met by a read of `n` bytes from `a`. -/
def Tile.spdUeIn (t : Tile) (a n : Nat) : Nat := (t.spdUe.filter fun w => decide (a < 8 * w + 8) && decide (8 * w < a + n)).length

/-- A scratchpad read of `n` bytes as a number. -/
def Tile.rdLe (t : Tile) (a n : Nat) : Nat := leNat (t.spd.rdN a n)

/-- Mark scratchpad words uncorrectable. -/
def Tile.markSpd (t : Tile) (ws : List Nat) : Tile :=
  { t with spdUe := t.spdUe ++ ws.filter fun w => !t.spdUe.contains w }

/-- Write scratchpad bytes. A word wholly covered loses its uncorrectable mark; a partial write merges and keeps it
(R220). -/
def Tile.spdWrite (t : Tile) (a : Nat) (bs : List Byte) : Tile :=
  { t with
    spd := t.spd.wrN a bs
    spdUe := t.spdUe.filter fun w => !(decide (a ≤ 8 * w) && decide (8 * w + 8 ≤ a + bs.length)) }

/-- One accumulator element. -/
def Tile.accRd (t : Tile) (e : Nat) : W32 := t.acc.getD e 0

/-- Write one accumulator element; the write covers the protected word, so it clears its mark (R220). -/
def Tile.accWr (t : Tile) (e : Nat) (v : W32) : Tile :=
  { t with acc := SMap.setD t.acc e v 0, accUe := t.accUe.filter (· != e) }

/-- Index register. -/
def Tile.xr (t : Tile) (i : Nat) : W32 := t.x.getD i 0

/-- Write an index register. -/
def Tile.xw (t : Tile) (i : Nat) (v : W32) : Tile := { t with x := SMap.setD t.x i v 0 }

/-- Semaphore value. -/
def Tile.sem (t : Tile) (i : Nat) : W16 := t.sems.getD i 0

/-- Write a semaphore. -/
def Tile.semW (t : Tile) (i : Nat) (v : W16) : Tile := { t with sems := SMap.setD t.sems i v 0 }

/-- Summary slot. -/
def Tile.slot (t : Tile) (i : Nat) : Slot := t.slots.getD i Slot.reset

/-- The storage errors that a command's reads meet: corrected ones are counted, uncorrectable ones marked (R220). -/
def Tile.hit (t : Tile) (hw : List StoreErr) : TStep :=
  hw.foldl (fun (p : TStep) e =>
    match e with
    | .spdCe => ({ p.1 with spdErrCe := satInc p.1.spdErrCe }, p.2 ++ [.ce 1])
    | .accCe => ({ p.1 with accErrCe := satInc p.1.accErrCe }, p.2 ++ [.ce 1])
    | .spdUe w => (p.1.markSpd [w % 32768], p.2)
    | .accUe e => ({ p.1 with accUe := if p.1.accUe.contains (e % 8192) then p.1.accUe else p.1.accUe ++ [e % 8192] }, p.2))
    (t, [])

/-- Count uncorrectable scratchpad reads and report them (R220, R361). -/
def Tile.countSpdUe (t : Tile) (n : Nat) : TStep :=
  if n = 0 then (t, []) else ({ t with spdErrUe := satAdd t.spdErrUe n }, [.ue 0, .event 0x0302 0])

/-- Count uncorrectable accumulator reads and report them. -/
def Tile.countAccUe (t : Tile) (n : Nat) : TStep :=
  if n = 0 then (t, []) else ({ t with accErrUe := satAdd t.accErrUe n }, [.ue 1, .event 0x0302 1])

/-- Advance PC over an executed instruction of `n` bytes; the patches of CTL.PFX end with it. -/
def Tile.advance (t : Tile) (n : Nat) : Tile :=
  { t with pc := t.pc + n, patches := [], cpState := .running, wait := none }

/-- Branch. -/
def Tile.branch (t : Tile) (a : Nat) : Tile :=
  { t with pc := a, patches := [], cpState := .running, wait := none }

/-- Wait at the instruction. -/
def Tile.waitFor (t : Tile) (w : TileWait) : Tile := { t with cpState := .waiting, wait := some w }

/-- The tile is running a program (RUNNING or WAITING). -/
def Tile.active (t : Tile) : Bool := t.cpState = .running || t.cpState = .waiting

/-- Apply the patches of CTL.PFX to an instruction's encoding (R124). -/
def patchWord (w : Nat) (ps : List Patch) : Nat :=
  ps.foldl (fun w p => setBits w p.pos p.wid (nbits w p.pos p.wid + p.x.toNat)) w

/-- Words an opcode occupies (Table 5.1); none for a reserved opcode. -/
def opcWords (o : Nat) : Option Nat :=
  if o ≤ 0x0C || o = 0x10 || o = 0x21 || o = 0x30 || o = 0x31 then some 1
  else if o = 0x20 || o = 0x22 then some 2
  else none

/-- What the control core finds at PC. -/
inductive Fetch where
  /-- beyond byte 262,143: RANGE (R116) -/
  | beyond
  /-- an uncorrectable word: PARITY_UNRECOVERED (R220); how many words -/
  | bad (n : Nat)
  /-- the instruction, patched, and its bytes -/
  | instr (w len : Nat)
deriving DecidableEq, Repr

/-- Fetch the instruction at PC with the patches of a preceding CTL.PFX (R116, R117, R124). A reserved opcode is
fetched as one word. -/
def Tile.fetch (t : Tile) : Fetch :=
  if t.pc + 16 > spdSize then .beyond
  else
    let len := 16 * (opcWords (t.spd.rd t.pc).toNat).getD 1
    if t.pc + len > spdSize then .beyond
    else if t.spdUeIn t.pc len > 0 then .bad (t.spdUeIn t.pc len)
    else .instr (patchWord (t.rdLe t.pc len) t.patches) len

/-- Every instruction handed to the Anvil and the vector engine has completed. -/
def Tile.unitsIdle (t : Tile) : Bool := t.anvJobs.isEmpty && t.vecJobs.isEmpty

/-- A context switch (R81, R105, R115, R177, R464): units end or discard, no resident block, control-core state,
accumulators and summary slots at their reset values, tile flags zero. The scratchpad and the unit registers stay. -/
def Tile.clearCtx (t : Tile) : Tile :=
  { t with
    acc := [], accUe := [], slots := []
    anvJobs := [], anvActive := none, anvPending := none, anvShape := none, vecJobs := []
    cpState := .idle, cpLastErr := .ok, faultPc := 0, pc := 0, x := [], sems := [], semSel := 0, patches := [], wait := none
    launch := none, psn := false, ovf := false }

/-- A tile at reset that keeps its configuration, group 13 of Table 16.2. -/
def Tile.toDefaults (t : Tile) : Tile :=
  { Tile.reset with abftAct := t.abftAct, wchg := t.wchg, tol := t.tol, tngSel := t.tngSel }

/-- Groups 14 and 18 of Table 16.2 return to defaults at a context reset or a quench; the counters it names, the
scratchpad and the configuration are kept. -/
def Tile.unitReset (t : Tile) : Tile :=
  { t.toDefaults with
    spd := t.spd, spdUe := t.spdUe
    anvPasses := t.anvPasses, anvSkipped := t.anvSkipped, anvMismatches := t.anvMismatches
    vecInstrs := t.vecInstrs, vecElems := t.vecElems, srCount := t.srCount
    spdErrUe := t.spdErrUe, spdErrCe := t.spdErrCe, accErrUe := t.accErrUe, accErrCe := t.accErrCe }

/-- A tile that stands FAULTED keeps TILE_CP_STAT and TILE_CP_FAULT_PC until its context is reset (R115, R366). -/
def Tile.keepFault (t u : Tile) : Tile :=
  if t.cpState = .faulted then { u with cpState := .faulted, cpLastErr := t.cpLastErr, faultPc := t.faultPc } else u

end Sys2Proof
end

