-- ==== Sys2Proof/Machine/MemOps.lean ====
section
/-! DEFINITION. Named operations over the memory tiers (chapter 07): the local address map, objects and pages, frame
choice, fills, evictions, retirement moves, page accesses with poison, and the MEM registers' derived values. -/
namespace Sys2Proof

/-- Range of the local map that an address lies in (Table 7.3). -/
inductive LocalRange where
  | t1 | t2 | t3 | control | reserved
deriving DecidableEq, Repr

/-- Table 7.3. -/
def localRange (a : Nat) : LocalRange :=
  if a < 0x018000000000 then .t1
  else if a < 0x020000000000 then .reserved
  else if a < 0x040000000000 then .t2
  else if a < 0x400000000000 then .reserved
  else if a < 0x500000000000 then .t3
  else if a < 0x800000000000 then .reserved
  else if a < 0x800004000000 then .control
  else .reserved

/-- Bytes of a page. -/
def pageSize : Nat := 0x200000

/-- Key of page `i` of an object. -/
def pageKey (h i : Nat) : Nat := h * 2 ^ 20 + i
/-- Handle of a page key. -/
def keyHandle (k : Nat) : Nat := k / 2 ^ 20
/-- Page index of a page key. -/
def keyIdx (k : Nat) : Nat := k % 2 ^ 20

/-- A page. -/
def MemSys.page (m : MemSys) (k : Nat) : Page := m.pages.getD k Page.zero
/-- Store a page. -/
def MemSys.setPage (m : MemSys) (k : Nat) (p : Page) : MemSys := { m with pages := SMap.setD m.pages k p Page.zero }
/-- The object a page belongs to. -/
def MemSys.objOf (m : MemSys) (k : Nat) : Option Obj := m.objs.get? (keyHandle k)

/-- Tier of a place: 1, 2, or 3 for the backing pool. -/
def Place.tier : Place → Nat
  | .t1 _ => 1 | .t2 _ => 2 | .bk _ => 3
/-- Frame or backing page number of a place. -/
def Place.idx : Place → Nat
  | .t1 f => f | .t2 f => f | .bk b => b

/-- Frames per die of T1 and T2 (Table 7.1). -/
def framesPerDie (t : Nat) : Nat := if t = 1 then 98304 else 131072
/-- Frames of a tier. -/
def tierFrames (t : Nat) : Nat := 8 * framesPerDie t

/-- Every place a page occupies: where it lies and where a movement lands. -/
def Page.places (p : Page) : List Place :=
  p.loc.toList ++ (match p.move with | some v => [v.dst] | none => [])

/-- Places in use. -/
def MemSys.used (m : MemSys) (t : Nat) : List Nat :=
  m.pages.flatMap fun kp => (kp.2.places.filter fun x => x.tier = t).map (·.idx)

/-- Retired frames of a tier. -/
def MemSys.retired (m : MemSys) (t : Nat) : List Nat := if t = 1 then m.retired1 else if t = 2 then m.retired2 else []

/-- Frames never chosen: retired or being retired. -/
def MemSys.barred (m : MemSys) (t : Nat) : List Nat :=
  m.retired t ++ (m.retiring.filter fun x => x.1 = t).map (·.2)

/-- Backing pages of the pool (R208). -/
def MemSys.poolPages (m : MemSys) : Nat := (m.pool.map (·.2)).sum

/-- FRAMES of Table 7.13. -/
def MemSys.frames (m : MemSys) (t : Nat) : Nat := if t = 3 then m.poolPages else tierFrames t - (m.retired t).length

/-- FREE of Table 7.13. -/
def MemSys.freeCnt (m : MemSys) (t : Nat) : Nat :=
  m.frames t - (dedup' (m.used t ++ (m.retiring.filter fun x => x.1 = t).map (·.2))).length
where
  /-- without repeats -/
  dedup' (l : List Nat) : List Nat := l.foldl (fun a x => if a.contains x then a else a ++ [x]) []

/-- Lowest number of `[lo, lo + n)` not in a list. -/
def firstFree (used : List Nat) (lo n : Nat) : Option Nat :=
  ((List.range (min n (used.length + 1))).map (lo + ·)).find? fun f => !used.contains f

/-- Die-edge joins between two dies (two rows of four). -/
def dieDist (a b : Nat) : Nat :=
  ((a % 4 : Nat) - (b % 4 : Nat) : Int).natAbs + ((a / 4 : Nat) - (b / 4 : Nat) : Int).natAbs

/-- Dies in the order of R216 from a die: fewest joins first, lower number among equals. -/
def diesFrom (d : Nat) : List Nat := (List.range 5).flatMap fun k => (List.range 8).filter fun x => dieDist d x = k

/-- The frame R216 chooses in tier `t` for a page of die `d`; frames of dies under reset are not chosen. -/
def MemSys.chooseFrame (m : MemSys) (down : List Nat) (t d : Nat) : Option Nat :=
  let u := m.used t ++ m.barred t
  ((diesFrom d).filter fun x => !down.contains x).findSome? fun x => firstFree u (x * framesPerDie t) (framesPerDie t)

/-- The lowest free backing page. -/
def MemSys.chooseBacking (m : MemSys) : Option Nat := firstFree (m.used 3) 0 m.poolPages

/-- Die of page `i` by its affinity (Table 7.5). -/
def Obj.die (o : Obj) (i : Nat) : Nat := if o.aff = 0xF then i % 8 else o.aff

/-- Die of the place a page leaves. -/
def Place.die : Place → Nat
  | .t1 f => f / 98304 | .t2 f => f / 131072 | .bk _ => 0

/-- Place constructor of a tier. -/
def placeOf (t f : Nat) : Place := if t = 1 then .t1 f else .t2 f

/-- The page is in its home tier and not moving. -/
def MemSys.resident (m : MemSys) (k : Nat) : Bool :=
  let p := m.page k
  match m.objOf k, p.loc with
  | some o, some l => p.move.isNone && l.tier = o.home
  | _, _ => false

/-- A page one step down by SPILL (R212, Table 7.5): the place it would take. -/
def MemSys.lowerPlace (m : MemSys) (down : List Nat) (k : Nat) : Option Place :=
  match m.objOf k, (m.page k).loc with
  | some o, some (.t1 f) =>
    if o.skip then
      match m.chooseBacking with
      | some b => some (.bk b)
      | none => (m.chooseFrame down 2 (f / 98304)).map .t2
    else (m.chooseFrame down 2 (f / 98304)).map .t2
  | some _, some (.t2 _) => m.chooseBacking.map .bk
  | _, _ => none

/-- A page of a tier that nothing keeps there: not pinned, not moving, no operation in flight (R217). `busy` tells pages
with an operation in flight. -/
def MemSys.idle (m : MemSys) (busy : Nat → Bool) (t : Nat) (kp : Nat × Page) : Bool :=
  match m.objOf kp.1, kp.2.loc with
  | some o, some l =>
    decide (l.tier = t) && kp.2.move.isNone && !(o.pin || o.pinning) && !busy kp.1 && !(m.waits.any fun w => w.2.key = kp.1)
  | _, _ => false

/-- The candidates of R217: idle pages with somewhere lower to go. With T2 full, a T1 page that goes there has it once a T2
victim goes to the backing pool first. -/
def MemSys.candidates (m : MemSys) (down : List Nat) (busy : Nat → Bool) (t : Nat) : List (Nat × Page) :=
  let spill := fun (t : Nat) => m.pages.filter fun kp => m.idle busy t kp && (m.lowerPlace down kp.1).isSome
  if t = 1 && !(spill 2).isEmpty then m.pages.filter (m.idle busy 1) else spill t

/-- The victim: largest age, ties to the lowest frame number (R217). -/
def MemSys.victim (m : MemSys) (down : List Nat) (busy : Nat → Bool) (t : Nat) : Option Nat :=
  let c := m.candidates down busy t
  (c.foldl (fun (b : Option (Nat × Page)) kp =>
    match b with
    | none => some kp
    | some x =>
      let fx : Nat := (x.2.loc.map Place.idx).getD 0
      let fk : Nat := (kp.2.loc.map Place.idx).getD 0
      if x.2.age.ult kp.2.age || (x.2.age = kp.2.age && decide (fk < fx)) then some kp else some x) none).map (·.1)

/-- Counters of a tier. -/
def MemSys.cnt (m : MemSys) (t : Nat) : TierCnt := if t = 1 then m.t1 else if t = 2 then m.t2 else m.t3
/-- Update the counters of a tier. -/
def MemSys.setCnt (m : MemSys) (t : Nat) (f : TierCnt → TierCnt) : MemSys :=
  if t = 1 then { m with t1 := f m.t1 } else if t = 2 then { m with t2 := f m.t2 } else { m with t3 := f m.t3 }

/-- Start a movement of a page. -/
def MemSys.startMove (m : MemSys) (k : Nat) (kind : MoveKind) (dst : Place) : MemSys :=
  let p := m.page k
  m.setPage k { p with move := some ⟨kind, dst, p.age⟩ }

/-- Try to begin a movement that needs a place; `none` when none is free. -/
def MemSys.tryMove (m : MemSys) (down : List Nat) (kind : MoveKind) (k : Nat) : Option MemSys :=
  match m.objOf k with
  | none => none
  | some o =>
    let p := m.page k
    match kind with
    | .evict => (m.lowerPlace down k).map fun l => m.startMove k .evict l
    | .retire =>
      match p.loc with
      | some l => (m.chooseFrame down l.tier l.die).map fun f => m.startMove k .retire (placeOf l.tier f)
      | none => none
    | _ =>
      (m.chooseFrame down o.home (o.die (keyIdx k))).map fun f =>
        m.startMove k (if p.loc.isNone then .zfill else .fill) (placeOf o.home f)

/-- Tier in which a movement needs a place. -/
def MemSys.demandTier (m : MemSys) (kind : MoveKind) (k : Nat) : Nat :=
  match kind, (m.page k).loc, m.objOf k with
  | .evict, some (.t1 _), _ => 2
  | .evict, _, _ => 3
  | .retire, some l, _ => l.tier
  | _, _, some o => o.home
  | _, _, none => 1

/-- A demand that has nothing left to do: its object is gone, its page is where it should be, or there is nothing lower. -/
def MemSys.stale (m : MemSys) (d : Demand) : Bool :=
  let pg := m.page d.key
  (m.objOf d.key).isNone
    || match d.kind with
       | .retire => !(m.retiring.any fun x => decide (pg.loc = some (placeOf x.1 x.2)))
       | .evict => (match pg.loc with | some (.bk _) => true | none => true | _ => false)
       | _ => m.resident d.key

/-- Serve one demand: begin its movement if a place is free; otherwise evict a victim for it, or, when the victim's lower
tier is full, a T2 victim first; otherwise count a stall once (R216, R217). Answers the demand still waiting. -/
def MemSys.serveOne (m : MemSys) (down : List Nat) (busy : Nat → Bool) (d : Demand) : MemSys × Option Demand :=
  if m.stale d then (m, none)
  else if (m.page d.key).move.isSome then (m, if d.kind = .fill ∨ d.kind = .zfill then none else some d)
  else if d.kind = .evict && busy d.key then (m, some d)
  else
  match m.tryMove down d.kind d.key with
  | some m' => (m', none)
  | none =>
    if (match d.victim with | some v => (m.page v).move.isSome | none => false) then (m, some d)
    else
      let t := m.demandTier d.kind d.key
      let start := fun (v : Nat) => (m.tryMove down .evict v).map fun m' => (m', some { d with victim := some v })
      match m.victim down busy t with
      | some v => ((start v).orElse fun _ => (m.victim down busy 2).bind start).getD (m, some d)
      | none =>
        if d.stalled then (m, some d)
        else (m.setCnt t fun c => { c with stalls := satInc c.stalls }, some { d with stalled := true })

/-- Serve waiting demands: the class that R30 grants next, and within a class the order of arrival (R215, R217). `kept` have
been tried. -/
def MemSys.serveGo (down : List Nat) (busy : Nat → Bool) : Nat → List Demand → List Demand → MemSys → MemSys
  | 0, todo, kept, m => { m with demands := kept ++ todo }
  | n + 1, todo, kept, m =>
    match (grantOf m.passed ((List.range 3).filter fun c => todo.any fun d => d.cls.num = c)).bind fun c =>
        todo.find? fun d => d.cls.num = c with
    | none => { m with demands := kept }
    | some d =>
      let m := { m with demands := kept ++ todo }
      match m.serveOne down busy d with
      | (m', some d') => MemSys.serveGo down busy n (todo.erase d) (kept ++ [d']) m'
      | (m', none) =>
        let waits := (List.range 3).filter fun c => (kept ++ todo).any fun d => d.cls.num = c
        MemSys.serveGo down busy n (todo.erase d) kept
          (if m.stale d then m' else { m' with passed := passOver m.passed waits d.cls.num })

/-- Serve the waiting demands. -/
def MemSys.serve (m : MemSys) (down : List Nat) (busy : Nat → Bool) : MemSys :=
  MemSys.serveGo down busy (m.demands.length + 1) m.demands [] m

/-- Ask for a movement of a page; it begins at once or waits as a demand. -/
def MemSys.demand (m : MemSys) (down : List Nat) (busy : Nat → Bool) (cls : TCls) (kind : MoveKind) (k : Nat) : MemSys :=
  if (m.demands.any fun d => d.key = k && d.kind = kind) then m
  else
    let (m', r) := m.serveOne down busy ⟨kind, k, cls, none, false⟩
    { m' with demands := m'.demands ++ r.toList }

/-- Raise the fill an access needs (R212, R215): a page that is moving is joined. -/
def MemSys.raiseFill (m : MemSys) (down : List Nat) (busy : Nat → Bool) (cls : TCls) (k : Nat) : MemSys :=
  if (m.page k).move.isSome || m.resident k then m
  else m.demand down busy cls (if (m.page k).loc.isNone then .zfill else .fill) k

/-- Wait for a page: raise the fill and record the wait. Answers the wait's number. -/
def MemSys.waitPage (m : MemSys) (down : List Nat) (busy : Nat → Bool) (cls : TCls) (k now : Nat)
    (timed : Bool) : MemSys × Nat :=
  let id := m.nextWait
  let m := { m with waits := SMap.set m.waits id ⟨k, cls, now, timed, none⟩, nextWait := id + 1 }
  (m.raiseFill down busy cls k, id)

/-- Give every wait on a page its outcome. -/
def MemSys.wake (m : MemSys) (k : Nat) (st : Status) : MemSys :=
  { m with waits := m.waits.mapV fun _ w => if w.key = k && w.res.isNone then { w with res := some st } else w }

/-- A retirement takes effect: the frame leaves the tier (R227). -/
def MemSys.retireFrame (m : MemSys) (t f : Nat) : MemSys :=
  let m := { m with retiring := m.retiring.filter (· ≠ (t, f)) }
  if t = 1 then { m with retired1 := m.retired1 ++ [f] } else { m with retired2 := m.retired2 ++ [f] }

/-- Frames that a movement frees go to waiting demands. A frame being retired that holds no page any more leaves service;
one whose page has come to rest starts its move (R227). -/
def MemSys.settle (m : MemSys) (down : List Nat) (busy : Nat → Bool) : MemSys :=
  let m := m.serve down busy
  m.retiring.foldl (fun m x =>
    if !(m.used x.1).contains x.2 then m.retireFrame x.1 x.2
    else
      match m.pages.findKey? fun _ p => decide (p.loc = some (placeOf x.1 x.2)) && p.move.isNone with
      | some k => m.demand down busy .backfill .retire k
      | none => m) m

/-- After a page has come to rest: waits on it are over when it is resident; otherwise their fill is raised again
(Table 7.9). -/
def MemSys.rest (m : MemSys) (down : List Nat) (busy : Nat → Bool) (k : Nat) : MemSys :=
  if m.resident k then m.wake k .ok
  else
    match m.waits.find? fun w => w.2.key = k && w.2.res.isNone with
    | some w => m.raiseFill down busy w.2.cls k
    | none => m

/-- Errors that a movement of a page meets: corrected errors of its source, words of the source that stay uncorrectable
after the re-read (R221), and words that arrive poisoned, from a path that fails after three resends at a `hop` (R223) or,
where there is none, in a poisoned completion of host memory (R215). -/
structure PageErr where
  ce : Nat
  ue : List Nat
  bad : List Nat
  hop : Option Nat
deriving DecidableEq, Repr

/-- How a fill ends (R215, R225). -/
inductive FillEnd where
  /-- copied, with words that arrive poisoned -/
  | copied (ws : List Nat)
  /-- the backing page's tag fails: every word poisoned (R225) -/
  | tagFail
  /-- the source read fails with this status (R449) -/
  | failed (st : Status)
deriving DecidableEq, Repr

/-- Outcome of a fill's source read and tag check (R215, R225), as the commands give it. -/
inductive FillRes where
  | copied (e : PageErr)
  | tagFail
  | failed (st : Status)
deriving DecidableEq, Repr

/-- Add words to a list of poisoned words. -/
def addWords (l ws : List Nat) : List Nat := l ++ (ws.filter fun w => !l.contains w)

/-- Poison words of a page (R222). -/
def Page.poisonWords (p : Page) (ws : List Nat) : Page := { p with poison := addWords p.poison (ws.map (· % 32768)) }

/-- A fill or zero-fill completes (R214, R215). -/
def MemSys.fillDone (m : MemSys) (down : List Nat) (busy : Nat → Bool) (k : Nat) (r : FillEnd) : MemSys :=
  let p := m.page k
  match p.move with
  | some v =>
    if v.kind = .fill ∨ v.kind = .zfill then
      match r with
      | .failed st =>
        if v.kind = .zfill then m
        else ((m.setPage k { p with move := none }).wake k st).settle down busy
      | _ =>
        let t := v.dst.tier
        let words := match r with
          | .copied ws => ws
          | .tagFail => List.range 32768
          | .failed _ => []
        let p' : Page := { p.poisonWords words with loc := some v.dst, move := none, age := 0 }
        let m := (m.setPage k p').setCnt t fun c =>
          { c with fills := c.fills + 1, zfills := if v.kind = .zfill then c.zfills + 1 else c.zfills }
        let m := if r = .tagFail then m.setCnt 3 fun c => { c with ue := satInc c.ue } else m
        (m.rest down busy k).settle down busy
    else m
  | none => m

/-- The demands for which a page was evicted come first: they take the place it frees (R216 step 3). -/
def MemSys.favour (m : MemSys) (k : Nat) : MemSys :=
  { m with demands := (m.demands.filter fun d => d.victim = some k) ++ m.demands.filter fun d => d.victim ≠ some k }

/-- An eviction lands (R213, R217), with words that arrive poisoned: the page keeps its age; a backing page counts its
write (R225). -/
def MemSys.evictDone (m : MemSys) (down : List Nat) (busy : Nat → Bool) (k : Nat) (bad : List Nat) : MemSys :=
  let p := m.page k
  match p.move with
  | some v =>
    if v.kind = .evict then
      let m := m.setPage k { p.poisonWords bad with loc := some v.dst, move := none, age := v.age }
      let m := match p.loc with
        | some l => m.setCnt l.tier fun c => { c with evicts := c.evicts + 1 }
        | none => m
      let m := match v.dst with
        | .bk b => { m with bkWrites := SMap.modD m.bkWrites b 0 (· + 1) }
        | _ => m
      ((m.favour k).settle down busy).rest down busy k
    else m
  | none => m

/-- The move out of a retiring frame lands (R227), with words that arrive poisoned. The page keeps the age it had when the
move began: DESIGN CHOICE, since R213 names fills and evictions only. -/
def MemSys.retireMoveDone (m : MemSys) (down : List Nat) (busy : Nat → Bool) (t f : Nat) (bad : List Nat) : MemSys :=
  match m.pages.findKey? fun _ p =>
      decide (p.loc = some (placeOf t f)) && (match p.move with | some v => decide (v.kind = .retire) | none => false) with
  | none => m
  | some k =>
    let p := m.page k
    match p.move with
    | none => m
    | some v =>
      let m := m.setPage k { p.poisonWords bad with loc := some v.dst, move := none, age := v.age }
      ((m.retireFrame t f).rest down busy k).settle down busy

/-- A frame becomes due for retirement (R227): a frame that holds no page retires at once. -/
def MemSys.dueRetire (m : MemSys) (down : List Nat) (busy : Nat → Bool) (t f : Nat) : MemSys :=
  if (m.barred t).contains f then m
  else
    let m := { m with retiring := m.retiring ++ [(t, f)] }
    if (m.used t).contains f then m.settle down busy else m.retireFrame t f

/-- 24 hours in ns. -/
def day24 : Nat := 86400000000000

/-- A corrected error in a frame: CE, and the frame's 24-hour count (R221, R227). -/
def MemSys.frameCe (m : MemSys) (down : List Nat) (busy : Nat → Bool) (t f now : Nat) : MemSys :=
  let m := m.setCnt t fun c => { c with ce := satInc c.ce }
  let ts := ((m.ceTimes.getD (t * 2 ^ 21 + f) []).filter fun x => decide (now < x + day24)) ++ [now]
  let m := { m with ceTimes := SMap.set m.ceTimes (t * 2 ^ 21 + f) ts }
  if ts.length ≥ 8 then m.dueRetire down busy t f else m

/-- An uncorrectable word of a page: UE, poison, and the frame's retirement (R221, R227). -/
def MemSys.wordUe (m : MemSys) (down : List Nat) (busy : Nat → Bool) (k w : Nat) : MemSys :=
  let p := m.page k
  match p.loc with
  | some l =>
    let m := m.setPage k { p with poison := addWords p.poison [w % 32768] }
    let m := m.setCnt l.tier fun c => { c with ue := satInc c.ue }
    if l.tier = 3 then m else m.dueRetire down busy l.tier l.idx
  | none => m

/-- POISON of Table 7.13: words now poisoned in a tier. -/
def MemSys.poisonCnt (m : MemSys) (t : Nat) : Nat :=
  (m.pages.map fun kp => match kp.2.loc with | some l => if l.tier = t then kp.2.poison.length else 0 | none => 0).sum

/-- Pages committed to all objects, C of R208. -/
def MemSys.committed (m : MemSys) : Nat := (m.objs.map fun o => o.2.pages).sum

/-- Pinned pages of a tier (R209); objects whose PIN is in progress count towards the limit when `all`. -/
def MemSys.pinned (m : MemSys) (t : Nat) (all : Bool) : Nat :=
  (m.objs.map fun o => if o.2.home = t && (o.2.pin || (all && o.2.pinning)) then o.2.pages else 0).sum

/-- The pin limit of R209 for `n` more pages. -/
def MemSys.pinFits (m : MemSys) (t n : Nat) : Bool := decide (m.pinned t true + n ≤ m.frames t * 3 / 4)

/-- Base of a window in pages: T1 at 0, T2 at 0x0200_0000_0000. -/
def windowPage (t : Nat) : Nat := if t = 1 then 0 else 0x100000
/-- Pages of a window. -/
def windowPages (t : Nat) : Nat := tierFrames t

/-- The page of a context's object that holds a local address of the T1 or T2 window (R198, R202). An object being
released is found only by an access in flight, `fly` (R210). -/
def MemSys.find (m : MemSys) (fly : Bool) (ctx a : Nat) : Option Nat :=
  let pg := a / pageSize
  (m.objs.find? fun o => decide (o.2.ctx = ctx) && decide (o.2.base ≤ pg) && decide (pg < o.2.base + o.2.pages)
      && (fly || !o.2.releasing)).map fun o => pageKey o.1 (pg - o.2.base)

/-- Every byte of `[a, a + n)` lies in objects of the context (R202): checked page by page. -/
def MemSys.covered (m : MemSys) (ctx a n : Nat) : Bool :=
  n = 0 || (List.range ((a + n - 1) / pageSize - a / pageSize + 1)).all fun i => (m.find false ctx (a + i * pageSize)).isSome

/-- Poisoned 64-byte words touched by `n` bytes at offset `o` of a page. -/
def Page.poisonIn (p : Page) (o n : Nat) : List Nat :=
  p.poison.filter fun w => decide (64 * w < o + n) && decide (o < 64 * w + 64)

/-- Read bytes of a page (a ZERO page reads zeros). -/
def Page.read (p : Page) (o n : Nat) : List Byte := p.data.rdN o n

/-- Write bytes of a page: a word wholly covered loses its poison (R222), the age restarts (R213). -/
def Page.write (p : Page) (o : Nat) (bs : List Byte) : Page :=
  { p with
    data := p.data.wrN o bs
    poison := p.poison.filter fun w => !(decide (o ≤ 64 * w) && decide (64 * w + 64 ≤ o + bs.length))
    age := 0 }

/-- Outcome of an access to the T1 or T2 window. -/
inductive Access (α : Type) where
  /-- performed -/
  | done (x : α)
  /-- the page needs a fill first: its key -/
  | need (k : Nat)
  /-- outside every object of the context -/
  | out
deriving DecidableEq, Repr

/-- Read `n` bytes, within one page, of the T1 or T2 window: the bytes and the poisoned words met (R202, R212, R222). -/
def MemSys.readWin (m : MemSys) (fly : Bool) (ctx a n : Nat) : Access (MemSys × List Byte × List Nat) :=
  match m.find fly ctx a with
  | none => .out
  | some k =>
    let p := m.page k
    let o := a % pageSize
    if p.move.isSome then .need k
    else if p.loc.isNone then .done (m, p.read o n, [])
    else if m.resident k then .done (m.setPage k { p with age := 0 }, p.read o n, p.poisonIn o n)
    else .need k

/-- Write bytes, within one page, of the T1 or T2 window (R202, R212). -/
def MemSys.writeWin (m : MemSys) (fly : Bool) (ctx a : Nat) (bs : List Byte) : Access MemSys :=
  match m.find fly ctx a with
  | none => .out
  | some k =>
    if m.resident k then .done (m.setPage k ((m.page k).write (a % pageSize) bs)) else .need k

/-- Mark the 64-byte words that `n` bytes at a local address touch as poisoned (R222). -/
def MemSys.poisonWin (m : MemSys) (ctx a n : Nat) : MemSys :=
  match m.find true ctx a with
  | none => m
  | some k =>
    let p := m.page k
    let o := a % pageSize
    m.setPage k { p with poison := addWords p.poison ((List.range ((o + n - 1) / 64 - o / 64 + 1)).map (o / 64 + ·)) }

/-- Free every page of an object and the object itself (R210). -/
def MemSys.dropObj (m : MemSys) (h : Nat) : MemSys :=
  { m with objs := m.objs.erase h, pages := m.pages.keep fun k _ => keyHandle k != h }

/-- Pages of an object that hold a frame or backing page. -/
def MemSys.heldPages (m : MemSys) (h : Nat) : Nat :=
  (m.pages.filter fun kp => keyHandle kp.1 = h && kp.2.loc.isSome).length

/-- RES_PAGES and LOW_PAGES of Table 7.5. -/
def MemSys.resPages (m : MemSys) (h : Nat) : Nat :=
  (m.pages.filter fun kp => keyHandle kp.1 = h && m.resident kp.1).length
/-- Pages held below the home tier. -/
def MemSys.lowPages (m : MemSys) (h : Nat) : Nat :=
  (m.pages.filter fun kp => keyHandle kp.1 = h &&
    (match kp.2.loc, m.objs.get? h with | some l, some o => l.tier != o.home | _, _ => false)).length

/-- Every page age increments, saturating (R213). -/
def MemSys.ageTick (m : MemSys) : MemSys :=
  { m with pages := m.pages.mapV fun _ p => if p.loc.isSome then { p with age := satInc p.age } else p }

/-- The 32-byte placement record of an object as QUERY writes it (Table 7.5). -/
def MemSys.record (m : MemSys) (h : Nat) (o : Obj) : List Byte :=
  leBytes 4 h ++ leBytes 4 o.pages ++ leBytes 8 (o.base * pageSize)
    ++ leBytes 4 (o.aff * 256 + b2n o.pin * 32 + b2n o.skip * 4 + o.home) ++ leBytes 4 0
    ++ leBytes 4 (m.resPages h) ++ leBytes 4 (m.lowPages h)

/-! Accumulate-on-store (R228 to R231) -/

/-- One element of ACCSTORE: stored bits, and whether the stored sum saturates (R229). -/
def accElem (f : Fmt) (first : Bool) (d v : Nat) : Nat × Bool :=
  let i := fmtInfo f
  let r : Nat :=
    if first then v
    else
      match (decodeElem f d).add (decodeElem f v) with
      | .nan => i.nan
      | .inf n => b2n n * 2 ^ 15 + i.infMag.getD 0
      | .fin n m e =>
        let g := roundMag i.p i.qmin m e
        b2n n * 2 ^ 15 + (if g > i.maxMag then i.infMag.getD 0 else g)
  let bad := match decodeElem f r with | .fin _ _ _ => false | _ => true
  (r, bad)

/-- Read a statistics record from its 64 bytes. -/
def StatRec.ofBytes (bs : List Byte) : StatRec :=
  let n := fun (o k : Nat) => leNat ((bs.drop o).take k)
  ⟨n 0 4, n 4 4, n 8 8, toS 128 (n 16 16), n 32 16, n 48 16⟩

/-- A statistics record as 64 bytes. -/
def StatRec.bytes (r : StatRec) : List Byte :=
  leBytes 4 r.count ++ leBytes 4 r.nonfin ++ leBytes 8 r.elems ++ leBytes 16 (ofS 128 r.sumIn) ++ leBytes 16 r.sqIn
    ++ leBytes 16 r.sqOut

/-- Value of an H16 element in units of 2^-24, when finite. -/
def h16Units (v : Nat) : Option Int :=
  match decodeElem .h16 v with
  | .fin n m e => let x : Nat := m <<< (e + 24).toNat; some (if n then -(x : Int) else x)
  | _ => none

/-- Add one element to a record (R231). -/
def StatRec.add (r : StatRec) (final : Bool) (v d' : Nat) : StatRec :=
  let r := match h16Units v with
    | some x => { r with sumIn := r.sumIn + x, sqIn := r.sqIn + x.natAbs * x.natAbs, elems := r.elems + 1 }
    | none => { r with nonfin := min (r.nonfin + 1) 0xFFFFFFFF }
  match final, h16Units d' with
  | true, some y => { r with sqOut := r.sqOut + y.natAbs * y.natAbs }
  | _, _ => r

end Sys2Proof
end

