-- ==== Sys2Proof/Machine/FabState.lean ====
section
/-! DEFINITION. The state of the fabric domain (chapter 08): packets, flits, ports and their link layer, routing tables,
remote transactions, epochs and fences, the time protocol, and the collectives' instances. -/
namespace Sys2Proof

/-- What an operation on a scratchpad or a tier of this module meets (R220 to R223). -/
inductive OpRes where
  | ok
  /-- storage errors of a scratchpad read -/
  | spd (hw : List StoreErr)
  /-- corrected errors of a tier read, and the 64-byte words of the operation that stay uncorrectable after the re-read -/
  | tier (ce : Nat) (ue : List Nat)
  /-- 32-bit words of the operation that still fail parity after three resends at a hop -/
  | path (hop : Nat) (ws : List Nat)
deriving DecidableEq, Repr

/-- A packet: its 8 header words (Table 8.5), its payload and its 4-word trailer, the tag (R249, R251). A packet that has
not been sealed yet has no trailer. -/
structure Packet where
  hdr : List W32
  pay : List W32
  tag : List W32
deriving DecidableEq, Repr

/-- A word on a link: 32 data bits and the parity bit above them (R241). -/
abbrev LinkWord := BitVec 33

/-- A flit as a port's PHY delivers it: its 64 words, the codewords that the FEC corrected, and whether an uncorrectable
codeword overlaps it (R241, R243). -/
structure Flit where
  words : List LinkWord
  ce : Nat
  ue : Bool
deriving DecidableEq, Repr

/-- A packet that waits at an output port: the port it came in on, none where this module injects it, and its traffic
class. -/
structure TxPkt where
  pkt : Packet
  inPort : Option Nat
  cls : TCls
deriving DecidableEq, Repr

/-- A DATA flit held for replay: sequence number, the credits it returns, words 2 to 63, and the packets that end in it. -/
structure TxFlit where
  fseq : Nat
  cvc : Nat
  cred : Nat
  words : List W32
  pkts : List Packet
deriving DecidableEq, Repr

/-- Port states, Table 8.4. -/
inductive PortSt where
  | down | train | ident | up | retrain | failed | mismatch
deriving DecidableEq, Repr

/-- One fabric port. -/
structure Port where
  -- port table entry (Table 8.7)
  en : Bool
  kind : Nat
  peerPort : Nat
  peerDev : Nat
  state : PortSt
  /-- reference time at which the present state began -/
  since : Nat
  /-- lanes with light, bit per lane 0 to 4 -/
  light : BitVec 5
  spareInUse : Bool
  sparedLane : BitVec 2
  /-- from the last accepted IDENT -/
  seenDev : W16
  seenPort : BitVec 6
  replays : W32
  retrains : W16
  trainFails : W16
  parity : W32
  fecCe : W32
  fecUe : W32
  pktErr : W32
  /-- packets waiting to leave, by virtual channel, oldest first (R256) -/
  txWait : SMap (List TxPkt)
  /-- consecutive grants that passed a waiting channel over (R257) -/
  passed : SMap Nat
  /-- consecutive injection grants that passed a waiting traffic class over (R30): SLOT, JOB, BACKFILL -/
  injPassed : SMap Nat
  /-- the packet being sent, and its words that remain -/
  txCur : Option Packet
  txWords : List W32
  /-- next FSEQ to send -/
  txSeq : Nat
  /-- replay buffer, oldest first (R243, R244) -/
  txBuf : List TxFlit
  /-- a flit has been accepted since ACKSEQ last went out -/
  ackDue : Bool
  /-- buffer words freed here and not yet returned, by channel (Table 8.3) -/
  owed : SMap Nat
  /-- the peer has been given credits for the whole receive buffer (R256) -/
  primed : Bool
  /-- next FSEQ expected -/
  rxSeq : Nat
  /-- words of a packet not yet complete -/
  rxPart : List W32
  /-- packets received and not yet handled -/
  rxPkts : List Packet
  /-- consecutive NAKs received for one FSEQ -/
  nakSeq : Nat
  nakRun : Nat
  /-- failed attempts of the present training -/
  attempts : Nat
  /-- times of entries to RETRAIN -/
  retrainAt : List Nat
  /-- time of the last IDENT received -/
  identAt : Nat
  /-- credits returned by the peer, by channel (R256) -/
  credits : SMap Nat
  -- DEV_PORT_MARGIN and DEV_PORT_HEALTH (Table 12.11)
  margin : List (BitVec 8)
  score : W16
  cwRate : W32
  /-- corrected codewords since the last measurement (R384) -/
  cwNow : W32
  /-- the score stands at or above 4,096 and has not fallen below 2,048 (R384) -/
  warned : Bool
  /-- held in FAILED until a BIST of it passes (R434) -/
  bistBad : Bool
deriving DecidableEq, Repr

/-- A local table entry (Table 8.7), every field as loaded. -/
structure LocalEnt where
  v : Bool
  port : BitVec 6
  av : Bool
  alt : BitVec 5
deriving DecidableEq, Repr

/-- A group table entry (Table 8.8), every field as loaded. -/
structure GroupEnt where
  v : Bool
  gw0 : BitVec 5
  gk0 : BitVec 4
  v1 : Bool
  gw1 : BitVec 5
  gk1 : BitVec 4
  av0 : Bool
  via0 : BitVec 9
  av1 : Bool
  via1 : BitVec 9
deriving DecidableEq, Repr

/-- What waits for a remote transaction's response. -/
inductive TxnFor where
  /-- piece `k` of descriptor `id` -/
  | piece (id k : Nat)
  /-- a remote TNG.PUSH of a tile (logical ID); `pc` is the instruction -/
  | push (tile pc : Nat)
deriving DecidableEq, Repr

/-- A remote transaction in flight (R259, R260). -/
structure Txn where
  dst : Nat
  ctx : Nat
  port : Nat
  who : TxnFor
  since : Nat
deriving DecidableEq, Repr

/-- A fabric request served here that waits for a page fill or for room in a queue (R261, R262). -/
structure Served where
  pkt : Packet
  wait : Option Nat
  /-- tag of its read of host memory -/
  tag : Option Nat
  /-- what the storage and the paths do to it when it is performed -/
  res : OpRes
deriving DecidableEq, Repr

/-- Record of the last push appended for a producing tile of a queue (R262, R263): key of step and ordinal, or of the
serial. -/
structure PushRec where
  queue : Nat
  src : Nat
  tile : Nat
  hi : Nat
  lo : Nat
deriving DecidableEq, Repr

/-- Per-context fabric state (Table 8.17), kept over every reset but power-on. -/
structure FabCtx where
  epoch : W32
  /-- a load has set the epoch (R369, R382) -/
  set : Bool
  fenced : Bool
  drops : W16
  folds : W16
deriving DecidableEq, Repr

/-- A recorded fence. -/
structure Fence where
  ctx : Nat
  epoch : W32
  dev : Nat
deriving DecidableEq, Repr

/-- A collective group of the bitstream (R277). -/
structure CGroup where
  ctx : Nat
  rank : Nat
  members : List Nat
deriving DecidableEq, Repr

/-- Region record of a context (Table 11.5). -/
structure Region where
  scrPages : Nat
  latePages : Nat
  scratch : Nat
  late : Nat
  swap : Nat
deriving DecidableEq, Repr

/-- Key of an instance (R281). -/
structure InstKey where
  ctx : Nat
  cgrp : Nat
  tensor : Nat
  step : W32
deriving DecidableEq, Repr

/-- Collective operations (Table 8.10) but FENCE and EPOCHSET. -/
inductive CollOp where
  | reduce | allreduce | reducescatter | allgather | barrier | vote | permute | xfer
deriving DecidableEq, Repr

/-- Body of a COLL descriptor (Table 8.9). -/
structure CollBody where
  op : CollOp
  cgrp : Nat
  root : Nat
  ssp : Nat
  dsp : Nat
  src : Nat
  dst : Nat
  count : Nat
  fmt : Nat
  opr : Nat
  lateAge : Nat
  tensor : Nat
  deadline : Nat
  lens : Nat
deriving DecidableEq, Repr

/-- A byte with a mark that tells that it comes from a failing source word (R222). -/
abbrev MByte := Byte × Bool

/-- Bytes received from one rank for one instance: whether the rank has been given credit to send, byte ranges delivered,
SEGENDs not yet judged (segment, CRC, arrival time), segments whole and correct with their arrival times, and the segments
asked again. -/
structure InFlow where
  rank : Nat
  opened : Bool
  data : Mem
  got : List (Nat × Nat)
  pend : List (Nat × Nat × Nat)
  good : List (Nat × Nat)
  resends : List Nat
deriving DecidableEq, Repr

/-- Bytes this member sends to one rank: byte ranges still to send, ranges sent, segments whose SEGEND has gone, and how
many 256-byte blocks it may still send. -/
structure OutFlow where
  rank : Nat
  todo : List (Nat × Nat)
  sent : List (Nat × Nat)
  ended : List Nat
  credit : Nat
deriving DecidableEq, Repr

/-- A run of a permute's new elements on its way into the buffer (R294): the rank it came from, none for kept elements; its
first new element and their number; what is still to write, and where. -/
structure RingBlk where
  rank : Option Nat
  first : Nat
  count : Nat
  addr : Nat
  bytes : List MByte
deriving DecidableEq, Repr

/-- Phases of an instance on this member. -/
inductive InstPhase where
  /-- packets have come before the descriptor -/
  | early
  /-- reading SRC -/
  | load
  /-- exchanging -/
  | run
  /-- writing DST and the reports -/
  | write
  /-- over; kept while peers may ask for segments again (Table 8.13) -/
  | past
deriving DecidableEq, Repr

/-- One instance of a collective on this member. -/
structure Inst where
  key : InstKey
  /-- the descriptor, once issued -/
  desc : Option Nat
  body : Option CollBody
  phase : InstPhase
  /-- traffic class of its packets -/
  cls : TCls
  issueAt : Nat
  /-- old or shard lengths and new lengths, by rank -/
  lens : List (Nat × Nat)
  /-- SRC bytes read so far -/
  src : List MByte
  /-- a data error has been met (R158) -/
  err : Bool
  inn : List InFlow
  outs : List OutFlow
  /-- the outflow served last -/
  lastOut : Nat
  /-- the owner's accumulators have their place in the reduction scratch (R283) -/
  scr : Bool
  /-- this owner's shard has been reduced: its bytes, and its DETAIL -/
  result : Option (List MByte × W32)
  /-- writes still to make: space, address, bytes -/
  writes : List (Nat × Nat × List MByte)
  /-- status it will complete with -/
  status : Status
  /-- the deadline has been taken -/
  late : Bool
  /-- ARRIVE: rank, OVF, PSN -/
  arrived : List (Nat × Bool × Bool)
  detail : W32
  /-- permute: old elements not yet read or moved, new elements not yet granted -/
  unread : List (Nat × Nat)
  ungranted : List (Nat × Nat)
  /-- permute: elements to be written to their final places, and new elements written there -/
  ring : List RingBlk
  filled : List (Nat × Nat)
  /-- kept elements are free to move, and are on the ring -/
  kept : Bool
  /-- reissue of an instance that did not end OK or LATE (R281): completes POISONED -/
  reissue : Bool
  /-- word of rank 0's DECIDE, once it has come -/
  decided : Option W32
deriving DecidableEq, Repr

/-- A late segment held for the next reduction (R286). -/
structure LateSeg where
  key : InstKey
  rank : Nat
  seg : Nat
  /-- bytes of the shard it belongs to -/
  shard : Nat
  data : List Byte
  time : Nat
deriving DecidableEq, Repr

/-- A finished instance (R281): `good` when it ended OK or LATE; `shard` is the owner's shard in bytes for a
reduction, and `taken` the segments of it, with their ranks, that were included, held or dropped (Table 8.13). -/
structure DoneInst where
  key : InstKey
  good : Bool
  status : Status
  detail : W32
  shard : Option Nat
  taken : List (Nat × Nat)
deriving DecidableEq, Repr

/-- The fabric domain. -/
structure Fab where
  -- identity and tables
  idValid : Bool
  group : Nat
  pos : Nat
  sysid : W32
  ports : SMap Port
  locals : SMap LocalEnt
  groups : SMap GroupEnt
  /-- FAB_GLSTATE: usable links of the group -/
  glstate : List Nat
  -- counters of Table 8.15
  fenceRec : W16
  fenceFwd : W16
  fenceDrops : W32
  epochDrops : W32
  authDrops : W32
  unroutable : W32
  lateRsp : W32
  lateFolds : W32
  lateDrops : W32
  -- time protocol
  onBackup : Bool
  backup : BitVec 6
  primary : BitVec 6
  dmax : BitVec 12
  delay : W32
  invalid : W16
  valid : W16
  /-- outstanding TREQs: port and t1 -/
  treqs : SMap Nat
  /-- consecutive invalid exchanges on the primary -/
  badRun : Nat
  -- transactions
  seq : W32
  txns : SMap Txn
  served : List Served
  pushRecs : List PushRec
  /-- remote pushes of a tile in a step, with the step, by context × 2^15 + tile (R262) -/
  pushOrd : SMap (W32 × Nat)
  /-- push serials of contexts without a step group, by context × 2^15 + tile (R263) -/
  pushSerial : SMap Nat
  /-- serials saved at the start of a LAUNCH, by its entry and the tile (R263) -/
  serialSave : SMap Nat
  -- epochs and fences
  ctxs : SMap FabCtx
  fences : List Fence
  /-- recent fence keys with the time they were added (R268) -/
  fenceKeys : List (Fence × Nat)
  -- collectives
  cgroups : SMap CGroup
  insts : List Inst
  done : List DoneInst
  late : List LateSeg
  /-- regions of the contexts -/
  regions : SMap Region
  /-- late contributions dropped since the previous reduction of their tensor: instance and rank -/
  dropped : List (InstKey × Nat)
deriving DecidableEq, Repr

/-- A port at power-on (Table 8.16). -/
def Port.reset : Port where
  en := false
  kind := 0
  peerPort := 0
  peerDev := 0
  state := .down
  since := 0
  light := 0
  spareInUse := false
  sparedLane := 0
  seenDev := 0
  seenPort := 0
  replays := 0
  retrains := 0
  trainFails := 0
  parity := 0
  fecCe := 0
  fecUe := 0
  pktErr := 0
  txWait := []
  passed := []
  injPassed := []
  txCur := none
  txWords := []
  txSeq := 0
  txBuf := []
  ackDue := false
  owed := []
  primed := false
  rxSeq := 0
  rxPart := []
  rxPkts := []
  nakSeq := 0
  nakRun := 0
  attempts := 0
  retrainAt := []
  identAt := 0
  credits := []
  margin := [0, 0, 0, 0, 0]
  score := 0
  cwRate := 0
  cwNow := 0
  warned := false
  bistBad := false

/-- Fabric state of a context at power-on (Table 8.17). -/
def FabCtx.reset : FabCtx := ⟨0, false, false, 0, 0⟩

/-- The fabric domain at power-on (Tables 8.15 to 8.17). -/
def Fab.reset : Fab where
  idValid := false
  group := 0
  pos := 0
  sysid := 0
  ports := []
  locals := []
  groups := []
  glstate := []
  fenceRec := 0
  fenceFwd := 0
  fenceDrops := 0
  epochDrops := 0
  authDrops := 0
  unroutable := 0
  lateRsp := 0
  lateFolds := 0
  lateDrops := 0
  onBackup := false
  backup := 0
  primary := 0
  dmax := 0
  delay := 0
  invalid := 0
  valid := 0
  treqs := []
  badRun := 0
  seq := 0
  txns := []
  served := []
  pushRecs := []
  pushOrd := []
  pushSerial := []
  serialSave := []
  ctxs := []
  fences := []
  fenceKeys := []
  cgroups := []
  insts := []
  done := []
  late := []
  regions := []
  dropped := []

end Sys2Proof
end

