-- ==== Sys2Proof/Machine/Outputs.lean ====
section
/-! DEFINITION. What the block puts out, in order: the model's own trace of messages to the host, the fabric, host
memory and the management transports. Nothing reads it back. -/
namespace Sys2Proof

/-- One thing put out. -/
inductive Out where
  /-- a flit of a port: its 64 words with their parity bits (R241) -/
  | flit (port : Nat) (words : List LinkWord)
  /-- an MSI-X message -/
  | msix (vec : Nat)
  /-- the value that a Hearth processor's read of the FAB block returns (R56) -/
  | hearthRead (second : Bool) (off : Nat) (v : W32)
  /-- the value a host read returns -/
  | hostRead (bar off : Nat) (v : W64)
  /-- the bytes a BAR4 read returns -/
  | bar4 (off : Nat) (data : List Byte)
  /-- a read request to host memory -/
  | t3Read (tag addr n : Nat)
  /-- a write to host memory, poisoned or not -/
  | t3Write (addr : Nat) (data : List Byte) (ep : Bool)
  /-- a management response: command code, status, data -/
  | mgmt (cmd : Nat) (st : Status) (data : List Byte)
deriving DecidableEq, Repr

/-- An event record as its source reports it (Table 14.3). -/
structure EvRec where
  code : Nat
  skind : Nat
  sidx : Nat
  arg0 : W32
  arg1 : W64
deriving DecidableEq, Repr

end Sys2Proof
end

