-- ==== Sys2Proof/Machine/QueueState.lean ====
section
/-! DEFINITION. The state of contexts, queues, descriptors in progress and the tables a program load gives
(chapters 05, 06, 09, 10 and 11). -/
namespace Sys2Proof

/-- A rectangle record (Table 11.5): a partition's, or a launch group's with its context. -/
structure Rect where
  ctx : Nat
  die : Nat
  id : Nat
  col0 : Nat
  col1 : Nat
  row0 : Nat
  row1 : Nat
deriving DecidableEq, Repr

/-- DEV_CTX_FLT.STATE of a defined context (Table 12.13); an undefined context has no entry. -/
inductive CtxFlt where
  | run | faulted | suspect | held
deriving DecidableEq, Repr

/-- Who pre-empted a context (R335). -/
inductive Preempter where
  | host | sch
deriving DecidableEq, Repr

/-- A context the bitstream defines. -/
structure Ctx where
  part : Nat
  /-- launch group of the step group -/
  stepg : Option Nat
  /-- step number (R130) -/
  step : W32
  /-- reference time at which the present step began -/
  stepAt : Nat
  -- Table 6.13
  seed : W64
  lsExp : Int
  clean : W16
  grow : W16
  vote : Bool
  nrec : Nat
  lateFlags : W16
  lastResult : BitVec 2
  voted : Bool
  psn : Bool
  ovf : Bool
  voteStep : W32
  psnSkips : W16
  ovfSkips : W16
  -- Table 12.13
  flt : CtxFlt
  fltStatus : Status
  fltSource : Nat
  faults : W16
  resets : W16
  guilty : W16
  suspected : W16
  -- Table 10.10
  serve : Bool
  lbase : Nat
  lcount : Nat
  rq : Option Nat
  /-- index in the replacement queue of the first descriptor of the present switch -/
  rqBase : W32
  admVer : W16
  bstepVer : W16
  schErr : Status
  barrierErr : Bool
  swErr : Bool
  preempted : Option Preempter
  preempting : Option Preempter
  switching : Bool
  bstep : Bool
  /-- replayed since its last step completion (R154, R179) -/
  replaying : Bool
  /-- a slot admitted the batch step in progress: its entry while the table of that time is in effect, and the opening's time -/
  bstepSlot : Option (Option Nat × Nat)
  /-- the slot of the batch step in progress has closed: its closing time -/
  overSince : Option Nat
  replaced : Nat
  released : Nat
  bsteps : W32
  overruns : W16
  skips : W16
  maxOvr : W32
  poisoned : W16
  preempts : W16
  switches : W16
deriving DecidableEq, Repr

/-- A hardware queue (Tables 5.11 and 5.12). -/
structure Queue where
  bound : Bool
  ctx : Nat
  /-- KIND = 1: consumed by CTL.QPOP -/
  tileKind : Bool
  /-- PROD = 1: fed by TNG.PUSH -/
  tileProd : Bool
  tcls : Nat
  die : Nat
  tile : Nat
  tail : W32
  head : W32
  fetch : W32
  done : W32
  base : Nat
  vec : Nat
  rsz : Nat
  irqen : Bool
  enable : Bool
  lastErr : Status
  err : Bool
  /-- indices at or above DONE whose entries have completed -/
  fin : List W32
  /-- a fetch of entry FETCH waits for this page wait -/
  wait : Option Nat
  /-- the entry write of a push waits for this page wait -/
  pushWait : Option Nat
deriving DecidableEq, Repr

/-- Where a descriptor comes from: an entry of a queue, or TNG.EXEC of a logical tile at an instruction address. -/
inductive DescSrc where
  | queue (q : Nat) (idx : W32)
  | exec (tile pc : Nat)
deriving DecidableEq, Repr

/-- The common part of a descriptor (Table 5.4). -/
structure DescHdr where
  flags : Nat
  op : Nat
  cls : Nat
  tag : Nat
  ctx : Nat
  cplSem : Nat
  cplTile : Nat
  cplAddr : Nat
deriving DecidableEq, Repr

/-- A MOVE body (Table 5.7). -/
structure MoveBody where
  op : Nat
  ssp : Nat
  dsp : Nat
  src : Nat
  dst : Nat
  len : Nat
  rows : Nat
  sstride : Nat
  dstride : Nat
  aux : Nat
  aux2 : Nat
deriving DecidableEq, Repr

/-- What an operation in flight waits for. -/
inductive OpVia where
  /-- a scratchpad or tier of this module; with the page wait it holds, if any -/
  | local (wait : Option Nat)
  /-- a read request to host memory -/
  | t3 (tag : Nat)
  /-- a remote transaction -/
  | remote (seq : Nat)
  /-- a remote transaction not yet sent: its exit port is at its transaction limit (R259) -/
  | port
deriving DecidableEq, Repr

/-- State of one piece of a MOVE: its read, the data it holds, its write; `bad` are the offsets of bytes taken from a
failing source word (R222). -/
inductive PieceSt where
  | reading (via : OpVia)
  | have_ (data : List Byte) (bad : List Nat)
  | writing (data : List Byte) (bad : List Nat) (via : OpVia)
deriving DecidableEq, Repr

/-- One piece of a MOVE: at most 256 bytes of one row from one block to one block (R158). `plane` 1 is a row's scale
bytes for SKEW16. -/
structure Piece where
  row : Nat
  off : Nat
  plane : Nat
  n : Nat
  since : Nat
  st : PieceSt
deriving DecidableEq, Repr

/-- How far a MOVE has come. -/
structure MoveRun where
  die : Nat
  engine : Nat
  row : Nat
  off : Nat
  plane : Nat
  pieces : SMap Piece
  nextPiece : Nat
  /-- no further operation is issued (R158) -/
  stop : Bool
  /-- bytes written -/
  written : Nat
  /-- ACCSTORE with STAT: COUNT of its record has gained 1 (R231) -/
  counted : Bool
deriving DecidableEq, Repr

/-- An operation of a COLL in flight: where it goes. -/
structure CollOpn where
  via : OpVia
  sp : Nat
  addr : Nat
deriving DecidableEq, Repr

/-- How far a COLL has come on this module, apart from its instance: the engine that carries it, its step, the entries of
its length table read so far and whether one of them failed, its operation in flight, and the numerics record that a vote
has still to write (R183). -/
structure CollRun where
  die : Nat
  engine : Nat
  step : W32
  lens : List (Nat × Nat)
  lensErr : Bool
  op : Option CollOpn
  record : List Byte
deriving DecidableEq, Repr

/-- Grants of a Tongs engine (R158, R30): consecutive grants that passed a waiting class over, and the descriptor of each
class's last grant. -/
structure Engine where
  passed : SMap Nat
  last : SMap Nat
deriving DecidableEq, Repr

/-- State of a MEMCTL descriptor. -/
structure MemctlRun where
  op : Nat
  handle : Nat
  addr : Nat
  /-- page waits not yet over -/
  waits : List Nat
  /-- DEMOTE: pages still to land -/
  keys : List Nat
  /-- QUERY: bytes still to write -/
  bytes : List Byte
  /-- PREFETCH and DEMOTE: pages moved, for DETAIL -/
  count : Nat
deriving DecidableEq, Repr

/-- What a descriptor does. -/
inductive DescBody where
  /-- NOP, SIGNAL, STEPSET: nothing left to do -/
  | none
  /-- LAUNCH: entry, group, arguments; `left` are the logical tiles still running -/
  | launch (entry lgrp : Nat) (args : List W32) (left : List Nat) (ended : Nat)
  | move (b : MoveBody) (r : MoveRun)
  | atTime (t : Nat)
  | coll (b : CollBody) (r : CollRun)
  | memctl (r : MemctlRun)
deriving DecidableEq, Repr

/-- Life of a descriptor: a LAUNCH waiting for its tiles, in progress, ready for its completion actions. -/
inductive DescSt where
  | waiting | running | finished
deriving DecidableEq, Repr

/-- A descriptor that passed Table 5.5 and has not completed. -/
structure Desc where
  src : DescSrc
  hdr : DescHdr
  body : DescBody
  st : DescSt
  status : Status
  detail : W32
  /-- LAUNCH: taken next in the round robin, so that it reserves its tiles (R143) -/
  chosen : Bool
  /-- LAUNCH: an overflow or poison skip happened on its tiles (R184) -/
  skip : Option Status
  /-- LAUNCH of a serving context: it was in progress when its context's PSN flag cleared at a step's end (R324) -/
  psn : Bool
  /-- LAUNCH: its fault status, first fault (R138) -/
  fault : Option Status
  /-- stage and role it was started by (R301) -/
  stage : Option (Nat × Nat)
  /-- the completion record waits for this page wait -/
  crecWait : Option Nat
deriving DecidableEq, Repr

/-- A semaphore signal on its way (R127, Table 5.3). -/
structure Signal where
  tile : Nat
  sem : Nat
  count : Nat
  /-- the source: CTL.SEMSIG of a logical tile at an address -/
  semsig : Option (Nat × Nat)
  /-- an ANV.PASS, vector instruction or TNG.EXEC of the same tile: its address -/
  own : Option Nat
  /-- tile that supplies it for the wait-for graph (R371) -/
  supplier : Option Nat
  ctx : Nat
  /-- MSI-X vector of the completion that it belongs to, sent once the signal is made (R148) -/
  irq : Option Nat
deriving DecidableEq, Repr

/-- A stage table entry and its registers (Tables 9.1 and 9.5). -/
structure Stage where
  qf : Option Nat
  qb : Option Nat
  qw : Option Nat
  qu : Option Nat
  /-- gate queue and PER -/
  gf : Option (Nat × Nat)
  gb : Option (Nat × Nat)
  /-- gate tile and semaphore -/
  gu : Option (Nat × Nat)
  quota : Nat
  lgrp : Nat
  ctx : Nat
  die : Nat
  /-- role of the started launch and its descriptor -/
  run : Option (Nat × Nat)
  tF : W32
  tB : W32
  tW : W32
  tU : W32
  tCredit : W32
  tInput : W32
  lastStep : W32
  minCap : W16
  /-- lowest CAP_COUNT of the launch group in the present step -/
  curMin : W16
  launches : W32
deriving DecidableEq, Repr

/-- A layer table entry and its state (Table 10.6, R339). -/
structure Layer where
  rcnt : Nat
  entrySem : Nat
  entryTile : Nat
  exitSem : Nat
  exitTile : Nat
  lv : W16
  failed : Bool
  released : Bool
  /-- exited by the batch step in progress -/
  exited : Bool
  /-- replaced in the present switch -/
  replaced : Bool
  /-- one of its replacement descriptors failed in the present switch -/
  bad : Bool
deriving DecidableEq, Repr

/-- Status of a slot of the table in effect (Table 10.9). -/
structure SlotStat where
  /-- reference time of the last actual opening -/
  open_ : Nat
  used : W32
  overruns : W16
  skips : W16
  empty : W16
  bfpre : W16
deriving DecidableEq, Repr

/-- Who holds a slot partition (R315, R321, R322). -/
inductive Holder where
  /-- a serving context: its slot, or a batch step that a slot admitted -/
  | slot (c : Nat)
  /-- the backfill context of an entry -/
  | backfill (i : Nat)
  | idle
deriving DecidableEq, Repr

/-- SCH on one partition: its holder, and an opening that waits (R321 steps 1 and 2). -/
structure SchPart where
  holder : Holder
  /-- an opening waiting for a batch step to end or a pre-emption to finish: entry, its time, its close -/
  opening : Option (Nat × Nat × Nat)
  /-- reference time of the last change of holder -/
  since : Nat
deriving DecidableEq, Repr

/-- The schedule block. -/
structure Sch where
  bankA : Mem
  bankB : Mem
  /-- bank in effect: false A, true B -/
  bank : Bool
  /-- effect time of the pending commit -/
  pend : Option Nat
  lastErr : Status
  err : Bool
  start : W64
  /-- last cycle boundary -/
  cycT : Nat
  cycles : W32
  /-- entries opened in this cycle -/
  opened : List Nat
  slots : SMap SlotStat
  parts : SMap SchPart
  layers : SMap Layer
deriving DecidableEq, Repr

/-- A queue at reset (Table 5.12). -/
def Queue.reset : Queue where
  bound := false
  ctx := 0
  tileKind := false
  tileProd := false
  tcls := 0
  die := 0
  tile := 0
  tail := 0
  head := 0
  fetch := 0
  done := 0
  base := 0
  vec := 0
  rsz := 4
  irqen := false
  enable := false
  lastErr := .ok
  err := false
  fin := []
  wait := none
  pushWait := none

/-- A slot's status at reset. -/
def SlotStat.reset : SlotStat := ⟨0, 0xFFFFFFFF, 0, 0, 0, 0⟩

/-- A layer entry of zeros. -/
def Layer.reset : Layer := ⟨0, 0, 0, 0, 0, 0, false, false, false, false, false⟩

/-- SCH at reset (Tables 10.9 and 10.10). -/
def Sch.reset : Sch where
  bankA := []
  bankB := []
  bank := false
  pend := none
  lastErr := .ok
  err := false
  start := 0
  cycT := 0
  cycles := 0
  opened := []
  slots := []
  parts := []
  layers := []

/-- A context as a load defines it, before its numerics and serving entries (R343). -/
def Ctx.fresh (part : Nat) (stepg : Option Nat) (now : Nat) : Ctx where
  part := part
  stepg := stepg
  step := 0
  stepAt := now
  seed := 0
  lsExp := 0
  clean := 0
  grow := 0
  vote := false
  nrec := 0
  lateFlags := 0
  lastResult := 0
  voted := false
  psn := false
  ovf := false
  voteStep := 0
  psnSkips := 0
  ovfSkips := 0
  flt := .run
  fltStatus := .ok
  fltSource := 0xFFFF
  faults := 0
  resets := 0
  guilty := 0
  suspected := 0
  serve := false
  lbase := 0
  lcount := 0
  rq := none
  rqBase := 0
  admVer := 0
  bstepVer := 0
  schErr := .ok
  barrierErr := false
  swErr := false
  preempted := none
  preempting := none
  switching := false
  bstep := false
  replaying := false
  bstepSlot := none
  overSince := none
  replaced := 0
  released := 0
  bsteps := 0
  overruns := 0
  skips := 0
  maxOvr := 0
  poisoned := 0
  preempts := 0
  switches := 0

end Sys2Proof
end

