-- ==== Sys2Proof/Machine/SysState.lean ====
section
/-! DEFINITION. The state of the load engine, faults and health, the Gauntlet, the Hearth, the host interface, power
and resets, the beat-rate monitors and reference time (chapters 02 and 11 to 17). -/
namespace Sys2Proof

/-! Reference time and beat-rate monitors (chapter 02) -/

/-- States of the reference time counter (Table 2.4). -/
inductive RtState where
  | free | acquire | locked | holdover
deriving DecidableEq, Repr

/-- The reference time counter (Tables 2.4 and 2.5). -/
structure RefTime where
  now : Nat
  st : RtState
  stepped : Bool
  /-- FAB_RT_OFFSET, signed -/
  offset : Int
  /-- consecutive valid messages within ±50 ns -/
  good : Nat
  /-- time of the last valid message -/
  lastValid : Nat
  /-- slewing still to do, in ns, and the idle ticks since the last -/
  slew : Int
  slewTick : Nat
  /-- monitor windows and Bellows readings whose time has come, as counts of their intervals (R44, R48) -/
  window : Nat
  bellows : Nat
  /-- the same for the other events that recur at multiples of an interval, by `Recur.key` -/
  marks : SMap Nat
  /-- frequency correction of the last valid exchange in LOCKED, in ppm, which HOLDOVER holds (R53) -/
  freq : Int
  /-- latched upper halves: host, Hearth (R56) -/
  hostLatch : W32
  hearthLatch : W32
  hearthLatch2 : W32
  /-- last value CTL.TIME gave a tile, by tile (R58) -/
  lastRead : SMap W64
deriving DecidableEq, Repr

/-- An event that recurs at every multiple of an interval of reference time. -/
inductive Recur where
  /-- the detector's scan, 1 ms (R373) -/
  | scan
  /-- decay of the scores, 3,600 s (R384) -/
  | decay
  /-- end of a rate-limiting window, 1 s (R423) -/
  | rate
  /-- end of a telemetry window of 100 ms, and of 1 s (R404) -/
  | quick
  | slow
  /-- timing measurement of a die, 24 h (R385) -/
  | timing (die : Nat)
  /-- optical measurement of a port, 1 s (R385) -/
  | optical (port : Nat)
deriving DecidableEq, Repr

/-- Its interval in ns. -/
def Recur.interval : Recur → Nat
  | .scan => 1000000 | .decay => 3600000000000 | .rate => 1000000000 | .quick => 100000000 | .slow => 1000000000
  | .timing _ => 86400000000000 | .optical _ => 1000000000

/-- Its key among RefTime.marks. -/
def Recur.key : Recur → Nat
  | .scan => 0 | .decay => 1 | .rate => 2 | .quick => 3 | .slow => 4 | .timing d => 8 + d | .optical p => 16 + p

/-- A tile's beat-rate monitor (Table 2.3). -/
structure Brm where
  cap : W16
  act : W16
  minCap : W16
  windows : W16
  belowFloor : Bool
  valid : Bool
deriving DecidableEq, Repr

/-! The load engine (chapter 11) -/

/-- A directory entry of a container (Table 11.2). -/
structure SectDir where
  ty : Nat
  sver : Nat
  enc : Bool
  rsvd : Nat
  scope : Nat
  off : Nat
  len : Nat
  plen : Nat
  digest : List Byte
deriving DecidableEq, Repr

/-- An image record (Table 11.5). -/
structure ImgRec where
  grp : Bool
  id : Nat
  /-- offset of the record in its section -/
  off : Nat
  addr : Nat
  len : Nat
  rsvd : Bool
  data : List Byte
deriving DecidableEq, Repr

/-- What the check phase leaves in the staging buffer (R349): the contents of the sections but IMAGE in directory order,
by type, and what the apply phase and Table 11.10 ask of them. -/
structure Staged where
  full : Bool
  sects : List (Nat × List Byte)
  /-- scopes of the IMAGE sections, with their directory indices -/
  images : List (Nat × Nat)
  /-- the directory, whose entries the images are checked against, and NONCE -/
  dir : List Byte
  nonce : W64
  /-- contexts that the load names, but for NUMERICS and the serving entries -/
  named : List Nat
  /-- entries of TILECFG, NUMERICS and the serving entries of SCHEDULE, by what they name -/
  tiles : List (Nat × List Byte)
  nums : List (Nat × List Byte)
  serv : List (Nat × List Byte)
  hasSched : Bool
  /-- SHA-384 of header and directory -/
  id : List Byte
  /-- SHA-384 of the directory entries of the program sections, when it carries one -/
  prog : Option (List Byte)
deriving DecidableEq, Repr

/-- DEV_LOAD_STAT.STATE. -/
inductive LoadSt where
  | idle | check | apply
deriving DecidableEq, Repr

/-- The load engine (Table 11.11) and the tables a load leaves. -/
structure Load where
  addr : W64
  len : W64
  vec : Nat
  irqen : Bool
  st : LoadSt
  errSect : Nat
  frame : Bool
  program : Bool
  err : Bool
  lastErr : Status
  errOff : W32
  us : W32
  id : List Byte
  partials : W16
  fulls : W16
  since : Nat
  /-- ABI agreed when the load started (Table 15.8) -/
  abi : Nat
  /-- the retirement record when the load started (Table 11.10) -/
  record : List (Nat × Option Nat)
  staged : Option Staged
  progDigest : List Byte
  -- tables of the present load
  prects : List Rect
  lrects : List Rect
  mesh : SMap Nat
  /-- entries of the loaded REMAP section -/
  remapEnt : SMap Nat
deriving DecidableEq, Repr

/-! Faults and health (chapter 12) -/

/-- An incident (Table 12.2). -/
structure Incident where
  time : Nat
  rows : Nat
  tbin : Nat
  nbr : Nat
deriving DecidableEq, Repr

/-- Health of a physical tile (Table 12.14), kept by the Hearth. -/
structure Health where
  score : W16
  warned : Bool
  cause : Nat
  incidents : W16
  /-- last eight incidents, oldest first -/
  recent : List Incident
  /-- temperature bin and time of the incidents of the last 24 hours, oldest first (R361) -/
  alike : List (Nat × Nat)
  /-- times of corrected reads within 24 hours -/
  ces : List Nat
  marginValid : Bool
  drift : W16
deriving DecidableEq, Repr

/-- DEV_PART_STAT.STATE of a defined partition (Table 12.12). -/
inductive PartSt where
  | run | quench | hang | maint | degraded
deriving DecidableEq, Repr

/-- Handling of a hang (R374). -/
structure HangRun where
  /-- suspects still to take, ascending -/
  todo : List Nat
  /-- every suspect -/
  all : List Nat
  /-- the suspect being replayed and when its replay began -/
  cur : Option (Nat × Nat)
  /-- suspects that hang alone -/
  guilty : List Nat
  /-- the running quench ends the replay of the current suspect (R374 step 4) -/
  ending : Bool
deriving DecidableEq, Repr

/-- A partition. -/
structure Part where
  st : PartSt
  hangs : W16
  unexpl : W16
  lastHang : Option Nat
  quenches : W32
  hang : Option HangRun
  /-- why the present quench runs: SOURCE of Table 16.3, and its contexts -/
  quench : Option (Nat × List Nat)
  /-- tiles that have passed BIST since MAINT began, or have failed it and are due for retirement -/
  bistOk : List Nat
deriving DecidableEq, Repr

/-- A tile due for retirement (R361). -/
structure Due where
  ptile : Nat
  since : Nat
deriving DecidableEq, Repr

/-- A vertex of the wait-for graph (R370). -/
inductive Vtx where
  | sem (tile n : Nat)
  | queue (q : Nat)
  | tile (t : Nat)
  | stage (s : Nat)
  | disp (q : Nat)
deriving DecidableEq, Repr

/-- Margin of a die (DEV_DIE_VMARGIN), with the latest readings of its slowest tile at and above 4,916 and below it
(R385): supply in mV, count, time. -/
structure DieMargin where
  valid : Bool
  tbin : Nat
  vreq : W16
  above : Option (Nat × Nat × Nat)
  below : Option (Nat × Nat × Nat)
deriving DecidableEq, Repr

/-- Faults and health. -/
structure Flt where
  remoteMs : W16
  fillMs : W16
  replayMs : W16
  autoqMs : W16
  autoq : Bool
  toFill : W16
  toRemote : W16
  guilty : BitVec 8
  unexpl : BitVec 8
  confirmed : W16
  /-- retirement record: tile and the spare that stands in for it, in order of installation -/
  retired : List (Nat × Option Nat)
  due : List Due
  health : SMap Health
  margins : SMap DieMargin
  parts : SMap Part
  /-- cycles of the previous scan -/
  scan : List (List Vtx)
  /-- supplier history of a context's node (R371), newest first -/
  suppliers : List ((Nat × Vtx) × List Nat)
  /-- reference time at which a tile's present wait began, by physical tile -/
  waitAt : SMap Nat
  /-- agents whose wait ended since the previous scan -/
  ended : List Vtx
deriving DecidableEq, Repr

/-! The Gauntlet (chapter 13) -/

/-- SEC_STATE.STATE. -/
inductive SecSt where
  | unowned | ownedIdle | tenanted | handover | maintenance
deriving DecidableEq, Repr

/-- SEC_TDI.STATE. -/
inductive Tdi where
  | unlocked | locked | run | error
deriving DecidableEq, Repr

/-- An open SPDM session: the key that authenticated its requester, if any, its endpoint and its binding. Its roles
follow from the key (R388). -/
structure Session where
  key : Option (List Byte)
  eid : Nat
  sideband : Bool
deriving DecidableEq, Repr

/-- The last handover record (Table 13.9). -/
structure HandRec where
  tenancy : W32
  cause : Nat
  result : Nat
  start : Nat
  duration : W32
  tkey : W64
deriving DecidableEq, Repr

/-- The Gauntlet. -/
structure Sec where
  st : SecSt
  debugCount : W16
  tenancy : W32
  owner : Option (List Byte)
  maint : Option (List Byte)
  ofab : Option (List Byte)
  /-- previous owner fabric key and when it was replaced -/
  ofabPrev : Option (List Byte × Nat)
  tkey : Option (List Byte)
  lease : W64
  /-- tenant load key: public part, AES part -/
  tload : Option (List Byte × List Byte)
  tfab : Option (List Byte)
  tfabPrev : Option (List Byte × Nat)
  memKeys : Bool
  logKey : Bool
  ideKeys : Bool
  ideSecure : Bool
  fine : Bool
  tdi : Tdi
  challenge : W64
  /-- largest NONCE accepted under the owner key and the tenant load key -/
  ownerNonce : Option W64
  tenantNonce : Option W64
  debugOpen : Bool
  record : HandRec
  /-- a handover in progress: cause and acceptance time -/
  hand : Option (Nat × Nat)
  sessions : SMap Session
  nextSession : Nat
  /-- an EXIT_MAINT's warm reset is under way -/
  exiting : Bool
  /-- units that a failed step of R406 names, to be tested by BIST before EXIT_MAINT (R407): kind and index -/
  failedUnits : List (Nat × Nat)
deriving DecidableEq, Repr

/-! The Hearth (chapter 14) -/

/-- A committed event record (Table 14.3). -/
structure LogRec where
  ev : EvRec
  time : Nat
  seq : W32
  prio : Nat
  cls : Nat
  count : Nat
deriving DecidableEq, Repr

/-- A staged record (R423). -/
structure Staging where
  ev : EvRec
  time : Nat
  count : Nat
  /-- when it passes on -/
  due : Nat
deriving DecidableEq, Repr

/-- A source's token bucket: its level in 10^-9 tokens at a moment, and the records suppressed in the present window. -/
structure Bucket where
  level : Nat
  at_ : Nat
  supp : Nat
deriving DecidableEq, Repr

/-- Who holds a lock (HRT_LOCK_HOLDER.KIND) with its endpoint. -/
structure Lock where
  kind : Nat
  eid : Nat
  act : Nat
  scope : Nat
  /-- BIST: kind of the unit -/
  unit : Nat
deriving DecidableEq, Repr

/-- A BIST test running: unit, requester, start. -/
structure BistRun where
  kind : Nat
  idx : Nat
  /-- requested through HRT_BIST_REQ -/
  host : Bool
  since : Nat
deriving DecidableEq, Repr

/-- A firmware image of a slot. -/
structure FwImage where
  ver : W16
  svn : W16
  /-- digest that measurements report -/
  digest : List Byte
  valid : Bool
deriving DecidableEq, Repr

/-- A sensor reading. -/
structure Sensor where
  valid : Bool
  value : W16
deriving DecidableEq, Repr

/-- A margin sweep: die, present supply in mV, supply before it, start of the step. -/
structure Sweep where
  die : Nat
  mv : Nat
  was : Nat
  since : Nat
deriving DecidableEq, Repr

/-- A Hearth restart in progress. -/
inductive Restart where
  | none
  /-- lockstep error (R416) -/
  | lockstep
  /-- firmware activation of the other slot, with its start (R430) -/
  | activation (since : Nat)
  /-- power-on (R458) -/
  | power
deriving DecidableEq, Repr

/-- The Hearth. -/
structure Hrt where
  ready : Bool
  slotB : Bool
  imageA : FwImage
  imageB : FwImage
  fuseSvn : W16
  /-- reference time since which the running image has run without a restart -/
  upSince : Nat
  restart : Restart
  /-- records waiting in the hardware FIFO during a restart, with their times -/
  fifo : List (EvRec × Nat)
  alarm : W32
  seen : W32
  ring : List LogRec
  nextSeq : W32
  logSel : W32
  coalMs : W16
  rate : BitVec 13
  drops : List W32
  staging : List Staging
  buckets : List ((Nat × Nat) × Bucket)
  /-- an open LOG_DROP: when it opened and its four counts -/
  logDrop : Option (Nat × List Nat)
  hlogBase : W64
  hlogEn : Bool
  hlogVec : Nat
  hrsz : Nat
  hlogHead : W32
  hlogTail : W32
  hlogDrops : W32
  hlogQueue : List LogRec
  locks : List Lock
  lockStat : Status
  holder : Option Lock
  bists : List BistRun
  bistStat : Status
  plimOwner : Nat
  plimHost : Nat
  powerW : W16
  dieMv : SMap Nat
  bfPause : List Nat
  /-- a PLDM power limit that cannot be met (R51) -/
  overridden : Bool
  sensors : SMap Sensor
  sweeps : List Sweep
  /-- delivered quantised values by sensor number; 200 is module power, 300 + d the lowest CAP_COUNT of
  die d, 400 + d the core supply set of die d (R404) -/
  quant : SMap W16
  /-- lowest CAP_COUNT of each die in the present 1 s window -/
  capLow : SMap W16
  /-- the readings of the present windows, by the numbers of `quant`: their sum and how many they are (R404) -/
  sums : SMap (Int × Nat)
  floorLost : List Nat
deriving DecidableEq, Repr

/-! The host interface (chapter 15) -/

/-- A read of host memory in flight (R449): the descriptor and piece it is for, or none for a fabric request. -/
structure T3Read where
  who : Option (Nat × Nat)
  addr : Nat
  n : Nat
  since : Nat
deriving DecidableEq, Repr

/-- A BAR4 access that waits for a fill (R446, R447): offset, context and local address, length, bytes done so far with
what a read has got, a write's enabled bytes, the first status met, the page wait. -/
structure Bar4Wait where
  read : Bool
  off : Nat
  ctx : Nat
  addr : Nat
  n : Nat
  pos : Nat
  got : List Byte
  data : List (Option Byte)
  st : Option Status
  wait : Option Nat
  /-- what the storage and the paths do to it when it is performed -/
  res : OpRes
deriving DecidableEq, Repr

/-- An entry of the host-interface error log (Table 15.5). -/
structure ErrEnt where
  off : Nat
  bar : Nat
  write : Bool
  st : Status
deriving DecidableEq, Repr

/-- The host interface. -/
structure Hif where
  request : Nat
  agreed : Nat
  linkUp : Bool
  rate : Nat
  width : Nat
  flit : Bool
  /-- since when a link that was up has been down, until its timeout is taken (R456) -/
  downSince : Option Nat
  winCtx : Nat
  winEn : Bool
  winBase : Nat
  log2 : Nat
  errCount : W16
  errLast : Status
  errNext : Nat
  err : Bool
  errIrq : Bool
  errVec : Nat
  errLog : SMap ErrEnt
  /-- MSI-X table bytes, by offset from 0x8_0000; vector control resets to masked -/
  msix : SMap W32
  /-- vectors with their pending bit set -/
  pba : List Nat
  -- configuration space
  busMaster : Bool
  msixEn : Bool
  msixMask : Bool
  /-- programmed completion timeout in ns (Device Control 2) -/
  cplTmo : Nat
  /-- other writable configuration registers, by offset -/
  cfg : SMap W32
  t3 : SMap T3Read
  nextTag : Nat
  /-- requests held while the link is down (R456) -/
  held : List Out
  bar4 : List Bar4Wait
  remapSel : Nat
deriving DecidableEq, Repr

/-! Power and resets (chapters 16 and 17) -/

/-- DEV_PARK_CTL.STATE. -/
inductive ParkSt where
  | run | idle | deep | waking | entering
deriving DecidableEq, Repr

/-- A die's power and reset state. -/
structure Die where
  park : ParkSt
  /-- the park asked for while ENTERING is deep; while WAKING, the die wakes from deep-park -/
  deep : Bool
  /-- a die reset in progress: SOURCE of Table 16.3 -/
  rst : Option Nat
  /-- the trip that keeps the core rail off -/
  trip : Bool
  since : Nat
deriving DecidableEq, Repr

/-- Power of the 48 V domain. -/
inductive Dom where
  | off
  /-- powering up (Table 16.1) -/
  | rising
  | on
deriving DecidableEq, Repr

/-- Power, resets, lasers. -/
structure Pwr where
  /-- the standby rail is up -/
  standbyRail : Bool
  dom : Dom
  domSince : Nat
  /-- a standby request is held (R463), with its SOURCE of Table 16.3 -/
  standbyReq : Option Nat
  /-- the module trip latch (R472) -/
  latch : Bool
  /-- SOURCE to record at the next standby exit -/
  standbySrc : Nat
  /-- the present power-up follows a power-on -/
  powerOn : Bool
  /-- condition of R459 that the waiting Hearth has named in a record -/
  unmet : Option Nat
  /-- a device warm reset in progress: SOURCE -/
  warm : Option Nat
  warmSince : Nat
  dies : SMap Die
  /-- laser units present and those at their output limit -/
  lasers : List Nat
  lasersOk : List Nat
  /-- records of laser removals that wait for the 48 V domain (Table 17.7) -/
  laserRecs : List Nat
  -- Table 16.4
  new : Bool
  widest : Nat
  kind : Nat
  source : Nat
  arg : Nat
  time : Nat
  groups : Nat
  warmCnt : W16
  dieCnt : BitVec 8
  sbyCnt : BitVec 8
deriving DecidableEq, Repr

end Sys2Proof
end

