-- ==== Sys2Proof/Syntax.lean ====
section
/-! DEFINITION. The commands of the block: one constructor for each row of the opcode table, with the operands that
the row's sender or the environment brings. Tiles are named by logical tile ID, unless an operand says physical. -/
namespace Sys2Proof

/-- A host write to BAR0 or BAR2: offset within the BAR, bytes, byte enables, data, and whether it comes inside the IDE
stream with the T bit set (R388, R443); `precond` is what the environment finds of the preconditions of a BIST that the
write may request (R435). -/
structure HostAcc where
  bar2 : Bool
  off : Nat
  size : Nat
  be : Nat
  val : W64
  tee : Bool
  precond : Bool
deriving DecidableEq, Repr

/-- Requesters that read the reference time counter (R56): the host, and each processor of the Hearth's pair. -/
inductive RtReader where
  | host
  | hearth (second : Bool)
  /-- the same processor's read of FAB_RT_NOW_HI, which completes its pair -/
  | hearthHi (second : Bool)
deriving DecidableEq, Repr

/-- Counts of one monitor window: for each die the counts of its tiles, and physical tiles that differ (R44). -/
structure BrmWindow where
  dies : List (W16 × W16)
  tiles : List (Nat × W16 × W16)
deriving DecidableEq, Repr

/-- What the Bellows decides at a tick (R48 to R51): supply changes in mV of each die, and module input power
in W. -/
structure BellowsTick where
  deltas : List Int
  powerW : W16
deriving DecidableEq, Repr

/-- What a patrol pass finds in a frame: tier, frame, corrected errors, uncorrectable words (R221, R226). -/
structure ScrubHit where
  tier : Nat
  frame : Nat
  ce : Nat
  ue : List Nat
deriving DecidableEq, Repr

/-- A container as the load engine reads it (R340, R344): header, directory and signature block, and each section's stored
bytes in directory order; those of an IMAGE are not read in the check phase. -/
structure Container where
  hdr : List Byte
  dir : List Byte
  sig : List Byte
  sects : List (List Byte)
deriving DecidableEq, Repr

/-- How a read of host memory by the load engine fails (R449). -/
inductive HostErr where
  | unsupported
  | poisoned
  | timeout
deriving DecidableEq, Repr

/-- The status of a failed read (R449). -/
def HostErr.status : HostErr → Status
  | .unsupported => .denied
  | .poisoned => .parity
  | .timeout => .abandoned

/-- How the check phase's reading of the container ends: a host read fails, or it is read. -/
inductive CheckRead where
  | failed (e : HostErr)
  | read (c : Container)
deriving DecidableEq, Repr

/-- The apply phase's second reading: the stored bytes of the IMAGE sections in order, up to a read that fails. -/
structure ImageRead where
  sects : List (List Byte)
  fail : Option HostErr
deriving DecidableEq, Repr

/-- A remote operation that times out (R357). -/
inductive RemoteOp where
  /-- a transaction by sequence number -/
  | txn (seq : Nat)
  /-- an operation waiting for its port's transaction limit -/
  | piece (id k : Nat)
  /-- TNG.PUSH of a tile waiting for its port's transaction limit -/
  | push (tile : Nat)
  /-- VEC.SRST of a tile waiting for VOTED -/
  | srst (tile : Nat)
  /-- the result phase of a collective (R288, R290) -/
  | coll (id : Nat)
deriving DecidableEq, Repr

/-- A Gauntlet command (R393): its first word, its body, and the session it came in. -/
structure GReq where
  word : W32
  body : List Byte
  sess : Option Nat
deriving DecidableEq, Repr

/-- Who asks for BIST (R436): through HRT_BIST_REQ, or by the MCTP message of an endpoint. -/
inductive BistFrom where
  | host (tee : Bool)
  | mctp (eid : Nat)
deriving DecidableEq, Repr

/-- A requester on the management transports (R463, R472). -/
inductive MgmtFrom where
  | session (id : Nat)
  | sideband
  | other
deriving DecidableEq, Repr

/-- A firmware image offered for update (R429): the version and SVN of its header, all that its signature covers, and its
signature. The spec gives the header no layout (log entry 194). -/
structure FwOffer where
  ver : W16
  svn : W16
  body : List Byte
  sig : List Byte
deriving DecidableEq, Repr

/-- What the read of a ring entry meets: of a ring in host memory its 64 bytes, or the status with which the read fails
(R449); of a ring in T1 or T2, which is read from its pages, the errors of that read. -/
inductive Fetched where
  | bytes (b : List Byte)
  | failed (st : Status)
  | pages (res : OpRes)
deriving DecidableEq, Repr

/-- How a read of host memory completes (R449). -/
inductive T3Res where
  | data (bs : List Byte)
  | poisoned (bs : List Byte)
  | unsupported
deriving DecidableEq, Repr

/-- Conditions that trip a die (Table 17.3): which sensor. -/
inductive TripKind where
  | diode (sensor : Nat)
  | rail
deriving DecidableEq, Repr

/-- The commands. -/
inductive Instr where
  | registerWrite (a : HostAcc)
  | rtNowLoRead (who : RtReader) (tee : Bool)
  | brmMinClr (ptile : Nat) (tee : Bool)
  | brmWindowEnd (w : BrmWindow)
  | bellowsTick (b : BellowsTick)
  | rtHoldoverTimeout
  | anvPass (tile : Nat)
  | anvWeightLoad (tile : Nat) (hw : List StoreErr)
  | anvPassIssue (tile : Nat) (hw : List StoreErr)
  | anvRowLand (tile : Nat) (hw : List StoreErr) (errs : List (Nat × W32))
  | anvPassComplete (tile : Nat)
  | vecMap (tile : Nat)
  | vecSrst (tile : Nat)
  | vecSmv (tile : Nat)
  | vecGroupIssue (tile : Nat) (hw : List StoreErr)
  | srstVoteRelease (tile : Nat)
  | summaryDeposit (tile : Nat)
  | vecComplete (tile : Nat)
  | ctlNop (tile : Nat)
  | ctlEnd (tile : Nat)
  | ctlEndDrained (tile : Nat)
  | ctlBr (tile : Nat)
  | ctlSbr (tile : Nat)
  | ctlXset (tile : Nat)
  | ctlXadd (tile : Nat)
  | ctlLoop (tile : Nat)
  | ctlPfx (tile : Nat)
  | ctlSemsig (tile : Nat)
  | semSignalDeliver (idx : Nat)
  | ctlSemwait (tile : Nat)
  | ctlStep (tile : Nat)
  | stepComplete (ctx : Nat)
  | ctlTime (tile : Nat)
  | ctlQpop (tile : Nat) (host : Fetched)
  | tngExec (tile : Nat) (hw : List StoreErr)
  | tngPush (tile : Nat)
  | doorbellWrite (q : Nat) (tail : W32) (tee : Bool)
  | qEnable (q : Nat) (irqen : Bool) (tee : Bool)
  | qDisable (q : Nat) (irqen : Bool) (tee : Bool)
  | descNop (q : Nat) (host : Fetched)
  | descLaunch (q : Nat) (host : Fetched)
  | launchStart (id : Nat)
  | moveCopy (q : Nat) (host : Fetched)
  | moveFill (q : Nat) (host : Fetched)
  | moveSkew16 (q : Nat) (host : Fetched)
  | moveAccstore (q : Nat) (host : Fetched)
  | syncSignal (q : Nat) (host : Fetched)
  | syncAtTime (q : Nat) (host : Fetched)
  | atTimeExpire (id : Nat)
  | syncStepset (q : Nat) (host : Fetched)
  | tongsOperationIssue (id : Nat)
  | tongsOperationDone (id k : Nat) (res : OpRes)
  | descriptorComplete (id : Nat)
  | memctlPlace (q : Nat) (host : Fetched)
  | memctlRelease (q : Nat) (host : Fetched)
  | memctlPin (q : Nat) (host : Fetched)
  | memctlUnpin (q : Nat) (host : Fetched)
  | memctlPrefetch (q : Nat) (host : Fetched)
  | memctlDemote (q : Nat) (host : Fetched)
  | memctlQuery (q : Nat) (host : Fetched)
  | memctlBacking (q : Nat) (host : Fetched)
  | pageFillComplete (key : Nat) (res : FillRes)
  | pageEvictionComplete (key : Nat) (e : PageErr)
  | backgroundEvict (tier : Nat)
  | pageAgeTick
  | scrubPassStart (found : List ScrubHit)
  | scrubPeriodEnd
  | frameRetireMoveLanded (tier frame : Nat) (e : PageErr)
  | flitDataReceive (port : Nat) (fl : Flit)
  | flitNakReceive (port : Nat) (fl : Flit)
  | flitIdleReceive (port : Nat) (fl : Flit)
  | flitIdentReceive (port : Nat) (fl : Flit)
  | identSendTick (port : Nat)
  | identTimeout (port : Nat)
  | portTrainDone (port : Nat) (ok : BitVec 5)
  | portTrainTimeout (port : Nat)
  | portRetrainTimeout (port : Nat)
  | portLightLost (port : Nat) (lanes : BitVec 5)
  | portLightReturn (port : Nat) (lanes : BitVec 5)
  | packetForward (port : Nat) (p : Packet)
  | reqRead (port : Nat) (p : Packet) (res : OpRes)
  | reqWrite (port : Nat) (p : Packet) (res : OpRes)
  | reqPush (port : Nat) (p : Packet)
  | rspRdata (port : Nat) (p : Packet)
  | rspAck (port : Nat) (p : Packet)
  | collData (port : Nat) (p : Packet)
  | collSegend (port : Nat) (p : Packet)
  | collResend (port : Nat) (p : Packet)
  | collGrant (port : Nat) (p : Packet)
  | collCredit (port : Nat) (p : Packet)
  | collArrive (port : Nat) (p : Packet)
  | collDecide (port : Nat) (p : Packet)
  | collDeadlineExpire (id : Nat)
  | collReduce (q : Nat) (host : Fetched)
  | collAllreduce (q : Nat) (host : Fetched)
  | collReducescatter (q : Nat) (host : Fetched)
  | collAllgather (q : Nat) (host : Fetched)
  | collBarrier (q : Nat) (host : Fetched)
  | collVote (q : Nat) (host : Fetched)
  | collPermute (q : Nat) (host : Fetched)
  | collXfer (q : Nat) (host : Fetched)
  | collFence (q : Nat) (host : Fetched)
  | collEpochset (q : Nat) (host : Fetched)
  | fencePacket (port : Nat) (p : Packet)
  | fenceKeyAgeOut (ctx : Nat) (epoch : W32) (dev : Nat)
  | treqSendTick
  | timeTreq (port : Nat) (p : Packet)
  | timeTrsp (port : Nat) (p : Packet)
  | ctrlCread (port : Nat) (p : Packet)
  | ctrlCwrite (port : Nat) (p : Packet)
  | ctrlCrsp (port : Nat) (p : Packet)
  | lstateReceive (port : Nat) (p : Packet)
  | lstateSendTick
  | stageArbiterDecide (stage : Nat) (host : Fetched)
  | schCommit (tee : Bool)
  | schCommitEffect
  | slotOpen (entry : Nat)
  | slotClose (entry : Nat)
  | schPreempt (ctx : Nat) (tee : Bool)
  | preemptComplete (ctx : Nat)
  | schResume (ctx : Nat) (tee : Bool)
  | schSwitch (ctx : Nat) (ver : W16) (tee : Bool)
  | layerRelease (ctx : Nat)
  | loadStart (vec : Nat) (irqen : Bool) (tee : Bool)
  | loadAbort (vec : Nat) (irqen : Bool) (tee : Bool)
  | loadCheckDone (c : CheckRead)
  | loadComplete (r : ImageRead)
  | remoteTimeout (op : RemoteOp)
  | fillTimeout (wait : Nat)
  | retireRequest (ptile : W16) (tee : Bool)
  | autoqQuench (part : Nat)
  | autoqTimeout (part : Nat)
  | partitionQuench (part : Nat) (tee : Bool)
  | quenchComplete (part : Nat)
  | partitionResume (part : Nat) (tee : Bool)
  | contextReset (ctx : Nat) (tee : Bool)
  | dieFaultReset (die : Nat)
  | dieResetRequest (die : Nat) (tee : Bool)
  | dieResetComplete (die : Nat)
  | warmResetRequest (tee : Bool)
  | warmResetComplete
  | hangScan
  | replayTimeout (part : Nat)
  | healthDecay
  | timingMarginDaily (die : Nat)
  | opticalMarginSample (port : Nat) (margins : List (BitVec 8))
  | claim (r : GReq)
  | releaseOwner (r : GReq)
  | setOwnerFabric (r : GReq)
  | enrolTenant (r : GReq)
  | installGlove (r : GReq)
  | rotateFabric (r : GReq)
  | fabricPrevKeyExpire
  | grantHost (r : GReq)
  | handover (r : GReq)
  | handoverComplete (failed : List (Nat × List (Nat × Nat)))
  | enterMaint (r : GReq)
  | debugUnlock (r : GReq)
  | exitMaint (r : GReq)
  | setMaintKey (r : GReq)
  | getMeasurements (sess : Option Nat)
  | spdmKeyExchange (key : Option (List Byte)) (eid : Nat) (sideband : Bool)
  | ideKmKeyProg (sess : Option Nat) (stream : Nat)
  | lockInterface (sess : Option Nat)
  | startInterface (sess : Option Nat)
  | stopInterface (sess : Option Nat)
  | ideIntegrityFailure
  | quantWindowEnd (slow : Bool)
  | hearthLockstepError
  | hearthRestartDone
  | sensorSample (vals : List (Nat × W16))
  | alarmSeenClear (w : W32) (tee : Bool)
  | eventRecordSubmit (e : EvRec)
  | eventStageExpire (idx : Nat)
  | rateWindowEnd
  | logDropClose
  | hlogHeadWrite (v : W32) (tee : Bool)
  | hlogEntryWrite
  | ownerPowerLimitSet (sess : Option Nat) (watts : Nat)
  | fwRequestUpdate (sess : Option Nat) (img : FwOffer)
  | activateFirmware (sess : Option Nat)
  | fwActivationTimeout
  | svnRaise
  | lockTake (act : Nat) (scope : W16) (tee : Bool)
  | lockRelease (act : Nat) (scope : W16) (tee : Bool)
  | marginSweepStep (die : Nat)
  | bistRequest (who : BistFrom) (kind idx : Nat) (precond : Bool)
  | bistComplete (kind idx : Nat) (pass : Bool)
  | bar4Read (off n : Nat) (tee : Bool) (res : OpRes)
  | bar4Write (off : Nat) (bytes : List (Option Byte)) (tee : Bool) (res : OpRes)
  | bar4Resize (log2 : Nat)
  | abiNegotiate (request : Nat) (tee : Bool)
  | remapSelect (v : W32) (tee : Bool)
  | t3ReadCompletion (tag : Nat) (res : T3Res)
  | t3CompletionTimeout (tag : Nat)
  | msixUnmask (vec : Nat) (tee : Bool)
  | pcieConventionalReset
  | functionLevelReset
  | linkDown
  | linkDownTimeout
  | powerOnReset
  | domainPowerUp
  | powerUpComplete
  | parkIdle (die : Nat) (tee : Bool)
  | parkDeep (die : Nat) (tee : Bool)
  | parkWake (die : Nat) (tee : Bool)
  | parkWakeDone (die : Nat)
  | standbyEnter (tee : Bool)
  | computePowerStandby (who : MgmtFrom)
  | computePowerOn (who : MgmtFrom)
  | resetCauseClear (tee : Bool)
  | inputUndervoltage
  | inputDisconnect
  | dieTrip (die : Nat) (k : TripKind)
  | dieTripRelease (die : Nat)
  | moduleTrip (kind sensor : Nat)
  | standbyRailLoss
  | laserUnitRemoved (d : Nat)
  | laserUnitInserted (d : Nat)
  | laserReady (d : Nat)
  | linkUp (rate width : Nat) (flit : Bool)
  | parkEntryComplete (die : Nat)
  | scrubPassEnd
  | cycleBoundary
  | configSpaceWrite (off : Nat) (v : W32)
  | reservedOpcode (tile : Nat)
  | reservedDescriptorClass (q : Nat) (host : Fetched)
deriving DecidableEq, Repr

end Sys2Proof
end

