-- ==== Sys2Proof/Config.lean ====
section
/-! DEFINITION. What an implementation fixes and the spec does not state: opaque constants. Nothing in Lean can
evaluate them, so a statement about them holds whatever they are. -/
namespace Sys2Proof.Config

/-- The source of every free value: applied to the plain counter `State.free`, which the command that uses one
reads and advances. -/
opaque freeValue : Nat → BitVec 64

/-- Which of two zeros of unlike sign, both the largest or both the smallest result so far, MAX (`true`) or MIN keeps:
whether it takes the later. R102 has them compare equal. A function of the element's index and of the running lane
sums. -/
opaque laterZero : Bool → Nat → List (BitVec 32) → Bool

/-- DEV_SERIAL: the module's serial number (Table 15.6). -/
opaque serial : BitVec 64
/-- DEV_ARCH_GEN.STEPPING: silicon stepping of the compute dies (Table 15.6). -/
opaque stepping : BitVec 8

/-! Keys that Gauntlet ROM and the fuses hold, and the identifier of the device identity key (R411, R429, Table 13.1). -/

/-- The Sukeden service key. -/
opaque serviceKey : List (BitVec 8)
/-- The Sukeden firmware key. -/
opaque firmwareKey : List (BitVec 8)
/-- The DIK identifier, whose form the spec does not give. -/
opaque dikId : List (BitVec 8)

/-! Fabric links -/

/-- Words that the receive buffer of a link has for a channel beyond one packet of the largest size; the spec gives no size
(R256). -/
opaque linkRoom : Nat → Nat

/-! The configuration space: the spec leaves its layout to PCIe Base 6.0 (R399, R449, R450). -/

/-- Offset of the MSI-X capability's first word, with enable and function mask. -/
opaque msixCap : Nat
/-- Offset of Device Control 2's word. -/
opaque devControl2 : Nat
/-- The registers, by offset, that TDISP locks (R399). -/
opaque tdispLocks : Nat → Bool
/-- Completion timeout in ns for a value of Device Control 2's field; the spec gives the value at reset alone (R449). -/
opaque cplTimeout : Nat → Nat

/-! Timing (R385) -/

/-- CAP_COUNT of a physical tile at 720 mV and bin 13, as recorded at manufacture. -/
opaque madeCap : Nat → BitVec 16

end Sys2Proof.Config
end

