-- ==== Sys2Proof/Machine/Anvil.lean ====
section
/-! DEFINITION. The Anvil of one tile (chapter 03): the checks of ANV.PASS, weight loads and checksum weights, the
exact value of every output, the landing of rows, the checksum comparison and completion. -/
namespace Sys2Proof

/-- Elements per cell of a format (Table 3.1). -/
def fmtPerCell : Fmt → Nat
  | .w16 | .h16 => 1
  | .q8e4 | .q8e5 | .i8 => 2
  | .q4 => 4
  | .f32 => 1

/-- MAC mode of a format: 0 16-bit, 1 8-bit float, 2 8-bit integer, 3 4-bit; none for F32 (Table 3.1). -/
def macMode : Fmt → Option Nat
  | .w16 | .h16 => some 0
  | .q8e4 | .q8e5 => some 1
  | .i8 => some 2
  | .q4 => some 3
  | .f32 => none

/-- The pair is a row of Table 3.1. -/
def macPair (a w : Fmt) : Bool := (macMode a).isSome && decide (macMode a = macMode w)

/-- Bytes of a weight block image (R68). -/
def imageBytes (w : Fmt) : Nat := if w = .q4 then 544 else if fmtScaled w then 528 else 512

/-- A pass whose output M × N is empty (R74). -/
def AnvPass.noop (p : AnvPass) : Bool := p.m = 0 || p.n = 0

/-- A pass that reads weights and activations: K, M and N above zero. -/
def AnvPass.real (p : AnvPass) : Bool := !p.noop && p.k != 0

/-- Lines of the activation block (R65, R66). -/
def AnvPass.lines (p : AnvPass) : Nat := if p.flat then p.m else p.m + 15

/-- The checks of Table 3.4 in its order. `flatOk`: the logical tile is a broadcast tile (R23, R24). -/
def anvCheck (t : Tile) (flatOk : Bool) (w : Nat) : Except Status AnvPass :=
  let k := nbits w 16 7
  let n := nbits w 23 5
  let m := nbits w 28 10
  let accRow := nbits w 38 9
  let acc := nbit w 47
  let neww := nbit w 48
  let flat := nbit w 49
  let sig := nbit w 50
  let sem := nbits w 51 7
  let aA := nbits w 64 18
  let wA := nbits w 82 18
  let sA := nbits w 100 18
  match fmtOf (nbits w 8 4), fmtOf (nbits w 12 4) with
  | some af, some wf =>
    let p : AnvPass := ⟨m, n, k, accRow, aA, wA, sA, acc, neww, flat, sig, sem, af, wf⟩
    if nbits w 58 6 != 0 || nbits w 118 10 != 0 || (!fmtScaled af && sA != 0) || (!neww && wA != 0)
        || (!sig && sem != 0) then .error .rsvdSet
    else if decide (m > 512) || decide (n > 16) || !macPair af wf || decide (k > 16 * fmtPerCell af)
        || aA % 32 != 0 || wA % 32 != 0 || sA % 16 != 0 || decide (accRow + m > 512) then .error .range
    else if decide (aA + 32 * p.lines > spdSize) || (neww && decide (wA + imageBytes wf > spdSize))
        || (fmtScaled af && decide (sA + 16 * p.lines > spdSize)) then .error .range
    else if flat && !flatOk then .error .range
    else if p.real && !neww && decide (t.anvShape ≠ some (wf, k, n)) then .error .range
    else .ok p
  | _, _ => .error .rsvdSet

/-- Passes accepted and not yet issued. -/
def Tile.anvWaiting (t : Tile) : Nat := (t.anvJobs.filter fun j => !j.issued).length

/-- The Anvil takes up to four passes ahead of the one it is issuing. -/
def Tile.anvFull (t : Tile) : Bool := decide (t.anvWaiting ≥ 5)

/-- Accept a checked pass. A no-op and a pass with K = 0 need no load and no issue slot (R74, R75). -/
def Tile.anvAccept (t : Tile) (p : AnvPass) (pc : Nat) : Tile :=
  { t with
    anvJobs := t.anvJobs ++ [⟨p, pc, t.seq, !(p.real && p.neww), !p.real, [], 0, 0, 0, 0, t.tol, t.abftAct⟩]
    anvShape := if p.real && p.neww then some (p.wfmt, p.k, p.n) else t.anvShape
    seq := t.seq + 1 }

/-- A rejected ANV.PASS: LAST_ERR and REJECT (R73). -/
def Tile.anvRejectWith (t : Tile) (e : Status) : Tile := { t with anvLastErr := e, anvReject := true }

/-- Exact value of element `j` of a 16-bit slot, with its scale byte when the format carries one (R62, R163). -/
def slotVal (f : Fmt) (slot j scale : Nat) : Val :=
  let b := nbits slot (fmtBits f * j) (fmtBits f)
  if fmtScaled f then decodeScaled f b scale else decodeElem f b

/-- Element k of column n of an image, with its scale (R68). -/
def WBlock.val (b : WBlock) (k n : Nat) : Val :=
  let e := fmtPerCell b.fmt
  let a := 32 * (k / e) + 2 * n
  let slot := (b.img.getD a 0#8).toNat + 256 * (b.img.getD (a + 1) 0#8).toNat
  slotVal b.fmt slot (k % e) (b.img.getD (512 + 16 * (k / 32) + n) 0#8).toNat

/-- Checksum weight of reduction index k (R69). -/
def WBlock.checkWeight (b : WBlock) (k : Nat) : W32 :=
  (List.range b.n).foldl (fun c n => rnd32 ((f32Val c).add (b.val k n))) f32Zero

/-- Read a weight block image and compute its checksum weights (R68, R69). -/
def Tile.readBlock (t : Tile) (p : AnvPass) : WBlock :=
  let b : WBlock := ⟨p.wfmt, p.k, p.n, t.spd.rdN p.wAddr (imageBytes p.wfmt), []⟩
  { b with ck := (List.range p.k).map b.checkWeight }

/-- Byte address of slot r of activation row m (R64 to R66). -/
def AnvPass.slotAddr (p : AnvPass) (m r : Nat) : Nat := p.aAddr + 32 * (if p.flat then m else m + r) + 2 * r

/-- Byte address of the scale of slot r of activation row m. -/
def AnvPass.scaleAddr (p : AnvPass) (m r : Nat) : Nat := p.sAddr + 16 * (if p.flat then m else m + r) + r

/-- The K activation elements of row m as exact values (R62 to R66). -/
def Tile.actRow (t : Tile) (p : AnvPass) (m : Nat) : List Val :=
  let e := fmtPerCell p.afmt
  (List.range p.k).map fun k =>
    let r := k / e
    slotVal p.afmt (t.rdLe (p.slotAddr m r) 2) (k % e)
      (if fmtScaled p.afmt then (t.spd.rd (p.scaleAddr m r)).toNat else 0)

/-- rnd32 in a cell: since a cell sum starts from +0.0, a zero is always +0.0 (R166). -/
def cellRnd (t : Val) : W32 := let r := rnd32 t; if f32IsZero r then f32Zero else r

/-- One column of cells: sixteen cells from array row 0 down, one rounding per cell (R63). `w k` is the weight of
reduction index k. -/
def cellSum (e : Nat) (a w : List Val) : W32 :=
  (List.range 16).foldl (fun p r =>
    let terms := ((a.drop (e * r)).take e).zip ((w.drop (e * r)).take e)
    cellRnd (terms.foldl (fun t x => t.add (x.1.mul x.2)) (f32Val p))) f32Zero

/-- Row m reads an uncorrectable scratchpad word (R220): any of its sixteen slots or their scales. -/
def Tile.rowUe (t : Tile) (p : AnvPass) (m : Nat) : Bool :=
  !t.spdUe.isEmpty && (List.range 16).any fun r =>
    t.spdUe.contains (p.slotAddr m r / 8) || (fmtScaled p.afmt && t.spdUe.contains (p.scaleAddr m r / 8))

/-- The pass's own contribution to row m and the row's check value (R63, R69). -/
def Tile.passRow (t : Tile) (p : AnvPass) (b : WBlock) (m : Nat) : AnvRow :=
  let e := fmtPerCell p.afmt
  let a := t.actRow p m
  { p := (List.range p.n).map fun n => cellSum e a ((List.range p.k).map fun k => b.val k n)
    c := cellSum e a (b.ck.map f32Val)
    ue := t.rowUe p m }

/-- Index of the first job that satisfies `f`. -/
def jobIdx {α : Type} (js : List α) (f : α → Bool) : Option Nat := js.findIdx? f

/-- A load is due: the first unissued pass needs a block that is not in the pending registers, every earlier pass has
issued (R70, R71), and the pending registers are free. -/
def Tile.anvLoadDue (t : Tile) : Option (Nat × AnvJob) :=
  match jobIdx t.anvJobs fun j => !j.issued with
  | none => none
  | some i =>
    match t.anvJobs[i]? with
    | some j => if !j.loaded && t.anvPending.isNone then some (i, j) else none
    | none => none

/-- The passes that the loss of job i's block takes with it: job i, and after it every pass that keeps the block, up
to the next pass that loads one of its own (R220). -/
def dropLost : List AnvJob → List AnvJob
  | [] => []
  | j :: js =>
    if j.pass.real && j.pass.neww then j :: js
    else if j.pass.real then dropLost js
    else j :: dropLost js

/-- ANV_WEIGHT_LOAD: read the image into the pending registers; an uncorrectable word discards the block, RESIDENT
becomes 0 and the tile program faults (R70, R220). -/
def Tile.anvLoad (t : Tile) : TStep :=
  match t.anvLoadDue with
  | none => (t, [])
  | some (i, j) =>
    let ue := t.spdUeIn j.pass.wAddr (imageBytes j.pass.wfmt)
    if ue = 0 then
      ({ t with anvPending := some (t.readBlock j.pass), anvJobs := listSet t.anvJobs i { j with loaded := true } }, [])
    else
      let (t', es) := t.countSpdUe ue
      ({ t' with
          anvJobs := t.anvJobs.take i ++ dropLost (t.anvJobs.drop (i + 1))
          anvActive := none
          anvShape := if (t.anvJobs.drop (i + 1)).any (fun k => k.pass.real && k.pass.neww) then t.anvShape else none },
        es ++ [.fault .parity j.pc])

/-- ANV_PASS_ISSUE: the first unissued pass, its block loaded, streams its rows; a new block moves into the active
registers (R63, R70, R71). -/
def Tile.anvIssue (t : Tile) : TStep :=
  match jobIdx t.anvJobs fun j => !j.issued with
  | none => (t, [])
  | some i =>
    match t.anvJobs[i]? with
    | none => (t, [])
    | some j =>
      let blk := if j.pass.neww then (if j.loaded then t.anvPending else none) else t.anvActive
      match blk with
      | none => (t, [])
      | some b =>
        let rows := (List.range j.pass.m).map (t.passRow j.pass b)
        let bad := (rows.filter (·.ue)).length
        let (t', es) := t.countSpdUe bad
        ({ t' with
            anvActive := some b
            anvPending := if j.pass.neww then none else t.anvPending
            anvJobs := listSet t.anvJobs i { j with issued := true, rows := rows } },
          if bad = 0 then [] else es ++ [.fault .parity j.pc])

/-- Rows a job still has to land. -/
def AnvJob.due (j : AnvJob) : Nat := if j.pass.noop then 0 else j.pass.m - j.landed

/-- The Anvil is issuing or draining a pass (R84). -/
def Tile.anvMoving (t : Tile) : Bool := t.anvJobs.any fun j => j.pass.real && j.issued && j.due != 0

/-- Sum of sixteen values by the pairwise tree of R82. -/
def treeSum : Nat → List W32 → List W32
  | 0, v => v
  | k + 1, v =>
    treeSum k ((List.range (v.length / 2)).map fun i => f32Add (v.getD (2 * i) 0) (v.getD (2 * i + 1) 0))

/-- The comparison of R82. `none`: not compared because a value is not finite; otherwise whether it mismatches. -/
def abftCompare (tol : Nat) (p : List W32) (c : W32) : Option Bool :=
  let v := p ++ List.replicate (16 - p.length) f32Zero
  let s := (treeSum 4 v).getD 0 0
  let d := f32Sub s c
  if p.any f32NonFinite || f32NonFinite c || f32NonFinite s || f32NonFinite d then none
  else
    let mx := p.foldl (fun a x => max a (f32Mag x)) 0
    let ex : Int := if mx < 0x800000 then -126 else (mx / 0x800000 : Nat) - 127
    -- |D| > 2^(E - TOL), both exact
    match f32Val d with
    | .fin _ m e =>
      let k := ex - tol
      let g := min e k
      some (decide (m <<< (e - g).toNat > 1 <<< (k - g).toNat))
    | _ => none

/-- ANV_ABFT_LAST as the register reads (Table 3.8). -/
def Tile.abftLast (t : Tile) : Nat := t.anvTbin.toNat * 2 ^ 27 + t.anvNbr.toNat * 2 ^ 23 + t.anvAccRow.toNat * 2 ^ 14

/-- A vector instruction has accesses to accumulator row `r` still to perform (R80). -/
def VecJob.touches (j : VecJob) (r : Nat) : Bool :=
  let lo := 64 * j.group
  let rest := j.op.count - lo
  let hit := fun (base : Nat) => overlaps (base + lo) rest (16 * r) 16
  (j.op.aloc = .acc && hit j.op.aAddr) || (j.op.bloc = .acc && hit j.op.b) || (j.op.dloc = .acc && hit j.op.dAddr)
    || (j.op.bloc = .scalar && j.bval.isNone && j.op.count != 0 && j.op.b / 16 = r)

/-- An earlier vector instruction still has to access row `r` (R80). -/
def Tile.rowHeldByVec (t : Tile) (seq r : Nat) : Bool := t.vecJobs.any fun j => decide (j.seq < seq) && j.touches r

/-- An earlier pass still has to land row `r` (R80). -/
def Tile.rowHeldByAnv (t : Tile) (seq r : Nat) : Bool :=
  t.anvJobs.any fun j =>
    decide (j.seq < seq) && j.due != 0 && decide (j.pass.accRow + j.landed ≤ r) && decide (r < j.pass.accRow + j.pass.m)

/-- Flip the bits a hardware error injects into the columns 0 to 15 and the check value 16 of a row. -/
def injectErr (r : AnvRow) (errs : List (Nat × W32)) : AnvRow :=
  errs.foldl (fun r e =>
    if e.1 = 16 then { r with c := r.c ^^^ e.2 }
    else { r with p := listSet r.p e.1 (r.p.getD e.1 0 ^^^ e.2) }) r

/-- Write one output row: `p`, added to the accumulator when ACC = 1; an uncorrectable accumulate-in element stops the
row's output. The second part counts those elements, the third tells of a non-finite output. -/
def Tile.writeRow (t : Tile) (acc : Bool) (row : Nat) (p : List W32) : Tile × Nat × Bool :=
  let bad := if acc then (t.accUe.filter fun e => decide (16 * row ≤ e) && decide (e < 16 * row + p.length)).length else 0
  if bad ≠ 0 then (t, bad, false)
  else
    let outs := (List.range p.length).map fun n =>
      let v := p.getD n 0
      if acc then f32Add (t.accRd (16 * row + n)) v else v
    ((List.range p.length).foldl (fun t n => t.accWr (16 * row + n) (outs.getD n 0)) t, 0, outs.any f32NonFinite)

/-- The empty sum of a pass with K = 0 (R75): +0.0 into columns 0 to N − 1 of every row, or nothing when ACC = 1. -/
def Tile.writeEmpty (t : Tile) (p : AnvPass) : Tile :=
  if p.acc then t
  else (List.range p.m).foldl (fun t m =>
    (List.range p.n).foldl (fun t n => t.accWr (16 * (p.accRow + m) + n) f32Zero) t) t

/-- The checksum comparison's consequences for one landed row (R82, R83), under the tolerance and the action that the
pass was accepted with (R86). -/
def Tile.abftRow (t : Tile) (j : AnvJob) (row : AnvRow) (r tbin nbr : Nat) : Tile × AnvJob × List TEff :=
  match abftCompare j.tol.toNat row.p row.c with
  | none => ({ t with anvSkipped := satInc t.anvSkipped, anvNonfinite := true }, j, [])
  | some false => (t, j, [])
  | some true =>
    let t := { t with
      anvMismatches := satInc t.anvMismatches, anvMismatch := true
      anvTbin := BitVec.ofNat 5 tbin, anvNbr := BitVec.ofNat 4 nbr, anvAccRow := BitVec.ofNat 9 r }
    let j := { j with
      mism := j.mism + 1
      tbin := if j.mism = 0 then tbin else j.tbin
      nbr := if j.mism = 0 then nbr else j.nbr }
    let ev : List TEff := [.event 0x0301 t.abftLast]
    if j.act = 1 then ({ t with psn := true }, j, ev ++ [.psn])
    else if j.act = 2 then (t, j, ev ++ [.incident j.mism j.tbin j.nbr, .fault .abftMismatch j.pc])
    else (t, j, ev)

/-- The row that lands next: of the oldest pass with rows still to land, when it has issued and no earlier access to
the row is waiting (R79, R80). -/
def Tile.landDue (t : Tile) : Option (Nat × AnvJob × Nat) :=
  match jobIdx t.anvJobs fun j => j.due != 0 with
  | none => none
  | some i =>
    match t.anvJobs[i]? with
    | none => none
    | some j =>
      let r := j.pass.accRow + j.landed
      let held := if j.pass.k = 0 then (List.range j.pass.m).any fun m => t.rowHeldByVec j.seq (j.pass.accRow + m)
        else t.rowHeldByVec j.seq r
      if !j.issued || held then none else some (i, j, r)

/-- ANV_ROW_LAND: the next row lands, is written and is compared (R63, R75, R80, R82, R83). `tbin` and `nbr` are the
captures of R84. -/
def Tile.anvLand (t : Tile) (errs : List (Nat × W32)) (tbin nbr : Nat) : TStep :=
  match t.landDue with
  | none => (t, [])
  | some (i, j, r) =>
    if j.pass.k = 0 then
      let t := t.writeEmpty j.pass
      ({ t with anvJobs := listSet t.anvJobs i { j with landed := j.pass.m } }, [])
    else
      let row := injectErr (j.rows.getD j.landed ⟨[], 0, true⟩) errs
      if row.ue then ({ t with anvJobs := listSet t.anvJobs i { j with landed := j.landed + 1 } }, [])
      else
        let (t, bad, nf) := t.writeRow j.pass.acc r row.p
        let (t, es) := t.countAccUe bad
        let t := { t with anvNonfinite := t.anvNonfinite || nf }
        let (t, j, es') := t.abftRow { j with landed := j.landed + 1 } row r tbin nbr
        let fin := if bad = 0 then [] else [TEff.fault .parity j.pc]
        if es'.any fun e => decide (e = .fault .abftMismatch j.pc) then ({ t with anvJobs := [] }, es ++ fin ++ es')
        else ({ t with anvJobs := listSet t.anvJobs i j }, es ++ fin ++ es')

/-- ANV_PASS_COMPLETE: the oldest pass completes once it has issued and landed every row; it counts, reports its
incident and signals SEM (R79, R360). -/
def Tile.anvComplete (t : Tile) : TStep :=
  match t.anvJobs with
  | [] => (t, [])
  | j :: js =>
    if j.issued && j.due = 0 then
      ({ t with anvJobs := js, anvPasses := if j.pass.real then t.anvPasses + 1 else t.anvPasses },
        (if j.mism = 0 then [] else [.incident j.mism j.tbin j.nbr]) ++
        (if j.pass.sig then [.signal j.pass.sem j.pc] else []))
    else (t, [])

end Sys2Proof
end

