-- ==== Sys2Proof/Machine/Vector.lean ====
section
/-! DEFINITION. The vector engine of one tile (chapter 04): encodings and checks, functions, element groups,
summaries, lane faults, the stochastic-rounding store and completion. -/
namespace Sys2Proof

/-- Location code of Table 4.2. -/
def vlocOf (n : Nat) : Option VLoc :=
  match n with
  | 0 => some .none | 1 => some .spd | 2 => some .acc | _ => none

/-- BLOC of Table 4.4. -/
def blocOf (n : Nat) : Option VLoc :=
  match n with
  | 0 => some .none | 1 => some .spd | 2 => some .acc | 3 => some .scalar | 4 => some .imm | _ => none

/-- Functions that use operand A: all but MOVB (Table 4.3). -/
def fnUsesA (fn : Nat) : Bool := fn != 1
/-- Functions that use operand B: MOVB and ADD to MIN. -/
def fnUsesB (fn : Nat) : Bool := decide (1 ≤ fn) && decide (fn ≤ 7)

/-- Bytes that `count` elements of a format occupy. -/
def streamBytes (f : Fmt) (count : Nat) : Nat := ceilDiv (count * fmtBits f) 8

/-- A location and format pair of Table 4.2 for A and D. -/
def pairOk (l : VLoc) (f : Fmt) : Bool :=
  match l with
  | .none => true
  | .spd => f != .f32
  | _ => f = .f32

/-- Alignment of a scratchpad base (Table 4.2). -/
def baseOk (l : VLoc) (f : Fmt) (a : Nat) : Bool :=
  match l with
  | .spd => (match f with | .q4 => a % 16 = 0 | .w16 | .h16 => a % 2 = 0 | _ => true)
  | _ => true

/-- A stream ends within its storage (Table 4.7, order 3). -/
def extentOk (l : VLoc) (f : Fmt) (a sa count : Nat) : Bool :=
  match l with
  | .spd => decide (a + streamBytes f count ≤ spdSize) && (!fmtScaled f || decide (sa + ceilDiv count 32 ≤ spdSize))
  | .acc => decide (a + count ≤ 8192)
  | _ => true

/-- The destination overlaps a source stream other than as R101 allows. -/
def badOverlap (o : VecOp) (xl : VLoc) (xf : Fmt) (xa xs : Nat) : Bool :=
  let c := o.count
  match o.dloc, xl with
  | .spd, .spd =>
    let dn := streamBytes o.dfmt c
    let xn := streamBytes xf c
    let ds := fmtScaled o.dfmt
    let ss := fmtScaled xf
    let pn := ceilDiv c 32
    let same := o.dAddr = xa && fmtBits o.dfmt = fmtBits xf
    (!same && overlaps o.dAddr dn xa xn)
      || (ds && overlaps o.dsAddr pn xa xn)
      || (ss && overlaps xs pn o.dAddr dn)
      || (ds && ss && (if same then c != 0 && o.dsAddr != xs else overlaps o.dsAddr pn xs pn))
  | .acc, .acc => o.dAddr != xa && overlaps o.dAddr c xa c
  | _, _ => false

/-- The mask of 64 lanes is all ones or all zeros in each half (R91). -/
def maskHalves (m : Nat) : Bool :=
  let ok := fun (h : Nat) => h = 0 || h = 0xFFFFFFFF
  ok (nbits m 0 32) && ok (nbits m 32 32)

/-- Orders 2 to 4 of Table 4.7 for VEC.MAP and VEC.SRST. -/
def vecCheckTail (o : VecOp) : Except Status VecOp :=
  let useA := o.srst || fnUsesA o.fn
  let useB := !o.srst && fnUsesB o.fn
  if (useA && o.aloc = .none) || (!useA && o.aloc != .none) || (useB && o.bloc = .none) || (!useB && o.bloc != .none)
      || !pairOk o.aloc o.afmt || !pairOk o.bloc o.bfmt || (o.bloc = .spd && fmtScaled o.bfmt) || !pairOk o.dloc o.dfmt
      || (!o.srst && o.fn = 5 && o.dloc != .acc)
      || !baseOk o.aloc o.afmt o.aAddr || !baseOk o.bloc o.bfmt o.b || !baseOk o.dloc o.dfmt o.dAddr
      || (o.dloc = .spd && fmtScaled o.dfmt && (o.count % 32 != 0 || !maskHalves o.mask)) then .error .range
  else if !extentOk o.aloc o.afmt o.aAddr o.asAddr o.count || !extentOk o.bloc o.bfmt o.b 0 o.count
      || !extentOk o.dloc o.dfmt o.dAddr o.dsAddr o.count || (o.srst && decide (o.eidx + o.count > 2 ^ 40)) then .error .range
  else if badOverlap o o.aloc o.afmt o.aAddr o.asAddr || badOverlap o o.bloc o.bfmt o.b 0 then .error .range
  else .ok o

/-- VEC.MAP: fields of Table 4.4 and the checks of Table 4.7. -/
def vecMapCheck (w : Nat) : Except Status VecOp :=
  let fn := nbits w 116 6
  let sig := nbit w 19
  let sumen := nbit w 15
  let sem := nbits w 20 7
  let slot := nbits w 16 3
  let aA := nbits w 44 18
  let dA := nbits w 62 18
  let asA := nbits w 80 18
  let dsA := nbits w 98 18
  let b := nbits w 192 32
  match vlocOf (nbits w 8 2), fmtOf (nbits w 10 4), blocOf (nbits w 224 3), fmtOf (nbits w 227 4),
      vlocOf (nbits w 122 2), fmtOf (nbits w 124 4) with
  | some al, some af, some bl, some bf, some dl, some df =>
    let rsv := nbits w 231 25 != 0 || decide (fn > 0x12)
      || (bl = .none && (bf != .f32 || b != 0)) || (bl = .spd && decide (b ≥ 2 ^ 18))
      || ((bl = .acc || bl = .scalar) && decide (b ≥ 2 ^ 13))
      || (dl = .none && (df != .f32 || dA != 0)) || (dl = .acc && decide (dA ≥ 2 ^ 13))
      || (al = .none && (af != .f32 || aA != 0)) || (al = .acc && decide (aA ≥ 2 ^ 13))
      || (!fmtScaled df && dsA != 0) || (!fmtScaled af && asA != 0)
      || (!sig && sem != 0) || (!sumen && slot != 0)
    if rsv then .error .rsvdSet
    else vecCheckTail
      { fn, srst := false, smv := false, aloc := al, afmt := af, aAddr := aA, asAddr := asA, bloc := bl, bfmt := bf, b,
        dloc := dl, dfmt := df, dAddr := dA, dsAddr := dsA, count := nbits w 27 17, mask := nbits w 128 64,
        sem, sig, slot, sumen, grad := nbit w 14, eidx := 0, tid := 0 }
  | _, _, _, _, _, _ => .error .rsvdSet

/-- VEC.SRST: fields of Table 4.5 and the checks of Table 4.7. -/
def vecSrstCheck (w : Nat) : Except Status VecOp :=
  let sig := nbit w 19
  let sumen := nbit w 15
  let sem := nbits w 20 7
  let slot := nbits w 16 3
  let aA := nbits w 44 18
  let asA := nbits w 80 18
  match vlocOf (nbits w 8 2), fmtOf (nbits w 10 4) with
  | some al, some af =>
    let rsv := nbits w 106 22 != 0 || (al = .none && (af != .f32 || aA != 0)) || (al = .acc && decide (aA ≥ 2 ^ 13))
      || (!fmtScaled af && asA != 0) || (!sig && sem != 0) || (!sumen && slot != 0)
    if rsv then .error .rsvdSet
    else vecCheckTail
      { fn := 0, srst := true, smv := false, aloc := al, afmt := af, aAddr := aA, asAddr := asA, bloc := .none, bfmt := .f32, b := 0,
        dloc := .spd, dfmt := .w16, dAddr := nbits w 62 18, dsAddr := 0, count := nbits w 27 17,
        mask := nbits w 128 64, sem, sig, slot, sumen, grad := nbit w 14,
        eidx := nbits w 224 32 + nbits w 98 8 * 2 ^ 32, tid := nbits w 192 32 }
  | _, _ => .error .rsvdSet

/-- VEC.SMV: fields of Table 4.6 and its reserved checks; `b` carries FIELD. -/
def vecSmvCheck (w : Nat) : Except Status VecOp :=
  let sig := nbit w 27
  let sem := nbits w 28 7
  if nbits w 35 93 != 0 || nbits w 11 3 = 7 || (!sig && sem != 0) then .error .rsvdSet
  else .ok
    { fn := 0, srst := false, smv := true, aloc := .none, afmt := .f32, aAddr := 0, asAddr := 0, bloc := .none,
      bfmt := .f32, b := nbits w 11 3, dloc := .acc, dfmt := .f32, dAddr := nbits w 14 13, dsAddr := 0, count := 1,
      mask := 1, sem, sig, slot := nbits w 8 3, sumen := false, grad := false, eidx := 0, tid := 0 }

/-- Result of a VEC.MAP function in F32 (Table 4.3, R92, R168, R169). -/
def vecFn (fn : Nat) (a b d : W32) : W32 :=
  match fn with
  | 0x00 => rnd32 (f32Val a)
  | 0x01 => rnd32 (f32Val b)
  | 0x02 => f32Add a b
  | 0x03 => f32Sub a b
  | 0x04 => f32Mul a b
  | 0x05 => f32Mac d a b
  | 0x06 => f32Max a b
  | 0x07 => f32Min a b
  | 0x08 => if f32IsNaN a then f32NaN else f32Of false (f32Mag a)
  | 0x09 => f32Max a f32Zero
  | 0x0A => f32Sqrt a
  | 0x0B => f32Recip a
  | 0x0C => f32Rsqrt a
  | 0x0D => f32Exp a
  | 0x0E => f32Log a
  | 0x0F => f32Tanh a
  | 0x10 => f32Sigmoid a
  | 0x11 => f32Silu a
  | 0x12 => f32Gelu a
  | _ => a

/-- Empty running summaries (R102). -/
def SumAcc.empty : SumAcc :=
  ⟨List.replicate 64 f32Zero, List.replicate 64 f32Zero, none, none, 131071, 0, false⟩

/-- A zero `r` takes the place of a zero of the other sign that stands at `m`: the spec leaves it open which (R102). -/
def zeroSwap (which : Bool) (i : Nat) (s : List W32) (m : Option W32) (r : W32) : Bool :=
  match m with
  | some x => f32IsZero r && f32IsZero x && x ≠ r && Sys2Proof.Config.laterZero which i s
  | none => false

/-- Add the live result `r` of element `i` (R102). -/
def SumAcc.add (a : SumAcc) (i : Nat) (r : W32) : SumAcc :=
  let l := i % 64
  let v := f32Val r
  let newMax := !f32IsNaN r && (match a.max with | none => true | some m => decide (f32Key r > f32Key m))
  let newMin := !f32IsNaN r && (match a.min with | none => true | some m => decide (f32Key r < f32Key m))
  { s := listSet a.s l (f32Add (a.s.getD l 0) r)
    q := listSet a.q l (rnd32 ((f32Val (a.q.getD l 0)).add (v.mul v)))
    max := if newMax || zeroSwap true i a.s a.max r then some r else a.max
    min := if newMin || zeroSwap false i a.s a.min r then some r else a.min
    argmax := if newMax then i else a.argmax
    nnz := if f32IsZero r then a.nnz else a.nnz + 1
    nonfinite := a.nonfinite || f32NonFinite r }

/-- The slot a deposit writes (R102, R103). -/
def SumAcc.slot (a : SumAcc) (fault : Bool) : Slot :=
  { max := a.max.getD (f32Of true 0x7F800000)
    min := a.min.getD (f32Of false 0x7F800000)
    sum := (treeSum 6 a.s).getD 0 0
    sumsq := (treeSum 6 a.q).getD 0 0
    valid := true
    fault := fault
    nonfinite := a.nonfinite
    nnz := BitVec.ofNat 17 a.nnz
    argmax := BitVec.ofNat 17 a.argmax }

/-- Field of a slot by its FIELD code: F32 for codes 0 to 3, an integer above (Table 4.6). -/
def Slot.field (s : Slot) (f : Nat) : W32 :=
  match f with
  | 0 => s.max | 1 => s.min | 2 => s.sum | 3 => s.sumsq
  | 4 => s.nnz.setWidth 32 | 5 => s.argmax.setWidth 32 | _ => BitVec.ofNat 32 (b2n s.nonfinite)

/-- A field of a slot as F32, integers converted exactly (R99, R121). -/
def Slot.fieldF32 (s : Slot) (f : Nat) : W32 :=
  if f ≤ 3 then s.field f else rnd32 (.fin false (s.field f).toNat 0)

/-- Every group of the instruction has issued. -/
def VecJob.issued (j : VecJob) : Bool := decide (64 * j.group ≥ j.op.count)

/-- The vector engine takes up to four instructions ahead of the one it is issuing (R111). -/
def Tile.vecFull (t : Tile) : Bool := decide ((t.vecJobs.filter fun j => !j.issued).length ≥ 5)

/-- Accept a checked vector instruction; `vote` tells that a VEC.SRST must wait for the vote (R180), `step` is the
context's step number (R189). -/
def Tile.vecAccept (t : Tile) (o : VecOp) (pc : Nat) (vote : Bool) (step : W32) : Tile :=
  { t with
    vecJobs := t.vecJobs ++ [⟨o, pc, t.seq, 0, none, if o.srst && vote then none else some true, none, SumAcc.empty, none, o.smv, step⟩]
    seq := t.seq + 1 }

/-- A rejected vector instruction (R100). -/
def Tile.vecRejectWith (t : Tile) (e : Status) : Tile := { t with vecLastErr := e, vecReject := true }

/-- A deposit into slot `s` by an accepted instruction is still to come (R104). -/
def Tile.depositDue (t : Tile) (s : Nat) : Bool := t.vecJobs.any fun j => j.op.sumen && !j.deposited && decide (j.op.slot = s)

/-- VEC.SMV is to be rejected: once every deposit into its slot has been made, VALID is still 0, because no instruction
that deposits there precedes it (R99). -/
def Tile.smvEmpty (t : Tile) (o : VecOp) : Bool := !t.depositDue o.slot && !(t.slot o.slot).valid

/-- A deposit into slot `s` by an instruction before place `seq` is still to come (R104). -/
def Tile.depositBefore (t : Tile) (s seq : Nat) : Bool :=
  t.vecJobs.any fun j => j.op.sumen && !j.deposited && decide (j.op.slot = s) && decide (j.seq < seq)

/-- VEC.SMV's own effect on its turn, job `k`: the field, exactly in F32, into one accumulator element (R99). It counts as
one live element, and on completion as one instruction: DESIGN CHOICE, R113 does not say whether an instruction without
a COUNT field counts. -/
def Tile.smvWrite (t : Tile) (k : Nat) (j : VecJob) : Tile :=
  let t := t.accWr j.op.dAddr ((t.slot j.op.slot).fieldF32 j.op.b)
  { t with vecJobs := listSet t.vecJobs k { j with group := 1 }, vecElems := t.vecElems + 1 }

/-- Bits of element `i` of a scratchpad stream (R89). -/
def Tile.elemBits (t : Tile) (f : Fmt) (base i : Nat) : Nat :=
  match f with
  | .q4 => nbits (t.spd.rd (base + i / 2)).toNat (4 * (i % 2)) 4
  | .w16 | .h16 => t.rdLe (base + 2 * i) 2
  | .f32 => t.rdLe (base + 4 * i) 4
  | _ => (t.spd.rd (base + i)).toNat

/-- Byte address of element `i` of a scratchpad stream. -/
def elemAddr (f : Fmt) (base i : Nat) : Nat := base + i * fmtBits f / 8

/-- Read operand element `i` as F32, and the protected words of it that are uncorrectable: scratchpad words, then
accumulator elements. -/
def Tile.operand (t : Tile) (l : VLoc) (f : Fmt) (base scale i : Nat) (sv : W32 × Bool) (imm : Nat) :
    W32 × List Nat × List Nat :=
  match l with
  | .none => (0, [], [])
  | .imm => (BitVec.ofNat 32 imm, [], [])
  | .scalar => (sv.1, [], if sv.2 then [base] else [])
  | .acc => (t.accRd (base + i), [], if t.accUe.contains (base + i) then [base + i] else [])
  | .spd =>
    let sc := fmtScaled f
    let x := if sc then (t.spd.rd (scale + i / 32)).toNat else 0
    let ws := [elemAddr f base i / 8] ++ (if sc then [(scale + i / 32) / 8] else [])
    (toF32 f (t.elemBits f base i) x, ws.filter t.spdUe.contains, [])

/-- One live element of a group as computed: its index, result, and the uncorrectable words it met. -/
structure LaneRes where
  i : Nat
  r : W32
  spd : List Nat
  acc : List Nat
deriving DecidableEq, Repr

/-- The element met an uncorrectable read (R96). -/
def LaneRes.bad (l : LaneRes) : Bool := !l.spd.isEmpty || !l.acc.isEmpty

/-- Element indices of group `g` that are live (R93). -/
def VecJob.live (j : VecJob) : List Nat :=
  if j.vote = some false then []
  else ((List.range 64).map (64 * j.group + ·)).filter fun i => decide (i < j.op.count) && nbit j.op.mask (i % 64)

/-- Compute one live element (R90, R96). -/
def Tile.lane (t : Tile) (j : VecJob) (i : Nat) : LaneRes :=
  let o := j.op
  let sv := j.bval.getD (0, false)
  let (a, as, aa) := t.operand o.aloc o.afmt o.aAddr o.asAddr i (0, false) 0
  let (b, bs, ba) := t.operand o.bloc o.bfmt o.b 0 i sv o.b
  let mac := !o.srst && o.fn = 5
  let (d, ds, da) := if mac then t.operand .acc .f32 o.dAddr 0 i (0, false) 0 else (0, [], [])
  ⟨i, if o.srst then a else vecFn o.fn a b d, as ++ bs ++ ds, aa ++ ba ++ da⟩

/-- Write a group's scratchpad bytes; a protected word wholly written loses its mark (R220). -/
def Tile.spdWriteSet (t : Tile) (bs : List (Nat × Byte)) : Tile :=
  let as := bs.map (·.1)
  { t with
    spd := bs.foldl (fun m p => m.wr p.1 p.2) t.spd
    spdUe := if t.spdUe.isEmpty then [] else
      t.spdUe.filter fun w => !((List.range 8).all fun k => as.contains (8 * w + k)) }

/-- Encode and write the elements of one group into scratchpad under block scale `x`; the second part tells whether a
conversion saturated. `rnd` gives the stored bits of VEC.SRST. A lane-faulted element of a Q4 destination takes the nibble
that encodes the canonical NaN under the block's scale: DESIGN CHOICE, R96 gives the block's scale alone. -/
def Tile.storeElems (t : Tile) (o : VecOp) (x : Nat) (ls : List LaneRes) (rnd : Nat → W32 → Nat × Bool) : Tile × Bool :=
  let enc := fun (l : LaneRes) =>
    let r := if l.bad then f32NaN else l.r
    let e := if o.srst then rnd l.i r else encodeElem o.dfmt x r
    (e.1, e.2 && !l.bad)
  match o.dfmt with
  | .q4 =>
    (ls.foldl (fun t l =>
      let a := elemAddr .q4 o.dAddr l.i
      t.spdWriteSet [(a, BitVec.ofNat 8 (setBits (t.spd.rd a).toNat (4 * (l.i % 2)) 4 (enc l).1))]) t,
     ls.any fun l => (enc l).2)
  | f =>
    (t.spdWriteSet (ls.flatMap fun l =>
        let a := elemAddr f o.dAddr l.i
        (leBytes (fmtBits f / 8) (enc l).1).zipIdx.map fun p => (a + p.2, p.1)),
     ls.any fun l => (enc l).2)

/-- Write one block of a scaled destination whole, under one scale (R91, R173): its elements, then its scale byte.
DESIGN CHOICE: where the scale plane overlaps the destination's own elements R101 gives no order. -/
def Tile.storeBlock (t : Tile) (o : VecOp) (b : Nat) (ls : List LaneRes) : Tile × Bool :=
  if ls.isEmpty then (t, false)
  else
    let rs := (ls.filter fun l => !l.bad).map (·.r)
    let x := blockScale o.dfmt rs
    let (t, sat) := t.storeElems o x ls fun _ _ => (0, false)
    let nan := o.dfmt = .q4 && ls.any fun l => l.bad || f32IsNaN l.r
    let sb := if nan then 255 else x
    (t.spdWriteSet [(o.dsAddr + b, BitVec.ofNat 8 sb)], sat)

/-- Write a group's results to the destination (R90, R91, R96). -/
def Tile.storeGroup (t : Tile) (j : VecJob) (ls : List LaneRes) (rnd : Nat → W32 → Nat × Bool) : Tile × Bool :=
  let o := j.op
  match o.dloc with
  | .acc => (ls.foldl (fun t l => t.accWr (o.dAddr + l.i) (if l.bad then f32NaN else l.r)) t, false)
  | .spd =>
    if fmtScaled o.dfmt then
      let b := 2 * j.group
      let (t, s1) := t.storeBlock o b (ls.filter fun l => l.i / 32 = b)
      let (t, s2) := t.storeBlock o (b + 1) (ls.filter fun l => l.i / 32 = b + 1)
      (t, s1 || s2)
    else t.storeElems o 127 ls rnd
  | _ => (t, false)

/-- Index of the first vector instruction with groups still to issue. -/
def Tile.vecNext (t : Tile) : Option Nat := t.vecJobs.findIdx? fun j => !j.issued

/-- Everything the next group of a job reads or writes in the accumulator file is free of earlier passes (R80). -/
def Tile.groupFree (t : Tile) (j : VecJob) : Bool :=
  let o := j.op
  let lo := 64 * j.group
  let n := min 64 (o.count - lo)
  let rows := fun (base : Nat) => (List.range ((base + lo + n - 1) / 16 - (base + lo) / 16 + 1)).map ((base + lo) / 16 + ·)
  let need := (if o.aloc = .acc then rows o.aAddr else []) ++ (if o.bloc = .acc then rows o.b else [])
    ++ (if o.dloc = .acc then rows o.dAddr else []) ++ (if o.bloc = .scalar && j.bval.isNone then [o.b / 16] else [])
  !need.any fun r => t.rowHeldByAnv j.seq r

/-- Removes repeats. -/
def dedup (l : List Nat) : List Nat := l.foldl (fun a x => if a.contains x then a else a ++ [x]) []

/-- VEC_GROUP_ISSUE: the first instruction with groups left issues one, or a VEC.SMV its element (R90 to R96, R99, R102,
R106 to R108, R180, R189). `now` is the reference time, `seed` the context's. The substitute of a lane-faulted element is
no live result: it sets neither NONFINITE nor the overflow flag, as it enters no summary. DESIGN CHOICE: R96 says so of
the summaries alone. -/
def Tile.vecGroup (t : Tile) (now : Nat) (seed : W64) : TStep :=
  match t.vecNext with
  | none => (t, [])
  | some k =>
    match t.vecJobs[k]? with
    | none => (t, [])
    | some j =>
      if !t.groupFree j then (t, [])
      else if j.vote.isNone then
        ({ t with vecJobs := listSet t.vecJobs k { j with waitSince := some (j.waitSince.getD now) } }, [])
      else if j.op.smv then (if t.depositBefore j.op.slot j.seq then t else t.smvWrite k j, [])
      else
        let o := j.op
        let j := if o.bloc = .scalar && j.bval.isNone then { j with bval := some (t.accRd o.b, t.accUe.contains o.b) } else j
        let ls := j.live.map (t.lane j)
        let good := ls.filter fun l => !l.bad
        let bad := ls.filter (·.bad)
        let (t, es1) := t.countSpdUe (dedup (bad.flatMap (·.spd))).length
        let (t, es2) := t.countAccUe (dedup (bad.flatMap (·.acc))).length
        let (t, sat) := t.storeGroup j ls fun i r => srst r seed (BitVec.ofNat 32 o.tid) (o.eidx + i) j.step
        let nf := good.any fun l => f32NonFinite l.r
        let ov := o.grad && (nf || sat)
        let j := { j with
          group := j.group + 1
          sums := if o.sumen then good.foldl (fun a l => a.add l.i l.r) j.sums else j.sums
          lowFault := match j.lowFault with
            | some e => some e
            | none => bad.head?.map (·.i) }
        ({ t with
            vecJobs := listSet t.vecJobs k j
            vecNonfinite := t.vecNonfinite || nf
            vecLaneFault := t.vecLaneFault || !bad.isEmpty
            vecFaultLast := match j.lowFault with | some e => BitVec.ofNat 17 e | none => t.vecFaultLast
            vecElems := t.vecElems + BitVec.ofNat 32 ls.length
            srCount := if o.srst then t.srCount + BitVec.ofNat 32 ls.length else t.srCount
            ovf := t.ovf || ov },
          es1 ++ es2 ++ (if ov then [.ovf] else []))

/-- SRST_VOTE_RELEASE: the VEC.SRST whose turn it is reads the vote's result once (R180). -/
def Tile.voteRelease (t : Tile) (clean : Bool) : Tile :=
  match t.vecJobs.findIdx? fun j => j.vote.isNone with
  | none => t
  | some k =>
    match t.vecJobs[k]? with
    | none => t
    | some j =>
      let turn := if j.op.count = 0 then decide (k = 0) else t.groupFree j
      if (t.vecJobs.take k).all (·.issued) && turn then { t with vecJobs := listSet t.vecJobs k { j with vote := some clean } } else t

/-- SUMMARY_DEPOSIT: the oldest instruction that owes a deposit has issued its last group and deposits (R102, R103). -/
def Tile.deposit (t : Tile) : Tile :=
  match t.vecJobs.findIdx? fun j => j.op.sumen && !j.deposited with
  | none => t
  | some k =>
    match t.vecJobs[k]? with
    | none => t
    | some j =>
      if j.issued && j.vote.isSome then
        { t with
          slots := SMap.set t.slots j.op.slot (j.sums.slot j.lowFault.isSome)
          vecJobs := listSet t.vecJobs k { j with deposited := true } }
      else t

/-- VEC_COMPLETE: the oldest instruction completes once it has written everything and made its deposit; it counts,
signals SEM, and a lane fault then faults the tile program (R96, R111, R184). -/
def Tile.vecComplete (t : Tile) (now : Nat) : TStep :=
  match t.vecJobs with
  | [] => (t, [])
  | j :: js =>
    if j.vote.isNone then
      ({ t with vecJobs := { j with waitSince := some (j.waitSince.getD now) } :: js }, [])
    else if j.issued && (!j.op.sumen || j.deposited) then
      ({ t with vecJobs := js, vecInstrs := if j.op.count = 0 then t.vecInstrs else t.vecInstrs + 1 },
        (if j.op.sig then [.signal j.op.sem j.pc] else []) ++
        (if j.vote = some false then [.skipped] else []) ++
        (if j.lowFault.isSome then [.fault .parity j.pc] else []))
    else (t, [])

end Sys2Proof
end

