-- ==== Sys2Proof/Machine/Control.lean ====
section
/-! DEFINITION. The control core's own instructions on one tile (chapter 05): encodings of Table 5.2, their reserved
and range checks, and the effect of those that touch nothing but the tile. -/
namespace Sys2Proof

/-- Outcome of a control instruction that stays within the tile. -/
inductive CtlRes where
  /-- executed: the tile afterwards -/
  | done (t : Tile)
  /-- its wait is not met -/
  | wait (w : TileWait)
  /-- rejected: the tile program faults with this status (R118) -/
  | bad (st : Status)
deriving DecidableEq, Repr

/-- All bits outside the listed fields (low bit, width) are zero (R119). -/
def onlyFields (w : Nat) (fs : List (Nat × Nat)) : Bool := fs.foldl (fun w f => setBits w f.1 f.2 0) w = 0

/-- CTL.NOP, CTL.END and CTL.STEP have no field but the opcode. -/
def ctlBareOk (w : Nat) : Bool := onlyFields w [(0, 8)]

/-- CTL.NOP (R118). -/
def Tile.ctlNop (t : Tile) (w : Nat) : CtlRes := if ctlBareOk w then .done (t.advance 16) else .bad .rsvdSet

/-- Comparison of CTL.BR (R120). -/
def brCmp (c : Nat) (a b : W32) : Bool :=
  match c with
  | 0 => true | 1 => a = b | 2 => a ≠ b | 3 => a.ult b | 4 => !a.ult b | 5 => a.slt b | _ => !a.slt b

/-- CTL.BR (R116, R119, R120). -/
def Tile.ctlBr (t : Tile) (w : Nat) : CtlRes :=
  let c := nbits w 29 3
  let xr := nbits w 26 3
  let tgt := nbits w 8 18
  let imm := nbits w 32 32
  if !onlyFields w [(0, 8), (8, 18), (26, 3), (29, 3), (32, 32)] || c = 7 || (c = 0 && (xr != 0 || imm != 0)) then .bad .rsvdSet
  else if tgt % 16 != 0 then .bad .range
  else if brCmp c (t.xr xr) (BitVec.ofNat 32 imm) then .done (t.branch tgt) else .done (t.advance 16)

/-- IEEE comparison of CTL.SBR on F32 values: with a NaN only NE holds (R121). -/
def sbrF32 (c : Nat) (a b : W32) : Bool :=
  if f32IsNaN a || f32IsNaN b then c = 1
  else
    let x := f32Key a
    let y := f32Key b
    match c with
    | 0 => x = y | 1 => x ≠ y | 2 => x < y | 3 => x ≤ y | 4 => y < x | _ => y ≤ x

/-- Unsigned comparison of CTL.SBR on integer fields (R121). -/
def sbrInt (c : Nat) (a b : W32) : Bool :=
  match c with
  | 0 => a = b | 1 => a ≠ b | 2 => a.ult b | 3 => a.ule b | 4 => b.ult a | _ => b.ule a

/-- CTL.SBR (R104, R121): waits for the deposits of its slots, then compares. A slot deposited with FAULT = 1 is never
read: the branch waits until the depositing instruction completes, which faults the context. -/
def Tile.ctlSbr (t : Tile) (w : Nat) : CtlRes :=
  let tgt := nbits w 8 18
  let sl := nbits w 26 3
  let f := nbits w 29 3
  let c := nbits w 32 3
  let src := nbit w 35
  let sl2 := nbits w 36 3
  let f2 := nbits w 39 3
  let imm := nbits w 64 32
  if !onlyFields w [(0, 8), (8, 18), (26, 3), (29, 3), (32, 3), (35, 1), (36, 3), (39, 3), (64, 32)] || f = 7 || f2 = 7
      || decide (c ≥ 6) || (src && imm != 0) || (!src && (sl2 != 0 || f2 != 0)) then .bad .rsvdSet
  else if tgt % 16 != 0 then .bad .range
  else if t.depositDue sl || (src && t.depositDue sl2) || (t.slot sl).fault || (src && (t.slot sl2).fault) then .wait .unit
  else if !(t.slot sl).valid || (src && !(t.slot sl2).valid) then .bad .range
  else
    let a := t.slot sl
    let r :=
      if src then
        (if decide (f ≤ 3) || decide (f2 ≤ 3) then sbrF32 c (a.fieldF32 f) ((t.slot sl2).fieldF32 f2)
         else sbrInt c (a.field f) ((t.slot sl2).field f2))
      else if f ≤ 3 then sbrF32 c (a.field f) (BitVec.ofNat 32 imm)
      else sbrInt c (a.field f) (BitVec.ofNat 32 imm)
    if r then .done (t.branch tgt) else .done (t.advance 16)

/-- CTL.XSET (R122). -/
def Tile.ctlXset (t : Tile) (w : Nat) : CtlRes :=
  if !onlyFields w [(0, 8), (8, 3), (32, 32)] then .bad .rsvdSet
  else .done ((t.xw (nbits w 8 3) (BitVec.ofNat 32 (nbits w 32 32))).advance 16)

/-- CTL.XADD (R122). -/
def Tile.ctlXadd (t : Tile) (w : Nat) : CtlRes :=
  let src := nbit w 14
  let xs := nbits w 11 3
  let imm := nbits w 32 32
  let xd := nbits w 8 3
  if !onlyFields w [(0, 8), (8, 3), (11, 3), (14, 1), (32, 32)] || (src && imm != 0) || (!src && xs != 0) then .bad .rsvdSet
  else .done ((t.xw xd (t.xr xd + (if src then t.xr xs else BitVec.ofNat 32 imm))).advance 16)

/-- CTL.LOOP (R123): a zero counter falls through unchanged; otherwise decrement and branch while nonzero. -/
def Tile.ctlLoop (t : Tile) (w : Nat) : CtlRes :=
  let xr := nbits w 26 3
  let tgt := nbits w 8 18
  if !onlyFields w [(0, 8), (8, 18), (26, 3)] then .bad .rsvdSet
  else if tgt % 16 != 0 then .bad .range
  else
    let v := t.xr xr
    if v = 0 then .done (t.advance 16)
    else if v - 1 = 0 then .done ((t.xw xr (v - 1)).advance 16)
    else .done ((t.xw xr (v - 1)).branch tgt)

/-- The enabled patch slots of CTL.PFX: position, width, register. -/
def pfxSlots (w : Nat) : List (Nat × Nat × Nat) :=
  ([8, 25, 42].filter fun b => nbit w b).map fun b => (nbits w (b + 4) 8, nbits w (b + 12) 5, nbits w (b + 1) 3)

/-- Two enabled slots share a bit. -/
def pfxOverlap : List (Nat × Nat × Nat) → Bool
  | [] => false
  | p :: ps => (ps.any fun q => overlaps p.1 p.2.1 q.1 q.2.1) || pfxOverlap ps

/-- CTL.PFX (R124): checks its slots against the following instruction and records the patches for it. -/
def Tile.ctlPfx (t : Tile) (w : Nat) : CtlRes :=
  let idle := fun (b : Nat) => !nbit w b && nbits w b 17 != 0
  let ps := pfxSlots w
  let a := t.pc + 16
  if !onlyFields w [(0, 8), (8, 17), (25, 17), (42, 17)] || idle 8 || idle 25 || idle 42 then .bad .rsvdSet
  else if ps.isEmpty then .done (t.advance 16)
  else if a + 16 > spdSize then .bad .range
  else
    let o := (t.spd.rd a).toNat
    let n := (opcWords o).getD 1
    let nx := t.rdLe a (16 * n)
    if (ps.any fun p => p.2.1 = 0 || decide (p.1 < 8) || decide (p.1 + p.2.1 > 128 * n)
          || decide (nbits nx p.1 p.2.1 + (t.xr p.2.2).toNat ≥ 2 ^ p.2.1)) || pfxOverlap ps || o = 0x07 then .bad .range
    else .done { (t.advance 16) with patches := ps.map fun p => ⟨p.1, p.2.1, t.xr p.2.2⟩ }

/-- CTL.SEMWAIT (R126): waits for COUNT, then subtracts it. -/
def Tile.ctlSemwait (t : Tile) (w : Nat) : CtlRes :=
  let n := nbits w 8 7
  let c := nbits w 16 16
  if !onlyFields w [(0, 8), (8, 7), (16, 16)] then .bad .rsvdSet
  else if c ≤ (t.sem n).toNat then .done ((t.semW n (t.sem n - BitVec.ofNat 16 c)).advance 16)
  else .wait (.sem n c)

/-- Fields of CTL.SEMSIG: COUNT, TILE, REMOTE, SEM, after its reserved and range checks (R119, R125). -/
def semsigCheck (w : Nat) : Except Status (Nat × Nat × Bool × Nat) :=
  let tl := nbits w 16 16
  let rem := nbit w 15
  if !onlyFields w [(0, 8), (8, 7), (15, 1), (16, 16), (32, 16)] || (!rem && tl != 0) || decide (tl ≥ 2 ^ 15) then .error .rsvdSet
  else if tl ≥ 25600 then .error .range
  else .ok (nbits w 32 16, tl, rem, nbits w 8 7)

/-- Register of CTL.TIME (R128). -/
def timeCheck (w : Nat) : Except Status Nat :=
  if !onlyFields w [(0, 8), (8, 3)] then .error .rsvdSet
  else if nbits w 8 3 % 2 = 1 then .error .range
  else .ok (nbits w 8 3)

/-- Queue of CTL.QPOP (R119). -/
def qpopCheck (w : Nat) : Except Status Nat :=
  if !onlyFields w [(0, 8), (8, 18)] then .error .rsvdSet else .ok (nbits w 8 18)

/-- TNG.EXEC: D_ADDR, and the enabled source and destination registers (R133). -/
def execCheck (w : Nat) : Except Status (Nat × Option Nat × Option Nat) :=
  let reg := fun (b : Nat) => if nbit w (b + 3) then some (nbits w b 3) else none
  if !onlyFields w [(0, 8), (8, 18), (26, 4), (30, 4)] || (!nbit w 29 && nbits w 26 3 != 0) || (!nbit w 33 && nbits w 30 3 != 0) then
    .error .rsvdSet
  else if nbits w 8 18 % 64 != 0 then .error .range
  else .ok (nbits w 8 18, reg 26, reg 30)

/-- TNG.PUSH: queue and, when REMOTE, the module (R134). -/
def pushCheck (w : Nat) : Except Status (Nat × Option Nat) :=
  let rem := nbit w 48
  if !onlyFields w [(0, 8), (8, 18), (32, 14), (48, 1)] || (!rem && nbits w 32 16 != 0) then .error .rsvdSet
  else .ok (nbits w 8 18, if rem then some (nbits w 32 14) else none)

/-- The opcode lies outside Table 5.1 (R117). -/
def opcReserved (w : Nat) : Bool := (opcWords (nbits w 0 8)).isNone

end Sys2Proof
end

