-- ==== Sys2Proof/Machine/State.lean ====
section
/-! DEFINITION. The state of the block, its faults and refusals, and the state after reset. -/
namespace Sys2Proof

/-- Reference time at power-on (Tables 2.4 and 2.5). -/
def RefTime.reset : RefTime where
  now := 0
  st := .free
  stepped := false
  offset := 0
  good := 0
  lastValid := 0
  slew := 0
  slewTick := 0
  window := 0
  bellows := 0
  marks := []
  freq := 0
  hostLatch := 0
  hearthLatch := 0
  hearthLatch2 := 0
  lastRead := []

/-- A monitor at reset (Table 2.3). -/
def Brm.reset : Brm := ⟨0, 0, 0xFFFF, 0, false, false⟩

/-- The load engine at reset (Table 11.11). -/
def Load.reset : Load where
  addr := 0
  len := 0
  vec := 0
  irqen := false
  st := .idle
  errSect := 0
  frame := false
  program := false
  err := false
  lastErr := .ok
  errOff := 0
  us := 0
  id := List.replicate 48 0
  partials := 0
  fulls := 0
  since := 0
  abi := 0
  record := []
  staged := none
  progDigest := []
  prects := []
  lrects := []
  mesh := []
  remapEnt := []

/-- Health of a tile that has met nothing. -/
def Health.reset : Health := ⟨0, false, 0, 0, [], [], [], false, 0⟩

/-- Margin of a die at reset (Table 12.11). -/
def DieMargin.reset : DieMargin := ⟨false, 0, 0xFFFF, none, none⟩

/-- A partition when a load defines it. -/
def Part.fresh : Part := ⟨.run, 0, 0, none, 0, none, none, []⟩

/-- Faults at reset (Tables 12.11 to 12.14); a module with no retirement record. -/
def Flt.reset : Flt where
  remoteMs := 50
  fillMs := 20
  replayMs := 1000
  autoqMs := 100
  autoq := true
  toFill := 0
  toRemote := 0
  guilty := 0
  unexpl := 0
  confirmed := 0
  retired := []
  due := []
  health := []
  margins := []
  parts := []
  scan := []
  suppliers := []
  waitAt := []
  ended := []

/-- An empty handover record. -/
def HandRec.reset : HandRec := ⟨0, 0, 0, 0, 0, 0⟩

/-- The Gauntlet at reset: a module as shipped, UNOWNED (Table 13.11). -/
def Sec.reset : Sec where
  st := .unowned
  debugCount := 0
  tenancy := 0
  owner := none
  maint := none
  ofab := none
  ofabPrev := none
  tkey := none
  lease := 0
  tload := none
  tfab := none
  tfabPrev := none
  memKeys := false
  logKey := false
  ideKeys := false
  ideSecure := false
  fine := false
  tdi := .unlocked
  challenge := 0
  ownerNonce := none
  tenantNonce := none
  debugOpen := false
  record := HandRec.reset
  hand := none
  sessions := []
  nextSession := 0
  exiting := false
  failedUnits := []

/-- The firmware image of a slot as shipped. -/
def FwImage.reset (valid : Bool) : FwImage := ⟨0, 0, [], valid⟩

/-- The Hearth at power-on (Table 14.9): starting from its active image. -/
def Hrt.reset : Hrt where
  ready := false
  slotB := false
  imageA := FwImage.reset true
  imageB := FwImage.reset true
  fuseSvn := 0
  upSince := 0
  restart := .power
  fifo := []
  alarm := 0
  seen := 0
  ring := []
  nextSeq := 0
  logSel := 0
  coalMs := 100
  rate := 64
  drops := [0, 0, 0, 0]
  staging := []
  buckets := []
  logDrop := none
  hlogBase := 0
  hlogEn := false
  hlogVec := 0
  hrsz := 4
  hlogHead := 0
  hlogTail := 0
  hlogDrops := 0
  hlogQueue := []
  locks := []
  lockStat := .ok
  holder := none
  bists := []
  bistStat := .ok
  plimOwner := 6500
  plimHost := 6500
  powerW := 0
  dieMv := []
  bfPause := []
  overridden := false
  sensors := []
  sweeps := []
  quant := []
  capLow := []
  sums := []
  floorLost := []

/-- The host interface at reset (Table 15.5); the link is down. -/
def Hif.reset : Hif where
  request := 0
  agreed := 0
  linkUp := false
  rate := 0
  width := 0
  flit := false
  downSince := none
  winCtx := 0
  winEn := false
  winBase := 0
  log2 := 36
  errCount := 0
  errLast := .ok
  errNext := 0
  err := false
  errIrq := false
  errVec := 0
  errLog := []
  msix := []
  pba := []
  busMaster := false
  msixEn := false
  msixMask := false
  cplTmo := 50000000
  cfg := []
  t3 := []
  nextTag := 0
  held := []
  bar4 := []
  remapSel := 0

/-- A die in RUN. -/
def Die.reset : Die := ⟨.run, false, none, false, 0⟩

/-- Power at power-on: the standby rail is up, the 48 V domain is not (R458, R459); the reset registers of Table 16.4;
eight laser units in their bays. -/
def Pwr.reset : Pwr where
  standbyRail := true
  dom := .off
  domSince := 0
  standbyReq := none
  latch := false
  standbySrc := 0
  powerOn := true
  unmet := none
  warm := none
  warmSince := 0
  dies := []
  lasers := [0, 1, 2, 3, 4, 5, 6, 7]
  lasersOk := [0, 1, 2, 3, 4, 5, 6, 7]
  laserRecs := []
  new := true
  widest := 7
  kind := 7
  source := 0
  arg := 0
  time := 0
  groups := 0x6FFFB
  warmCnt := 0
  dieCnt := 0
  sbyCnt := 0

end Sys2Proof

namespace Sys2Proof.Machine

/-- What stops a command: nothing. Every command of the table has an effect, or none, and the block goes on; so this
type has no constructor. -/
inductive Fault where
deriving DecidableEq, Repr

/-- What the model declines. -/
inductive Refusal where
  /-- the command has no meaning in this model yet: raised by Dispatch only; safe -/
  | notModelled (mnemonic : String)
deriving DecidableEq, Repr

/-- The block: everything the spec gives it, the commands waiting, and the model's own counters and trace. -/
structure State where
  /-- commands waiting, first in first out -/
  pending : List Instr
  /-- the model's own: how many free values have been drawn -/
  free : Nat
  time : RefTime
  /-- physical tiles by ID; an absent tile is at reset -/
  tiles : SMap Tile
  /-- monitors: of each die, and of physical tiles that differ from their die's -/
  brmDie : SMap Brm
  brm : SMap Brm
  ctxs : SMap Ctx
  queues : SMap Queue
  descs : SMap Desc
  /-- number of the next descriptor -/
  nextDesc : Nat
  /-- semaphore signals on their way, oldest first -/
  sigs : List Signal
  /-- context whose LAUNCH last started on a logical tile, with its place in the order of starts -/
  lastStart : SMap (Nat × Nat)
  starts : Nat
  /-- Tongs engines by die × 64 + engine -/
  engines : SMap Engine
  stages : SMap Stage
  sch : Sch
  mem : MemSys
  fab : Fab
  load : Load
  flt : Flt
  sec : Sec
  hrt : Hrt
  hif : Hif
  pwr : Pwr
  /-- logical tiles whose effective physical tile is not the identity; `none` when unmapped (R26, R343) -/
  remap : SMap (Option Nat)
  /-- the model's own trace of what the block has put out, oldest first -/
  out : List Out
deriving DecidableEq, Repr

/-- The block right after power-on reset. -/
def State.reset : State where
  pending := []
  free := 0
  time := RefTime.reset
  tiles := []
  brmDie := []
  brm := []
  ctxs := []
  queues := []
  descs := []
  nextDesc := 0
  sigs := []
  lastStart := []
  starts := 0
  engines := []
  stages := []
  sch := Sch.reset
  mem := MemSys.reset
  fab := Fab.reset
  load := Load.reset
  flt := Flt.reset
  sec := Sec.reset
  hrt := Hrt.reset
  hif := Hif.reset
  pwr := Pwr.reset
  remap := []
  out := []

end Sys2Proof.Machine
end

