-- ==== Sys2Proof/WellFormed.lean ====
section
/-! DEFINITION. Which commands are well-formed: their operands name units that the block has. -/
namespace Sys2Proof

/-- A logical tile ID (R22). -/
def tileOk (t : Nat) : Bool := decide (t < 25600)
/-- A physical tile ID (R21): die, row 0 to 51, column. -/
def ptileOk (t : Nat) : Bool := decide (t < 32768) && decide (t % 4096 / 64 < 52)
/-- A die. -/
def dieOk (d : Nat) : Bool := decide (d < 8)
/-- A fabric port (Table 8.1). -/
def portOk (p : Nat) : Bool := decide (p < 48)
/-- A queue ID. -/
def queueOk (q : Nat) : Bool := decide (q < 262144)
/-- A context ID: bits [11:10] zero. -/
def ctxOk (c : Nat) : Bool := decide (c < 1024)
/-- A partition number. -/
def partOk (p : Nat) : Bool := decide (p < 1024)
/-- A stage number (R298). -/
def stageOk (s : Nat) : Bool := decide (s < 256)
/-- A slot table entry (R317). -/
def entryOk (i : Nat) : Bool := decide (i < 512)
/-- An MSI-X vector (R450). -/
def vecOk (v : Nat) : Bool := decide (v < 2048)
/-- A sensor number (Table 14.2). -/
def sensorOk (n : Nat) : Bool := decide (n < 138)
/-- A ring entry: 64 bytes, a status of R449, or the errors of a read of pages. -/
def entryBytesOk : Fetched → Bool
  | .bytes b => decide (b.length = 64)
  | .failed st => [Status.denied, .parity, .abandoned].contains st
  | .pages _ => true
/-- A received packet: 8 header words, at most 255 payload words and 4 trailer words (Table 8.5, R249). -/
def packetOk (p : Packet) : Bool := decide (p.hdr.length = 8) && decide (p.pay.length ≤ 255) && decide (p.tag.length = 4)
/-- A received flit: 64 words (R241). -/
def flitOk (f : Flit) : Bool := decide (f.words.length = 64)
/-- A host access lies in its BAR (Table 15.2). -/
def accOk (a : HostAcc) : Bool :=
  decide (a.off < if a.bar2 then 0x1000000 else 0x4000000) && decide (1 ≤ a.size) && decide (a.size ≤ 8) && decide (a.be < 256)
/-- A BAR4 access of at most 4,096 bytes within the largest window (Table 15.2). -/
def bar4Ok (off n : Nat) : Bool := decide (1 ≤ n) && decide (n ≤ 4096) && decide (off + n ≤ 2 ^ 41)

/-- A command's operands name units that exist and have the widths of their fields. -/
def Instr.wf : Instr → Bool
  | .registerWrite a => accOk a
  | .rtNowLoRead _ _ => true
  | .brmMinClr p _ => ptileOk p
  | .brmWindowEnd w => decide (w.dies.length = 8) && w.tiles.all fun x => ptileOk x.1
  | .bellowsTick b => decide (b.deltas.length = 8) && (b.deltas.all fun x => decide (-10 ≤ x) && decide (x ≤ 10)) && decide (b.powerW.toNat ≤ 6500)
  | .rtHoldoverTimeout => true
  | .anvPass t => tileOk t
  | .anvWeightLoad t _ => tileOk t
  | .anvPassIssue t _ => tileOk t
  | .anvRowLand t _ errs => tileOk t && errs.all fun x => decide (x.1 ≤ 16)
  | .anvPassComplete t => tileOk t
  | .vecMap t => tileOk t
  | .vecSrst t => tileOk t
  | .vecSmv t => tileOk t
  | .vecGroupIssue t _ => tileOk t
  | .srstVoteRelease t => tileOk t
  | .summaryDeposit t => tileOk t
  | .vecComplete t => tileOk t
  | .ctlNop t => tileOk t
  | .ctlEnd t => tileOk t
  | .ctlEndDrained t => tileOk t
  | .ctlBr t => tileOk t
  | .ctlSbr t => tileOk t
  | .ctlXset t => tileOk t
  | .ctlXadd t => tileOk t
  | .ctlLoop t => tileOk t
  | .ctlPfx t => tileOk t
  | .ctlSemsig t => tileOk t
  | .semSignalDeliver _ => true
  | .ctlSemwait t => tileOk t
  | .ctlStep t => tileOk t
  | .stepComplete c => ctxOk c
  | .ctlTime t => tileOk t
  | .ctlQpop t b => tileOk t && entryBytesOk b
  | .tngExec t _ => tileOk t
  | .tngPush t => tileOk t
  | .doorbellWrite q _ _ => queueOk q
  | .qEnable q _ _ => queueOk q
  | .qDisable q _ _ => queueOk q
  | .descNop q b => queueOk q && entryBytesOk b
  | .descLaunch q b => queueOk q && entryBytesOk b
  | .launchStart _ => true
  | .moveCopy q b => queueOk q && entryBytesOk b
  | .moveFill q b => queueOk q && entryBytesOk b
  | .moveSkew16 q b => queueOk q && entryBytesOk b
  | .moveAccstore q b => queueOk q && entryBytesOk b
  | .syncSignal q b => queueOk q && entryBytesOk b
  | .syncAtTime q b => queueOk q && entryBytesOk b
  | .atTimeExpire _ => true
  | .syncStepset q b => queueOk q && entryBytesOk b
  | .tongsOperationIssue _ => true
  | .tongsOperationDone _ _ _ => true
  | .descriptorComplete _ => true
  | .memctlPlace q b => queueOk q && entryBytesOk b
  | .memctlRelease q b => queueOk q && entryBytesOk b
  | .memctlPin q b => queueOk q && entryBytesOk b
  | .memctlUnpin q b => queueOk q && entryBytesOk b
  | .memctlPrefetch q b => queueOk q && entryBytesOk b
  | .memctlDemote q b => queueOk q && entryBytesOk b
  | .memctlQuery q b => queueOk q && entryBytesOk b
  | .memctlBacking q b => queueOk q && entryBytesOk b
  | .pageFillComplete _ _ => true
  | .pageEvictionComplete _ _ => true
  | .backgroundEvict t => decide (1 ≤ t) && decide (t ≤ 2)
  | .pageAgeTick => true
  | .scrubPassStart fs => fs.all fun f => decide (1 ≤ f.tier) && decide (f.tier ≤ 2) && decide (f.frame < tierFrames f.tier)
  | .scrubPeriodEnd => true
  | .frameRetireMoveLanded t f _ => decide (1 ≤ t) && decide (t ≤ 2) && decide (f < tierFrames t)
  | .flitDataReceive p fl => portOk p && flitOk fl
  | .flitNakReceive p fl => portOk p && flitOk fl
  | .flitIdleReceive p fl => portOk p && flitOk fl
  | .flitIdentReceive p fl => portOk p && flitOk fl
  | .identSendTick p => portOk p
  | .identTimeout p => portOk p
  | .portTrainDone p _ => portOk p
  | .portTrainTimeout p => portOk p
  | .portRetrainTimeout p => portOk p
  | .portLightLost p _ => portOk p
  | .portLightReturn p _ => portOk p
  | .packetForward p k => portOk p && packetOk k
  | .reqRead p k _ => portOk p && packetOk k
  | .reqWrite p k _ => portOk p && packetOk k
  | .reqPush p k => portOk p && packetOk k
  | .rspRdata p k => portOk p && packetOk k
  | .rspAck p k => portOk p && packetOk k
  | .collData p k => portOk p && packetOk k
  | .collSegend p k => portOk p && packetOk k
  | .collResend p k => portOk p && packetOk k
  | .collGrant p k => portOk p && packetOk k
  | .collCredit p k => portOk p && packetOk k
  | .collArrive p k => portOk p && packetOk k
  | .collDecide p k => portOk p && packetOk k
  | .collDeadlineExpire _ => true
  | .collReduce q b => queueOk q && entryBytesOk b
  | .collAllreduce q b => queueOk q && entryBytesOk b
  | .collReducescatter q b => queueOk q && entryBytesOk b
  | .collAllgather q b => queueOk q && entryBytesOk b
  | .collBarrier q b => queueOk q && entryBytesOk b
  | .collVote q b => queueOk q && entryBytesOk b
  | .collPermute q b => queueOk q && entryBytesOk b
  | .collXfer q b => queueOk q && entryBytesOk b
  | .collFence q b => queueOk q && entryBytesOk b
  | .collEpochset q b => queueOk q && entryBytesOk b
  | .fencePacket p k => portOk p && packetOk k
  | .fenceKeyAgeOut c _ d => ctxOk c && decide (d < 16384)
  | .treqSendTick => true
  | .timeTreq p k => portOk p && packetOk k
  | .timeTrsp p k => portOk p && packetOk k
  | .ctrlCread p k => portOk p && packetOk k
  | .ctrlCwrite p k => portOk p && packetOk k
  | .ctrlCrsp p k => portOk p && packetOk k
  | .lstateReceive p k => portOk p && packetOk k
  | .lstateSendTick => true
  | .stageArbiterDecide g b => stageOk g && entryBytesOk b
  | .schCommit _ => true
  | .schCommitEffect => true
  | .slotOpen i => entryOk i
  | .slotClose i => entryOk i
  | .schPreempt c _ => ctxOk c
  | .preemptComplete c => ctxOk c
  | .schResume c _ => ctxOk c
  | .schSwitch c _ _ => ctxOk c
  | .layerRelease c => ctxOk c
  | .loadStart v _ _ => vecOk v
  | .loadAbort v _ _ => vecOk v
  | .loadCheckDone (.read c) => decide (c.hdr.length = 128) && decide (c.sig.length = 256)
  | .loadCheckDone (.failed _) => true
  | .loadComplete _ => true
  | .remoteTimeout _ => true
  | .fillTimeout _ => true
  | .retireRequest _ _ => true
  | .autoqQuench p => partOk p
  | .autoqTimeout p => partOk p
  | .partitionQuench p _ => partOk p
  | .quenchComplete p => partOk p
  | .partitionResume p _ => partOk p
  | .contextReset c _ => ctxOk c
  | .dieFaultReset d => dieOk d
  | .dieResetRequest d _ => dieOk d
  | .dieResetComplete d => dieOk d
  | .warmResetRequest _ => true
  | .warmResetComplete => true
  | .hangScan => true
  | .replayTimeout p => partOk p
  | .healthDecay => true
  | .timingMarginDaily d => dieOk d
  | .opticalMarginSample p m => portOk p && decide (m.length = 5)
  | .claim _ => true
  | .releaseOwner _ => true
  | .setOwnerFabric _ => true
  | .enrolTenant _ => true
  | .installGlove _ => true
  | .rotateFabric _ => true
  | .fabricPrevKeyExpire => true
  | .grantHost _ => true
  | .handover _ => true
  | .handoverComplete fs => fs.all fun i => decide (1 ≤ i.1) && decide (i.1 ≤ 9)
  | .enterMaint _ => true
  | .debugUnlock _ => true
  | .exitMaint _ => true
  | .setMaintKey _ => true
  | .getMeasurements _ => true
  | .spdmKeyExchange _ e _ => decide (e < 1024)
  | .ideKmKeyProg _ _ => true
  | .lockInterface _ => true
  | .startInterface _ => true
  | .stopInterface _ => true
  | .ideIntegrityFailure => true
  | .quantWindowEnd _ => true
  | .hearthLockstepError => true
  | .hearthRestartDone => true
  | .sensorSample vs => vs.all fun x => sensorOk x.1
  | .alarmSeenClear _ _ => true
  | .eventRecordSubmit e => decide (e.skind < 13) && decide (e.sidx < 2 ^ 28)
  | .eventStageExpire _ => true
  | .rateWindowEnd => true
  | .logDropClose => true
  | .hlogHeadWrite _ _ => true
  | .hlogEntryWrite => true
  | .ownerPowerLimitSet _ _ => true
  | .fwRequestUpdate _ _ => true
  | .activateFirmware _ => true
  | .fwActivationTimeout => true
  | .svnRaise => true
  | .lockTake a _ _ => decide (a < 8)
  | .lockRelease a _ _ => decide (a < 8)
  | .marginSweepStep d => dieOk d
  | .bistRequest _ k i _ => decide (k < 16) && decide (i < 65536)
  | .bistComplete k i _ => decide (k < 16) && decide (i < 65536)
  | .bar4Read o n _ _ => bar4Ok o n
  | .bar4Write o b _ _ => bar4Ok o b.length
  | .bar4Resize l => decide (30 ≤ l) && decide (l ≤ 41)
  | .abiNegotiate r _ => decide (r < 256)
  | .remapSelect _ _ => true
  | .t3ReadCompletion _ _ => true
  | .t3CompletionTimeout _ => true
  | .msixUnmask v _ => vecOk v
  | .pcieConventionalReset => true
  | .functionLevelReset => true
  | .linkDown => true
  | .linkDownTimeout => true
  | .powerOnReset => true
  | .domainPowerUp => true
  | .powerUpComplete => true
  | .parkIdle d _ => dieOk d
  | .parkDeep d _ => dieOk d
  | .parkWake d _ => dieOk d
  | .parkWakeDone d => dieOk d
  | .standbyEnter _ => true
  | .computePowerStandby _ => true
  | .computePowerOn _ => true
  | .resetCauseClear _ => true
  | .inputUndervoltage => true
  | .inputDisconnect => true
  | .dieTrip d (.diode n) => dieOk d && n / 8 = d
  | .dieTrip d .rail => dieOk d
  | .dieTripRelease d => dieOk d
  | .moduleTrip k s => decide (3 ≤ k) && decide (k ≤ 6) && sensorOk s
  | .standbyRailLoss => true
  | .laserUnitRemoved d => dieOk d
  | .laserUnitInserted d => dieOk d
  | .laserReady d => dieOk d
  | .linkUp r w _ => decide (1 ≤ r) && decide (r ≤ 6) && [1, 2, 4, 8, 16].contains w
  | .parkEntryComplete d => dieOk d
  | .scrubPassEnd => true
  | .cycleBoundary => true
  | .configSpaceWrite o _ => decide (o < 4096) && decide (o % 4 = 0)
  | .reservedOpcode t => tileOk t
  | .reservedDescriptorClass q b => queueOk q && entryBytesOk b

end Sys2Proof
end

