-- ==== Sys2Proof/Machine/Ops.lean ====
section
/-! DEFINITION. Named operations over the whole block: the operand guard, tiles and the remap, contexts and their
flags, launch groups and partitions, signals and outputs. -/
namespace Sys2Proof

/-- 1 ms in ns. -/
def msNs : Nat := 1000000

/-- Identity place of a logical tile (R21, R22). -/
def identPhys (l : Nat) : Nat := l / 3200 * 4096 + l % 3200
/-- Logical tile of a physical tile at its identity place. -/
def identLog (p : Nat) : Nat := p / 4096 * 3200 + p % 4096
/-- Die of a logical tile. -/
def logDie (l : Nat) : Nat := l / 3200
/-- Die of a physical tile. -/
def physDie (p : Nat) : Nat := p / 4096
/-- Row of a logical tile within its die. -/
def logRow (l : Nat) : Nat := l % 3200 / 64
/-- Column of a logical tile. -/
def logCol (l : Nat) : Nat := l % 64
/-- Physical tiles of a die. -/
def dieTiles (d : Nat) : List Nat := (List.range 3328).map fun i => d * 4096 + i
/-- Logical tile at a die, row and column. -/
def mkLog (d r c : Nat) : Nat := d * 3200 + r * 64 + c

/-- A logical tile lies in a rectangle. -/
def Rect.has (r : Rect) (l : Nat) : Bool :=
  logDie l = r.die && decide (r.row0 ≤ logRow l) && decide (logRow l ≤ r.row1) && decide (r.col0 ≤ logCol l)
    && decide (logCol l ≤ r.col1)

/-- Logical tiles of a rectangle. -/
def Rect.tiles (r : Rect) : List Nat :=
  (List.range (r.row1 + 1 - r.row0)).flatMap fun i =>
    (List.range (r.col1 + 1 - r.col0)).map fun j => mkLog r.die (r.row0 + i) (r.col0 + j)

end Sys2Proof

namespace Sys2Proof.Machine

/-- A command that names no unit of the block, or whose operand does not fit its field, reaches nothing: the state stays.
Any other has its effect `t`. -/
def guardWf (ok : Bool) (s t : State) : Host.Outcome State Fault Refusal := .next (if ok then t else s)

/-- Reference time now. -/
def State.now (s : State) : Nat := s.time.now

/-- The time of a recurring event has come: a multiple of its interval lies between its last one and now. -/
def State.recurs (s : State) (r : Recur) : Bool := decide (SMap.getD s.time.marks r.key 0 < s.now / r.interval)

/-- A recurring event takes place. -/
def State.recurred (s : State) (r : Recur) : State :=
  { s with time := { s.time with marks := SMap.set s.time.marks r.key (s.now / r.interval) } }

/-- Draw a free value: something the spec leaves open. -/
def State.draw (s : State) : W64 × State := (Sys2Proof.Config.freeValue s.free, { s with free := s.free + 1 })

/-- Put something out. -/
def State.emit (s : State) (o : Out) : State := { s with out := s.out ++ [o] }

/-! Tiles -/

/-- The present physical tile of a logical tile; none when it is unmapped (R26, R343). -/
def State.phys (s : State) (l : Nat) : Option Nat := SMap.getD s.remap l (some (identPhys l))

/-- The logical tile a physical tile stands for, if any. -/
def State.logOf (s : State) (p : Nat) : Option Nat :=
  match s.remap.find? fun e => e.2 == some p with
  | some e => some e.1
  | none =>
    let l := identLog p
    if p % 4096 < 3200 && s.phys l == some p then some l else none

/-- A physical tile. -/
def State.ptile (s : State) (p : Nat) : Tile := SMap.getD s.tiles p Tile.reset
/-- Store a physical tile. -/
def State.setPtile (s : State) (p : Nat) (t : Tile) : State := { s with tiles := SMap.setD s.tiles p t Tile.reset }
/-- A logical tile; an unmapped one reads as at reset. -/
def State.tile (s : State) (l : Nat) : Tile := match s.phys l with | some p => s.ptile p | none => Tile.reset
/-- Tongs engine of a logical tile on its die: TILE_TNG_SEL (R161, R343). -/
def State.engineOf (s : State) (l : Nat) : Nat := match (s.tile l).tngSel with | some e => e.toNat | none => logCol l
/-- Store a logical tile; nothing when it is unmapped. -/
def State.setTile (s : State) (l : Nat) (t : Tile) : State := match s.phys l with | some p => s.setPtile p t | none => s

/-- Change every tile that satisfies `f`, among those not at reset. -/
def State.mapTiles (s : State) (f : Nat → Tile → Bool) (g : Tile → Tile) : State :=
  { s with tiles := (s.tiles.map fun e => if f e.1 e.2 then (e.1, g e.2) else e).filter fun e => e.2 ≠ Tile.reset }

/-- Logical tiles that a context holds. -/
def State.ctxTiles (s : State) (c : Nat) : List Nat :=
  (s.tiles.filter fun e => e.2.ctx = some c).filterMap fun e => s.logOf e.1

/-! Contexts -/

/-- A defined context. -/
def State.ctx? (s : State) (c : Nat) : Option Ctx := SMap.get? s.ctxs c
/-- Change a defined context. -/
def State.modCtx (s : State) (c : Nat) (f : Ctx → Ctx) : State := { s with ctxs := SMap.adj s.ctxs c f }
/-- The context is defined and satisfies `f`. -/
def State.ctxIs (s : State) (c : Nat) (f : Ctx → Bool) : Bool := match s.ctx? c with | some x => f x | none => false

/-- Partition of a logical tile (R29). -/
def State.partOf (s : State) (l : Nat) : Option Nat := (s.load.prects.find? fun r => r.has l).map (·.id)

/-- The bitstream gives a logical tile to a context: it lies in the context's partition (R343). -/
def State.tileGiven (s : State) (c l : Nat) : Bool :=
  match s.ctx? c with | some x => s.partOf l == some x.part | none => false

/-- Context that owns a launch group. -/
def State.lgrpCtx (s : State) (g : Nat) : Option Nat := (s.load.lrects.find? fun r => r.id = g).map (·.ctx)
/-- Logical tiles of a launch group, in ascending order. -/
def State.lgrpTiles (s : State) (g : Nat) : List Nat :=
  sortBy (fun (a b : Nat) => decide (a ≤ b)) ((s.load.lrects.filter fun r => r.id = g).flatMap Rect.tiles)
/-- A logical tile belongs to a launch group. -/
def State.inLgrp (s : State) (g l : Nat) : Bool := s.load.lrects.any fun r => r.id = g && r.has l

/-- Logical tiles of a context's step group. -/
def State.stepTiles (s : State) (c : Nat) : List Nat :=
  match s.ctx? c with
  | some x => (match x.stepg with | some g => s.lgrpTiles g | none => [])
  | none => []
/-- A logical tile belongs to the step group of a context. -/
def State.inStep (s : State) (c l : Nat) : Bool :=
  match s.ctx? c with
  | some x => (match x.stepg with | some g => s.inLgrp g l | none => false)
  | none => false
/-- The context's step group is empty (R131). -/
def State.stepless (s : State) (c : Nat) : Bool := (s.stepTiles c).isEmpty

/-- Contexts of a partition. -/
def State.partCtxs (s : State) (p : Nat) : List Nat := (s.ctxs.filter fun e => e.2.part = p).map (·.1)

/-! Queues, descriptors, signals -/

/-- A queue. -/
def State.queue (s : State) (q : Nat) : Queue := SMap.getD s.queues q Queue.reset
/-- Store a queue. -/
def State.setQueue (s : State) (q : Nat) (x : Queue) : State := { s with queues := SMap.setD s.queues q x Queue.reset }
/-- Change a queue. -/
def State.modQueue (s : State) (q : Nat) (f : Queue → Queue) : State := s.setQueue q (f (s.queue q))
/-- Change a descriptor in progress. -/
def State.modDesc (s : State) (id : Nat) (f : Desc → Desc) : State := { s with descs := SMap.adj s.descs id f }
/-- A descriptor in progress. -/
def State.desc? (s : State) (id : Nat) : Option Desc := SMap.get? s.descs id

/-- Descriptors of a queue started and not completed. -/
def State.startedOf (s : State) (q : Nat) : List (Nat × Desc) :=
  s.descs.filter fun e => match e.2.src with | .queue q' _ => q' = q | _ => false

/-- Descriptors of a context in progress. -/
def State.ctxDescs (s : State) (c : Nat) : List (Nat × Desc) := s.descs.filter fun e => e.2.hdr.ctx = c

/-- Descriptors and pushes of a tile's TNG.EXEC and TNG.PUSH commands in progress (R136). -/
def State.execCount (s : State) (l : Nat) : Nat :=
  (s.descs.filter fun e => match e.2.src with | .exec l' _ => l' = l | _ => false).length
    + (s.fab.txns.filter fun e => match e.2.who with | .push l' _ => l' = l | _ => false).length

/-- Send a signal on its way (R127). -/
def State.signal (s : State) (x : Signal) : State := { s with sigs := s.sigs ++ [x] }

/-! Dies -/

/-- A die's power and reset state. -/
def State.die (s : State) (d : Nat) : Die := SMap.getD s.pwr.dies d Die.reset
/-- Change a die's power and reset state. -/
def State.modDie (s : State) (d : Nat) (f : Die → Die) : State :=
  { s with pwr := { s.pwr with dies := SMap.modD s.pwr.dies d Die.reset f } }
/-- Dies whose storage cannot be reached: in reset, tripped, in or waking from deep-park (R34, R461). -/
def State.downDies (s : State) : List Nat :=
  (List.range 8).filter fun d => (s.die d).rst.isSome || (s.die d).trip || (s.die d).park = .deep
    || ((s.die d).park = .waking && (s.die d).deep)

/-- A cause of R460 or R461 wakes a parked die; leaving deep-park loses its tiles' state. A die on its way into a park
has lost nothing yet. -/
def State.wakeDie (s : State) (d : Nat) : State :=
  match (s.die d).park with
  | .idle => s.modDie d fun x => { x with park := .waking, deep := false, since := s.now }
  | .entering => s.modDie d fun x => { x with park := .waking, deep := false, since := s.now }
  | .deep => s.modDie d fun x => { x with park := .waking, deep := true, since := s.now }
  | _ => s

/-- A load, a handover or a test needs a die: deep-park ends (R461). -/
def State.wakeDeep (s : State) (d : Nat) : State :=
  if (s.die d).park = .deep || ((s.die d).park = .entering && (s.die d).deep) then s.wakeDie d else s

/-- Compute is running: the 48 V domain is up and no device warm reset is in progress. -/
def State.computeOn (s : State) : Bool := s.pwr.dom = .on && s.pwr.warm.isNone

/-- Supply set of a die, in mV (BLW_DIE). -/
def State.dieMv (s : State) (d : Nat) : Nat := SMap.getD s.hrt.dieMv d 0
/-- Monitor of a physical tile (Table 2.3). -/
def State.brmOf (s : State) (p : Nat) : Brm :=
  match SMap.get? s.brm p with | some b => b | none => SMap.getD s.brmDie (physDie p) Brm.reset
/-- Store a physical tile's monitor. -/
def State.setBrm (s : State) (p : Nat) (b : Brm) : State :=
  { s with brm := SMap.setD s.brm p b (SMap.getD s.brmDie (physDie p) Brm.reset) }

end Sys2Proof.Machine
end

