-- ==== Sys2Proof/Machine/Events.lean ====
section
/-! DEFINITION. Event records, alarms, MSI-X messages, requests to host memory and host-interface error reporting
(chapters 14 and 15). -/
namespace Sys2Proof

/-- Class (0 DEVICE, 1 CONTEXT, 2 SECURITY) and priority of an event code (Table 14.4). -/
def evInfo (code : Nat) : Nat × Nat :=
  match code with
  | 0x0101 => (0, 1) | 0x0102 => (0, 2) | 0x0103 => (1, 3) | 0x01FF => (0, 1)
  | 0x0201 => (0, 0) | 0x0202 => (1, 2) | 0x0203 => (0, 1) | 0x0204 => (0, 2) | 0x02FF => (1, 1)
  | 0x0301 => (0, 1) | 0x0302 => (0, 2) | 0x0303 => (0, 2) | 0x0304 => (0, 1) | 0x0305 => (0, 2) | 0x03FF => (0, 1)
  | 0x0401 => (1, 2) | 0x0402 => (1, 2) | 0x0403 => (1, 2) | 0x0404 => (1, 3) | 0x04FF => (1, 1)
  | 0x0501 => (0, 3) | 0x0502 => (0, 3) | 0x0503 => (0, 1) | 0x0504 => (0, 3) | 0x05FF => (0, 1)
  | 0x0601 => (0, 3) | 0x0602 => (0, 3) | 0x0603 => (0, 2) | 0x0604 => (0, 1) | 0x0605 => (0, 1) | 0x0606 => (2, 3)
  | 0x0607 => (0, 3)
  | 0x0701 => (2, 3) | 0x0702 => (2, 2)
  | _ => (0, 1)

/-- Records the flash ring holds (Table 14.1). -/
def ringCap : Nat := 2097152
/-- Records the host-path queue holds (R426). -/
def hlogCap : Nat := 4096

/-- R424 on a full store: the new store and the priority of the record dropped. `none` leaves room. -/
def admitRec (cap : Nat) (l : List LogRec) (r : LogRec) : List LogRec × Option Nat :=
  if l.length < cap then (l ++ [r], none)
  else
    match l.foldl (fun (b : Option LogRec) x => match b with | none => some x | some y => if x.prio < y.prio then some x else some y) none with
    | none => (l, some r.prio)
    | some v => if r.prio < v.prio then (l, some r.prio) else (l.erase v ++ [r], some v.prio)

/-- Add one to the count of a priority. -/
def bumpDrop (ds : List Nat) (p cap : Nat) : List Nat := listSet ds p (min (ds.getD p 0 + 1) cap)

/-- A drop counts and enters the open LOG_DROP (R425). -/
def Hrt.drop (h : Hrt) (p now : Nat) : Hrt :=
  { h with
    drops := listSet h.drops p (satInc (h.drops.getD p 0))
    logDrop := match h.logDrop with
      | some (t, cs) => some (t, bumpDrop cs p 0xFFFFFF)
      | none => some (now, bumpDrop [0, 0, 0, 0] p 0xFFFFFF) }

/-- Offer a committed record to the host path (R426). -/
def Hrt.offer (h : Hrt) (fine : Bool) (r : LogRec) : Hrt :=
  if !h.hlogEn || (r.cls = 1 && !fine) then h
  else
    let (q, d) := admitRec hlogCap h.hlogQueue r
    { h with hlogQueue := q, hlogDrops := if d.isSome then satInc h.hlogDrops else h.hlogDrops }

/-- Commit a record to the flash ring and offer it to the host path (R423 stage 4, R424). A record that the full ring
refuses takes no sequence number. -/
def Hrt.commit (h : Hrt) (fine : Bool) (e : EvRec) (time count now : Nat) : Hrt :=
  let (cls, prio) := evInfo e.code
  let r : LogRec := ⟨e, time, h.nextSeq, prio, cls, count⟩
  let (ring, d) := admitRec ringCap h.ring r
  let taken := ring.any fun x => x.seq = r.seq && decide (x = r)
  let h := { h with ring := ring, nextSeq := if taken then h.nextSeq + 1 else h.nextSeq }
  let h := match d with | some p => h.drop p now | none => h
  if taken then h.offer fine r else h

/-- One token of a bucket's level. -/
def tokenNs : Nat := 1000000000

/-- Bucket of a source now: it refills at RATE tokens a second up to RATE tokens, and begins full (R423 stage 2). -/
def Hrt.bucket (h : Hrt) (k : Nat × Nat) (now : Nat) : Bucket :=
  match h.buckets.find? fun b => b.1 = k with
  | some b => { b.2 with level := min (b.2.level + (now - b.2.at_) * h.rate.toNat) (h.rate.toNat * tokenNs), at_ := now }
  | none => ⟨h.rate.toNat * tokenNs, now, 0⟩
/-- Store a bucket. -/
def Hrt.setBucket (h : Hrt) (k : Nat × Nat) (b : Bucket) : Hrt :=
  { h with buckets := (h.buckets.filter fun x => x.1 ≠ k) ++ [(k, b)] }

/-- Stage or commit a record that has its token (R423 stages 3 and 4). -/
def Hrt.stage (h : Hrt) (fine : Bool) (e : EvRec) (time now : Nat) : Hrt :=
  if h.coalMs = 0 then h.commit fine e time 1 now
  else { h with staging := h.staging ++ [⟨e, time, 1, now + h.coalMs.toNat * 1000000⟩] }

/-- A record of an event at `time` passes through the stages of R423. -/
def Hrt.pass (h : Hrt) (fine : Bool) (e : EvRec) (time now : Nat) : Hrt :=
  match h.staging.findIdx? fun x => x.ev = e with
  | some i =>
    match h.staging[i]? with
    | some x => { h with staging := listSet h.staging i { x with count := min (x.count + 1) 4095 } }
    | none => h
  | none =>
    if (evInfo e.code).2 = 3 || e.code = 0x0602 || e.code = 0x0603 then h.stage fine e time now
    else
      let k := (e.skind, e.sidx)
      let b := h.bucket k now
      if b.level < tokenNs then h.setBucket k { b with supp := b.supp + 1 }
      else (h.setBucket k { b with level := b.level - tokenNs }).stage fine e time now

/-- A source reports a record; during a Hearth restart it waits in the hardware FIFO of 1,024 records (R416). -/
def Hrt.submit (h : Hrt) (fine : Bool) (e : EvRec) (now : Nat) : Hrt :=
  if h.ready then h.pass fine e now now
  else if h.fifo.length < 1024 then { h with fifo := h.fifo ++ [(e, now)] }
  else h.drop (evInfo e.code).2 now

/-- Word `i` of the MSI-X table; vector control words reset to masked (PCIe Base 6.0). -/
def Hif.msixWord (h : Hif) (i : Nat) : W32 := SMap.getD h.msix i (if i % 4 = 3 then 1 else 0)

/-- A vector may send now. -/
def Hif.msixOpen (h : Hif) (v : Nat) : Bool :=
  h.linkUp && h.msixEn && !h.msixMask && !(h.msixWord (4 * v + 3)).getLsbD 0

/-- Host bus address of a T3 offset: the T3 window maps the host's address space (R197). -/
def t3Addr (a : Nat) : Nat := a - 0x400000000000

/-- Temperature sensors of Table 14.2. -/
def isTemp (n : Nat) : Bool := decide (n < 96) || n = 136 || n = 137

/-- A reading enters the window of `n` (R404). -/
def Hrt.addReading (h : Hrt) (n : Nat) (v : Int) : Hrt :=
  let x := SMap.getD h.sums n (0, 0)
  { h with sums := SMap.set h.sums n (x.1 + v, x.2 + 1) }

end Sys2Proof

namespace Sys2Proof.Machine

/-- A source of the block reports an event. -/
def State.event (s : State) (e : EvRec) : State := { s with hrt := s.hrt.submit s.sec.fine e s.now }

/-- An event record of plain fields. -/
def State.ev (s : State) (code skind sidx arg0 arg1 : Nat) : State :=
  s.event ⟨code, skind, sidx, BitVec.ofNat 32 arg0, BitVec.ofNat 64 arg1⟩

/-- A sensor's present value. -/
def State.sensor (s : State) (n : Nat) : Sensor := SMap.getD s.hrt.sensors n ⟨false, 0⟩

/-- A sensor has been read and its signed value lies outside `[lo, hi]`. -/
def State.outside (s : State) (n : Nat) (lo hi : Int) : Bool :=
  let x := s.sensor n
  x.valid && (decide (x.value.toInt < lo) || decide (hi < x.value.toInt))

/-- An unsigned reading lies outside `[lo, hi]`. -/
def State.outsideU (s : State) (n lo hi : Nat) : Bool :=
  let x := s.sensor n
  x.valid && (decide (x.value.toNat < lo) || decide (hi < x.value.toNat))

/-- A die with its core rail up is outside the guarantee domain: its supply is below 0.68 V, or a diode reads above 95 °C
(R41, R43). -/
def State.outOfDomain (s : State) (d : Nat) : Bool :=
  let mv := SMap.getD s.hrt.dieMv d 0
  mv != 0 && (decide (mv < 680) || (List.range 8).any fun i => s.outside (8 * d + i) (-32768) (95 * 16))

/-- The alarms whose conditions hold (Table 14.5). -/
def State.alarmNow (s : State) : W32 :=
  BitVec.ofNat 32 ((((List.range 8).filter fun d => s.hrt.floorLost.contains d || s.outOfDomain d).foldl (fun a d => setBits a d 1 1) 0)
    + b2n s.hrt.overridden * 2 ^ 8
    + b2n (s.outside 136 (20 * 16) (40 * 16)) * 2 ^ 9
    + b2n (s.outsideU 133 40000 56000) * 2 ^ 10
    + b2n (s.outsideU 134 11400 12600) * 2 ^ 11
    + b2n (!(List.range 8).all fun d => s.pwr.lasersOk.contains d) * 2 ^ 12
    + b2n s.hrt.logDrop.isSome * 2 ^ 13
    + b2n (!(if s.hrt.slotB then s.hrt.imageA.valid else s.hrt.imageB.valid)) * 2 ^ 14
    + b2n s.mem.scrubBehind * 2 ^ 15)

/-- The sideband signal ALERT# is asserted (Table 17.4). -/
def State.alertPin (s : State) : Bool := decide (s.hrt.alarm ≠ 0)

/-- Bring HRT_ALARM up to date; a change enters HRT_ALARM_SEEN and writes an ALARM record (R427). -/
def State.refreshAlarm (s : State) : State :=
  let a := s.alarmNow
  if a = s.hrt.alarm then s
  else
    let old := s.hrt.alarm
    let s := { s with hrt := { s.hrt with alarm := a, seen := s.hrt.seen ||| a } }
    s.ev 0x0601 0 0 a.toNat old.toNat

/-! MSI-X -/

/-- Send a vector's message, or set its pending bit while it is masked or the link is down (R450, R456). -/
def State.msix (s : State) (v : Nat) : State :=
  if s.hif.msixOpen v then s.emit (.msix v)
  else if s.hif.pba.contains v then s
  else { s with hif := { s.hif with pba := s.hif.pba ++ [v] } }

/-- A signal on its way is over: the message of the completion it belongs to is sent (R148). -/
def State.sigIrq (s : State) (g : Signal) : State := match g.irq with | some v => s.msix v | none => s

/-- Signals of a context on their way are given up. -/
def State.dropSigs (s : State) (c : Nat) : State :=
  (s.sigs.filter fun g => g.ctx = c).foldl State.sigIrq { s with sigs := s.sigs.filter fun g => g.ctx ≠ c }

/-- Send the messages of every pending vector that has become free to send (R450). -/
def State.flushMsix (s : State) : State :=
  let go := s.hif.pba.filter s.hif.msixOpen
  { s with hif := { s.hif with pba := s.hif.pba.filter fun v => !s.hif.msixOpen v }, out := s.out ++ go.map .msix }

/-! Host memory -/

/-- Every T3 access completes with DENIED: bus mastering is off, or TDISP is in ERROR (R400, R449). -/
def State.t3Denied (s : State) : Bool := !s.hif.busMaster || s.sec.tdi = .error

/-- A request to host memory goes out, or waits for the link (R456). -/
def State.t3Out (s : State) (o : Out) : State :=
  if s.hif.linkUp then s.emit o else { s with hif := { s.hif with held := s.hif.held ++ [o] } }

/-- Issue a read of host memory; answers its tag. -/
def State.t3Read (s : State) (who : Option (Nat × Nat)) (addr n : Nat) : State × Nat :=
  let tag := s.hif.nextTag
  let s := { s with hif := { s.hif with nextTag := tag + 1, t3 := SMap.set s.hif.t3 tag ⟨who, addr, n, s.now⟩ } }
  (s.t3Out (.t3Read tag addr n), tag)

/-! Host-interface error reporting -/

/-- Record a status against a host access (R453): `bar` is 0, 1 or 2 for BAR0, BAR2 and BAR4. -/
def State.record (s : State) (bar off : Nat) (write : Bool) (st : Status) : State :=
  let h := s.hif
  let was := h.err
  let s := { s with hif := { h with
    errCount := satInc h.errCount, errLast := st, errNext := (h.errNext + 1) % 16, err := true
    errLog := SMap.set h.errLog h.errNext ⟨off, bar, write, st⟩ } }
  if h.errIrq && !was then s.msix h.errVec else s

end Sys2Proof.Machine
end

