-- ==== Sys2Proof/Machine/Faults.lean ====
section
/-! DEFINITION. Context flags, tile health, context faults, and how a tile's units act on the rest of the block
(R138, R176, R179, R360, R361, R366, R384). -/
namespace Sys2Proof

/-- The body is a LAUNCH. -/
def Desc.isLaunch (d : Desc) : Bool := match d.body with | .launch _ _ _ _ _ => true | _ => false

/-- Mark a tile's program as faulted (R138 step 1). DESIGN CHOICE: an address of 262,144, which the 18-bit field cannot
hold, is stored modulo 2^18 (R116 gives no value). -/
def Tile.fault (t : Tile) (st : Status) (pc : Nat) : Tile :=
  { t with cpState := .faulted, cpLastErr := st, faultPc := BitVec.ofNat 18 pc, wait := none, patches := [] }

/-- A new incident among those of the last 24 hours, each a temperature bin and a time (R361). -/
def alikeNow (l : List (Nat × Nat)) (tbin now : Nat) : List (Nat × Nat) :=
  (l.filter fun e => decide (now ≤ e.2 + day24)) ++ [(tbin, now)]

/-- Three incidents of one temperature bin lie among them (R361). -/
def threeAlike (l : List (Nat × Nat)) (tbin : Nat) : Bool := decide (3 ≤ (l.filter fun e => e.1 = tbin).length)

end Sys2Proof

namespace Sys2Proof.Machine

/-! Flags -/

/-- Set a context's device flag: PSN when `psn`, else OVF (R176). A flag first set after the step's vote, outside a
replay, counts in LATE_FLAGS and is recorded (R179). DESIGN CHOICE: the record has code 0x04FF of the context with ARG0 0;
R179 asks for a record and gives no code. -/
def State.setFlag (s : State) (c : Nat) (psn : Bool) : State :=
  match s.ctx? c with
  | none => s
  | some x =>
    let fresh := if psn then !x.psn else !x.ovf
    let late := fresh && x.voted && !x.replaying
    let s := s.modCtx c fun x =>
      { x with psn := x.psn || psn, ovf := x.ovf || !psn, lateFlags := if late then satInc x.lateFlags else x.lateFlags }
    if late then s.ev 0x04FF 7 c 0 0 else s

/-- A tile has supplied a node of a context: its history keeps the last four distinct tiles (R371). -/
def State.supplied (s : State) (v : Nat × Vtx) (l : Nat) : State :=
  let old := ((s.flt.suppliers.find? fun e => e.1 = v).map Prod.snd).getD []
  let new := (l :: old.filter (· ≠ l)).take 4
  { s with flt := { s.flt with suppliers := (s.flt.suppliers.filter fun e => e.1 ≠ v) ++ [(v, new)] } }

/-! Tile health -/

/-- Health of a physical tile. -/
def State.health (s : State) (p : Nat) : Health := SMap.getD s.flt.health p Health.reset
/-- Store a tile's health. -/
def State.setHealth (s : State) (p : Nat) (h : Health) : State :=
  { s with flt := { s.flt with health := SMap.setD s.flt.health p h Health.reset } }

/-- Add to a tile's score; HEALTH_WARN when it first reaches 4,096 (R384). -/
def State.addScore (s : State) (p w : Nat) : State :=
  let h := s.health p
  let sc := satAdd h.score w
  if sc.toNat ≥ 4096 && !h.warned then (s.setHealth p { h with score := sc, warned := true }).ev 0x0305 1 p sc.toNat 0
  else s.setHealth p { h with score := sc }

/-- A physical tile is in the retirement record. -/
def State.isRetired (s : State) (p : Nat) : Bool := s.flt.retired.any fun r => r.1 = p
/-- A physical tile is due for retirement. -/
def State.isDue (s : State) (p : Nat) : Bool := s.flt.due.any fun d => d.ptile = p
/-- A spare not in use: row 50 or 51 and standing in for no tile (R25). -/
def State.freeSpare (s : State) (p : Nat) : Bool :=
  decide (p % 4096 / 64 ≥ 50) && !s.isRetired p && !(s.flt.retired.any fun r => r.2 == some p) && (s.logOf p).isNone

/-- Make a tile due for retirement; CAUSE records the first condition (R361). -/
def State.dueTile (s : State) (p cause : Nat) : State :=
  if s.isRetired p || s.isDue p then s
  else
    let h := s.health p
    let s := s.setHealth p { h with cause := if h.cause = 0 then cause else h.cause }
    { s with flt := { s.flt with due := s.flt.due ++ [⟨p, s.now⟩] } }

/-- An incident of a physical tile (R360 to R362, R384). -/
def State.incident (s : State) (p rows tbin nbr : Nat) : State :=
  let h := s.health p
  let rs := h.recent ++ [⟨s.now, min rows 0xFFFF, tbin, nbr⟩]
  let h := { h with incidents := satInc h.incidents, recent := rs.drop (rs.length - 8), alike := alikeNow h.alike tbin s.now }
  let s := (s.setHealth p h).addScore p 256
  if threeAlike h.alike tbin then s.dueTile p 1 else s

/-- Corrected storage reads of a physical tile (R361, R384). -/
def State.correctedReads (s : State) (p n : Nat) : State :=
  let h := s.health p
  let cs := (h.ces.filter fun t => decide (s.now < t + day24)) ++ List.replicate n s.now
  let s := (s.setHealth p { h with ces := cs.drop (cs.length - 8) }).addScore p (16 * n)
  if cs.length ≥ 8 then s.dueTile p 3 else s

/-! Faults of contexts -/

/-- Finish a descriptor with a status: its completion actions follow with DESCRIPTOR_COMPLETE. -/
def State.finish (s : State) (id : Nat) (st : Status) : State :=
  s.modDesc id fun d => if d.st = .finished then d else { d with st := .finished, status := d.status.worse st }

/-- LAUNCHes of a context not yet finished. -/
def State.launchesOf (s : State) (c : Nat) : List Nat :=
  ((s.ctxDescs c).filter fun e => e.2.isLaunch && e.2.st ≠ .finished).map (·.1)

/-- A context enters the faulted state (R138 steps 3 to 6, R366): every other running tile stops, the LAUNCH `lead`
completes with the status and the others with ABANDONED, the fault is recorded. A context enters it once. -/
def State.enterFaulted (s : State) (c : Nat) (st : Status) (src : Nat) (lead : Option Nat) : State :=
  if !s.ctxIs c fun x => decide (x.flt ≠ .faulted) then s
  else
    let s := s.mapTiles (fun _ t => t.ctx = some c && t.active) fun t => t.fault .ok t.faultPc.toNat
    let s := (s.launchesOf c).foldl (fun s id =>
      if some id = lead then
        s.modDesc id fun d => { d with st := .finished, status := st, fault := some st }
      else s.modDesc id fun d => { d with st := .finished, status := .abandoned }) s
    let s := s.modCtx c fun x => { x with flt := .faulted, fltStatus := st, fltSource := src, faults := satInc x.faults }
    s.ev 0x0401 7 c (st.code + src * 256) 0

/-- The program of a logical tile faults (R138). A tile no context holds is only marked. -/
def State.faultTile (s : State) (l : Nat) (st : Status) (pc : Nat) : State :=
  let t := s.tile l
  let s := s.setTile l (t.fault st pc)
  match t.ctx with
  | some c => s.enterFaulted c st l t.launch
  | none => s

/-! A tile's units and the block -/

/-- Keep the record of when a tile's present wait began, and of waits that ended since the last scan (R373, R376). -/
def State.noteWait (s : State) (p l : Nat) (old new : Tile) : State :=
  if new.wait.isNone then
    if old.wait.isNone then s
    else { s with flt := { s.flt with waitAt := SMap.erase s.flt.waitAt p, ended := s.flt.ended ++ [.tile l] } }
  else if old.wait = new.wait then s
  else { s with flt := { s.flt with waitAt := SMap.set s.flt.waitAt p s.now } }

/-- Temperature bin of a die: its hottest diode, in 5 °C bins (R84, R419). -/
def State.tbin (s : State) (d : Nat) : Nat :=
  let hot := (List.range 8).foldl (fun (m : Int) i => let x := s.sensor (8 * d + i); if x.valid && m < x.value.toInt then x.value.toInt else m) 0
  min 31 (hot.toNat / 80)

/-- What a unit of a logical tile asks of the block. -/
def State.applyEff (s : State) (l p : Nat) (e : TEff) : State :=
  let c := (s.ptile p).ctx
  match e with
  | .signal sem pc => s.signal ⟨l, sem, 1, none, some pc, none, c.getD 0, none⟩
  | .fault st pc => s.faultTile l st pc
  | .ovf => match c with | some c => s.setFlag c false | none => s
  | .psn => match c with | some c => s.setFlag c true | none => s
  | .event code a => s.ev code 1 p a 0
  | .incident rows tb nbr => s.incident p rows tb nbr
  | .ue _ => s.dueTile p 3
  | .ce n => s.correctedReads p n
  | .skipped =>
    match (s.ptile p).launch, c with
    | some id, some c =>
      let st := if s.ctxIs c fun x => decide (x.lastResult = 2) then Status.overflowSkip else Status.poisoned
      s.modDesc id fun d => { d with skip := some ((d.skip.getD .ok).worse st) }
    | _, _ => s

/-- Run a unit of a logical tile; an unmapped tile has none. -/
def State.onTile (s : State) (l : Nat) (f : Tile → TStep) : State :=
  match s.phys l with
  | none => s
  | some p =>
    let t := s.ptile p
    let (t', es) := f t
    es.foldl (fun s e => s.applyEff l p e) ((s.setPtile p t').noteWait p l t t')

/-- The descriptor comes from a queue of traffic class BACKFILL. -/
def State.isBackfill (s : State) (d : Desc) : Bool :=
  match d.src with | .queue q _ => (s.queue q).tcls = 2 | _ => false

/-- BACKFILL work pauses on the die of the tile, and the tile runs a BACKFILL LAUNCH (R50). -/
def State.bfHeld (s : State) (l : Nat) (t : Tile) : Bool :=
  s.hrt.bfPause.contains (logDie l) && (match t.launch.bind s.desc? with | some d => s.isBackfill d | none => false)

/-- The tile may issue: its program runs, it is not held or paused, and neither is its context (R50, R363, R374). -/
def State.mayIssue (s : State) (l : Nat) (t : Tile) : Bool :=
  t.active && t.wait ≠ some .hold && !s.bfHeld l t &&
    (match t.ctx with | some c => s.ctxIs c fun x => decide (x.flt ≠ .held) | none => false)

/-- Issue the instruction at PC when its opcode satisfies `op`: `f` gives the state after it from the patched encoding
and its length. A fetch beyond the scratchpad or over an uncorrectable word faults the tile program (R116, R220). -/
def State.issue (s : State) (l : Nat) (op : Nat → Bool) (f : State → Tile → Nat → Nat → State) : State :=
  match s.phys l with
  | none => s
  | some p =>
    let t := s.ptile p
    if !s.mayIssue l t then s
    else
      match t.fetch with
      | .beyond => s.faultTile l .range t.pc
      | .bad n => (s.onTile l fun t => t.countSpdUe n).faultTile l .parity t.pc
      | .instr w len => if op (nbits w 0 8) then f s t w len else s

/-- A control instruction that stays within its tile. -/
def State.ctl (s : State) (l op : Nat) (f : Tile → Nat → CtlRes) : State :=
  s.issue l (fun o => o = op) fun s t w _ =>
    match f t w with
    | .done t' => s.onTile l fun _ => (t', [])
    | .wait k => s.onTile l fun t => (t.waitFor k, [])
    | .bad st => s.faultTile l st t.pc

end Sys2Proof.Machine
end

