-- ==== Sys2Proof/Machine/AnvilCmds.lean ====
section
/-! DEFINITION. The Anvil's commands (chapter 03). -/
namespace Sys2Proof.Machine

/-- A broadcast tile: row and column multiples of 4 (R23, R24). -/
def broadcastTile (l : Nat) : Bool := logRow l % 4 = 0 && logCol l % 4 = 0

/-- ANV_PASS (R72, R73): checked, then accepted, or rejected with a fault of the tile program; with the queue full it
waits. -/
def execAnvPass (tile : Nat) (s : State) : Host.Outcome State Fault Refusal :=
  guardWf (tileOk tile) s <| s.issue tile (fun o => o = 0x10) fun s t w len =>
    match anvCheck t (broadcastTile tile) w with
    | .error e => (s.onTile tile fun t => (t.anvRejectWith e, [])).faultTile tile e t.pc
    | .ok p =>
      s.onTile tile fun t => if t.anvFull then (t.waitFor .unit, []) else ((t.anvAccept p t.pc).advance len, [])

/-- ANV_WEIGHT_LOAD (R70, R71). -/
def execAnvWeightLoad (tile : Nat) (hw : List StoreErr) (s : State) : Host.Outcome State Fault Refusal :=
  guardWf (tileOk tile) s <| s.onTile tile fun t =>
    let (t, e1) := t.hit hw
    let (t, e2) := t.anvLoad
    (t, e1 ++ e2)

/-- ANV_PASS_ISSUE (R63, R78). -/
def execAnvPassIssue (tile : Nat) (hw : List StoreErr) (s : State) : Host.Outcome State Fault Refusal :=
  guardWf (tileOk tile) s <| s.onTile tile fun t =>
    let (t, e1) := t.hit hw
    let (t, e2) := t.anvIssue
    (t, e1 ++ e2)

/-- The up to eight adjacent logical tiles of the same die (R84). -/
def neighbours (l : Nat) : List Nat :=
  (List.range 9).filterMap fun i =>
    let r := logRow l + i / 3
    let c := logCol l + i % 3
    if i ≠ 4 && decide (1 ≤ r) && decide (r ≤ 50) && decide (1 ≤ c) && decide (c ≤ 64) then some (mkLog (logDie l) (r - 1) (c - 1)) else none

/-- Neighbour-activity count: adjacent tiles whose Anvil is issuing or draining a pass (R84). -/
def State.nbr (s : State) (l : Nat) : Nat := ((neighbours l).filter fun n => (s.tile n).anvMoving).length

/-- ANV_ROW_LAND (R80, R82 to R84): `errs` are bit errors of the row's columns (16: the checksum column). -/
def execAnvRowLand (tile : Nat) (hw : List StoreErr) (errs : List (Nat × W32)) (s : State) :
    Host.Outcome State Fault Refusal :=
  guardWf (tileOk tile && errs.all fun x => decide (x.1 ≤ 16)) s <| s.onTile tile fun t =>
    let (t, e1) := t.hit hw
    let (t, e2) := t.anvLand errs (s.tbin (logDie tile)) (s.nbr tile)
    (t, e1 ++ e2)

/-- ANV_PASS_COMPLETE (R79, R360). -/
def execAnvPassComplete (tile : Nat) (s : State) : Host.Outcome State Fault Refusal :=
  guardWf (tileOk tile) s <| s.onTile tile Tile.anvComplete

end Sys2Proof.Machine
end

