-- ==== Sys2Proof/Machine/ControlCmds.lean ====
section
/-! DEFINITION. The control core's commands that touch no queue and complete no step (chapter 05). -/
namespace Sys2Proof.Machine

/-- CTL_NOP (R118). -/
def execCtlNop (tile : Nat) (s : State) : Host.Outcome State Fault Refusal :=
  guardWf (tileOk tile) s <| s.ctl tile 0x00 Tile.ctlNop

/-- CTL_END (R129): the tile waits for its units. -/
def execCtlEnd (tile : Nat) (s : State) : Host.Outcome State Fault Refusal :=
  guardWf (tileOk tile) s <| s.ctl tile 0x01 fun _ w => if ctlBareOk w then .wait .fin else .bad .rsvdSet

/-- A tile's part of its LAUNCH is complete; the last part completes the LAUNCH (R129, Table 5.6). -/
def State.partDone (s : State) (l id : Nat) : State :=
  s.modDesc id fun d =>
    match d.body with
    | .launch e g args left n =>
      let left' := left.filter (· ≠ l)
      { d with
        body := .launch e g args left' (n + 1)
        detail := BitVec.ofNat 32 (n + 1)
        st := if left'.isEmpty then .finished else d.st }
    | _ => d

/-- CTL_END_DRAINED (R129): every instruction handed to the tile's units and its Tongs engine has completed. -/
def execCtlEndDrained (tile : Nat) (s : State) : Host.Outcome State Fault Refusal :=
  guardWf (tileOk tile) s <|
    let t := s.tile tile
    if t.cpState = .waiting && t.wait = some .fin && t.unitsIdle && s.execCount tile = 0 then
      let s := s.onTile tile fun t => ({ t with cpState := .idle, wait := none, patches := [], launch := none }, [])
      match t.launch with
      | some id => s.partDone tile id
      | none => s
    else s

/-- CTL_BR (R120). -/
def execCtlBr (tile : Nat) (s : State) : Host.Outcome State Fault Refusal :=
  guardWf (tileOk tile) s <| s.ctl tile 0x02 Tile.ctlBr

/-- CTL_SBR (R104, R121). -/
def execCtlSbr (tile : Nat) (s : State) : Host.Outcome State Fault Refusal :=
  guardWf (tileOk tile) s <| s.ctl tile 0x03 Tile.ctlSbr

/-- CTL_XSET (R122). -/
def execCtlXset (tile : Nat) (s : State) : Host.Outcome State Fault Refusal :=
  guardWf (tileOk tile) s <| s.ctl tile 0x04 Tile.ctlXset

/-- CTL_XADD (R122). -/
def execCtlXadd (tile : Nat) (s : State) : Host.Outcome State Fault Refusal :=
  guardWf (tileOk tile) s <| s.ctl tile 0x05 Tile.ctlXadd

/-- CTL_LOOP (R123). -/
def execCtlLoop (tile : Nat) (s : State) : Host.Outcome State Fault Refusal :=
  guardWf (tileOk tile) s <| s.ctl tile 0x06 Tile.ctlLoop

/-- CTL_PFX (R124). -/
def execCtlPfx (tile : Nat) (s : State) : Host.Outcome State Fault Refusal :=
  guardWf (tileOk tile) s <| s.ctl tile 0x07 Tile.ctlPfx

/-- CTL_SEMSIG (R125): a remote target must be a tile the bitstream gives to the running context; COUNT = 0 is a
no-op. -/
def execCtlSemsig (tile : Nat) (s : State) : Host.Outcome State Fault Refusal :=
  guardWf (tileOk tile) s <| s.issue tile (fun o => o = 0x08) fun s t w len =>
    match semsigCheck w with
    | .error e => s.faultTile tile e t.pc
    | .ok (cnt, tl, rem, sem) =>
      let c := t.ctx.getD 0
      let dst := if rem then tl else tile
      if rem && !s.tileGiven c tl then s.faultTile tile .denied t.pc
      else
        let s := s.onTile tile fun t => (t.advance len, [])
        if cnt = 0 then s else s.signal ⟨dst, sem, cnt, some (tile, t.pc), none, some tile, c, none⟩

/-- CTL_SEMWAIT (R126). -/
def execCtlSemwait (tile : Nat) (s : State) : Host.Outcome State Fault Refusal :=
  guardWf (tileOk tile) s <| s.ctl tile 0x09 Tile.ctlSemwait

/-- CTL_STEP (R130): outside the step group it faults with RANGE; otherwise the tile waits for the step. -/
def execCtlStep (tile : Nat) (s : State) : Host.Outcome State Fault Refusal :=
  guardWf (tileOk tile) s <| s.issue tile (fun o => o = 0x0A) fun s t w _ =>
    if !ctlBareOk w then s.faultTile tile .rsvdSet t.pc
    else if !s.inStep (t.ctx.getD 0) tile then s.faultTile tile .range t.pc
    else s.onTile tile fun t => (t.waitFor .step, [])

/-- CTL_TIME (R58, R128): the value read lies within 8 ns of the counter, not below the tile's previous reading; where
in that range is left open. -/
def execCtlTime (tile : Nat) (s : State) : Host.Outcome State Fault Refusal :=
  guardWf (tileOk tile) s <| s.issue tile (fun o => o = 0x0B) fun s t w len =>
    match timeCheck w with
    | .error e => s.faultTile tile e t.pc
    | .ok xr =>
      let (fv, s) := s.draw
      let read := BitVec.ofNat 64 (s.now + fv.toNat % 17 - 8)
      let last := SMap.getD s.time.lastRead tile 0
      let v := if read.ult last then last else read
      let s := { s with time := { s.time with lastRead := SMap.set s.time.lastRead tile v } }
      s.onTile tile fun t => (((t.xw xr (v.setWidth 32)).xw (xr + 1) ((v >>> 32).setWidth 32)).advance len, [])

/-- RESERVED_OPCODE (R117, R119): an opcode outside Table 5.1 is rejected with RSVD_SET. -/
def execReservedOpcode (tile : Nat) (s : State) : Host.Outcome State Fault Refusal :=
  guardWf (tileOk tile) s <| s.issue tile (fun o => (opcWords o).isNone) fun s t _ _ => s.faultTile tile .rsvdSet t.pc

end Sys2Proof.Machine
end

