-- ==== Sys2Proof/Machine/Sha.lean ====
section
/-! DEFINITION. SHA-384, as FIPS 180-4 defines it: the digest of DEV_LOAD_ID, of key identifiers and of measurements
(R344, R352, R393, R410). -/
namespace Sys2Proof

/-- The largest `r` below `2 ^ k + r0` with `r ^ e ≤ n`, one bit at a time. -/
def rootGo (e n : Nat) : Nat → Nat → Nat
  | 0, r => r
  | k + 1, r => let t := r + 2 ^ k; rootGo e n k (if t ^ e ≤ n then t else r)

/-- The first 80 prime numbers: below 410 a composite number has a divisor below 21. -/
def shaPrimes : List Nat :=
  (List.range 410).filter fun n => decide (2 ≤ n) && (List.range 21).all fun d => decide (d < 2) || decide (n ≤ d) || n % d != 0

/-- The first 64 bits of the fractional part of the `e`-th root of a number below 2^9. -/
def rootFrac (e n : Nat) : W64 := BitVec.ofNat 64 (rootGo e (n * 2 ^ (64 * e)) 73 0)

/-- Round constants of FIPS 180-4, section 4.2.3: cube roots of the first 80 primes. -/
def shaK : List W64 := shaPrimes.map (rootFrac 3)

/-- Initial hash value of SHA-384, section 5.3.4: square roots of the ninth to the sixteenth prime. -/
def shaIv : List W64 := ((shaPrimes.drop 8).take 8).map (rootFrac 2)

/-- Rotate right. -/
def shaRot (x : W64) (n : Nat) : W64 := x.rotateRight n

/-- The message schedule, newest word first: 16 words grow to 80. -/
def shaSchedule : Nat → List W64 → List W64
  | 0, ws => ws
  | n + 1, ws =>
    let a := ws.getD 1 0
    let b := ws.getD 14 0
    let s1 := shaRot a 19 ^^^ shaRot a 61 ^^^ (a >>> 6)
    let s0 := shaRot b 1 ^^^ shaRot b 8 ^^^ (b >>> 7)
    shaSchedule n ((s1 + ws.getD 6 0 + s0 + ws.getD 15 0) :: ws)

/-- One round. -/
def shaRound (v : List W64) (kw : W64 × W64) : List W64 :=
  let g := fun i => v.getD i 0
  let e := g 4
  let a := g 0
  let t1 := g 7 + (shaRot e 14 ^^^ shaRot e 18 ^^^ shaRot e 41) + ((e &&& g 5) ^^^ (~~~e &&& g 6)) + kw.1 + kw.2
  let t2 := (shaRot a 28 ^^^ shaRot a 34 ^^^ shaRot a 39) + ((a &&& g 1) ^^^ (a &&& g 2) ^^^ (g 1 &&& g 2))
  [t1 + t2, a, g 1, g 2, g 3 + t1, e, g 5, g 6]

/-- Number that bytes spell, first byte most significant. -/
def beNat (bs : List Byte) : Nat := bs.foldl (fun a b => a * 256 + b.toNat) 0

/-- The bytes of a number, most significant first. -/
def beBytes (n v : Nat) : List Byte := (leBytes n v).reverse

/-- One block of 128 bytes. -/
def shaBlock (h : List W64) (b : List Byte) : List W64 :=
  let ws := (List.range 16).map fun i => BitVec.ofNat 64 (beNat ((b.drop (8 * i)).take 8))
  let sch := (shaSchedule 64 ws.reverse).reverse
  let v := (shaK.zip sch).foldl shaRound h
  (h.zip v).map fun x => x.1 + x.2

/-- The padded message, section 5.1.2. -/
def shaPad (m : List Byte) : List Byte :=
  m ++ [0x80] ++ List.replicate ((239 - m.length % 128) % 128) 0 ++ beBytes 16 (8 * m.length)

/-- The blocks of a padded message, one after another. -/
def shaBlocks : Nat → List Byte → List W64 → List W64
  | 0, _, h => h
  | n + 1, m, h => shaBlocks n (m.drop 128) (shaBlock h (m.take 128))

/-- SHA-384 of a message: 48 bytes. -/
def sha384 (m : List Byte) : List Byte :=
  let p := shaPad m
  ((shaBlocks (p.length / 128) p shaIv).take 6).flatMap fun w => beBytes 8 w.toNat

/-- Key identifier of R391: the low 64 bits of the digest of the key, as a number of bytes 0 to 7 (R6). -/
def keyId (m : List Byte) : Nat := leNat ((sha384 m).take 8)

end Sys2Proof
end

