-- ==== Sys2Proof/Machine/Crypto.lean ====
section
/-! DEFINITION. The ciphers and the signature scheme that the spec names: AES-256 (FIPS 197), AES-256-GCM-SIV (RFC 8452)
for fabric packets (R395), AES-256-GCM (SP 800-38D) for section chunks (R344) and ECDSA over P-384 (FIPS 186-5) for
containers and debug tokens (R344, R411). Bytes are numbers below 256 here. -/
namespace Sys2Proof

/-! AES-256 -/

/-- The S-box of FIPS 197, entry `x` in bits `[8x+7:8x]`. -/
def aesTable : Nat :=
  0x16bb54b00f2d99416842e6bf0d89a18cdf2855cee9871e9b948ed9691198f8e19e1dc186b95735610ef6034866b53e708a8bbd4b1f74dde8c6b4a61c2e2578ba08ae7a65eaf4566ca94ed58d6d37c8e779e4959162acd3c25c2406490a3a32e0db0b5ede14b8ee4688902a22dc4f816073195d643d7ea7c41744975fec130ccdd2f3ff1021dab6bcf5389d928f40a351a89f3c507f02f94585334d43fbaaefd0cf584c4a39becb6a5bb1fc20ed00d153842fe329b3d63b52a05a6e1b1a2c830975b227ebe28012079a059618c323c7041531d871f1e5a534ccf73f362693fdb7c072a49cafa2d4adf04759fa7dc982ca76abd7fe2b670130c56f6bf27b777c63

/-- The S-box. -/
def aesS (x : Nat) : Nat := nbits aesTable (8 * x) 8

/-- Multiplication by x in the field of AES. -/
def aesX (b : Nat) : Nat := if b < 128 then 2 * b else (2 * b).xor 0x11B

/-- Bytes added in the field. -/
def xorB (a b : List Nat) : List Nat := a.zipWith Nat.xor b

/-- The eight key words after eight others; `rc` is the round constant. -/
def aesExpand (rc : Nat) (k : List Nat) : List Nat :=
  let w := fun i => (k.drop (4 * i)).take 4
  let t := match (w 7).map aesS with
    | [a, b, c, d] => [b.xor rc, c, d, a]
    | _ => []
  let w0 := xorB (w 0) t
  let w1 := xorB (w 1) w0
  let w2 := xorB (w 2) w1
  let w3 := xorB (w 3) w2
  let w4 := xorB (w 4) (w3.map aesS)
  let w5 := xorB (w 5) w4
  let w6 := xorB (w 6) w5
  w0 ++ w1 ++ w2 ++ w3 ++ w4 ++ w5 ++ w6 ++ xorB (w 7) w6

/-- Key words, eight at a time. -/
def aesKeyGo : Nat → Nat → List Nat → List Nat
  | 0, _, k => k
  | n + 1, rc, k => k ++ aesKeyGo n (aesX rc) (aesExpand rc k)

/-- The 15 round keys of a 32-byte key. -/
def aesKeys (key : List Nat) : List (List Nat) :=
  let w := aesKeyGo 7 1 key
  (List.range 15).map fun i => (w.drop (16 * i)).take 16

/-- SubBytes and ShiftRows: byte `r + 4c` comes from column `c + r`. -/
def aesSub (st : List Nat) : List Nat := (List.range 16).map fun i => aesS (st.getD ((i + 4 * (i % 4)) % 16) 0)

/-- MixColumns of one column. -/
def aesMixCol : List Nat → List Nat
  | [a, b, c, d] =>
    let t := ((a.xor b).xor c).xor d
    [(a.xor t).xor (aesX (a.xor b)), (b.xor t).xor (aesX (b.xor c)), (c.xor t).xor (aesX (c.xor d)), (d.xor t).xor (aesX (d.xor a))]
  | _ => []

/-- MixColumns. -/
def aesMix (st : List Nat) : List Nat := (List.range 4).flatMap fun c => aesMixCol ((st.drop (4 * c)).take 4)

/-- The rounds that remain, the last without MixColumns. -/
def aesRounds : List (List Nat) → List Nat → List Nat
  | [], st => st
  | [k], st => xorB (aesSub st) k
  | k :: k2 :: ks, st => aesRounds (k2 :: ks) (xorB (aesMix (aesSub st)) k)

/-- Encryption of a block under round keys. -/
def aesWith (keys : List (List Nat)) (b : List Nat) : List Nat :=
  match keys with
  | k :: ks => aesRounds ks (xorB b k)
  | [] => b

/-- Number that bytes spell, least significant first. -/
def leNum : List Nat → Nat
  | [] => 0
  | b :: bs => b + 256 * leNum bs

/-- The `n` bytes of a number, least significant first. -/
def leNums : Nat → Nat → List Nat
  | 0, _ => []
  | n + 1, v => v % 256 :: leNums n (v / 256)

/-- A list in pieces of `k`, `n` of them. -/
def chunksOf {α : Type} (k : Nat) : Nat → List α → List (List α)
  | 0, _ => []
  | n + 1, l => l.take k :: chunksOf k n (l.drop k)

/-- Bytes in blocks of 16, the last filled up with zeros. -/
def blocks16 (bs : List Nat) : List (List Nat) :=
  (chunksOf 16 (ceilDiv bs.length 16) bs).map fun b => b ++ List.replicate (16 - b.length) 0

/-! POLYVAL and AES-256-GCM-SIV (RFC 8452) -/

/-- The modulus of POLYVAL: x^128 + x^127 + x^126 + x^121 + 1. -/
def polyMod : Nat := 2 ^ 128 + 2 ^ 127 + 2 ^ 126 + 2 ^ 121 + 1

/-- `a * b * x^-128`, one bit of `a` at a time. -/
def polyGo (b : Nat) : Nat → Nat → Nat → Nat
  | 0, _, acc => acc
  | n + 1, a, acc =>
    let acc := if a % 2 = 1 then acc.xor b else acc
    polyGo b n (a / 2) ((if acc % 2 = 1 then acc.xor polyMod else acc) / 2)

/-- POLYVAL of blocks. -/
def polyval (h : Nat) (bs : List (List Nat)) : Nat := bs.foldl (fun s b => polyGo (s.xor (leNum b)) 128 h 0) 0

/-- The two keys of a nonce: for authentication and for encryption. -/
def sivKeys (key nonce : List Nat) : List Nat × List Nat :=
  let ks := aesKeys key
  let half := fun i => (aesWith ks (leNums 4 i ++ nonce)).take 8
  (half 0 ++ half 1, half 2 ++ half 3 ++ half 4 ++ half 5)

/-- The tag of additional data and plaintext. -/
def sivTag (auth : List Nat) (ks : List (List Nat)) (nonce aad pt : List Nat) : List Nat :=
  let s := leNums 16 (polyval (leNum auth)
    (blocks16 aad ++ blocks16 pt ++ [leNums 8 (8 * aad.length) ++ leNums 8 (8 * pt.length)]))
  let x := xorB (s.take 12) nonce ++ s.drop 12
  aesWith ks (x.take 15 ++ [x.getD 15 0 % 128])

/-- The key stream of a tag, `n` blocks: the counter is the first four bytes. -/
def sivStream (ks : List (List Nat)) (tag : List Nat) (n : Nat) : List Nat :=
  let rest := (tag.drop 4).take 11 ++ [tag.getD 15 0 % 128 + 128]
  (List.range n).flatMap fun i => aesWith ks (leNums 4 ((leNum (tag.take 4) + i) % 2 ^ 32) ++ rest)

/-- Encryption: the ciphertext and the tag. -/
def sivSeal (key nonce aad pt : List Nat) : List Nat × List Nat :=
  let k := sivKeys key nonce
  let ks := aesKeys k.2
  let tag := sivTag k.1 ks nonce aad pt
  (xorB pt (sivStream ks tag (ceilDiv pt.length 16)), tag)

/-- Decryption: the plaintext, when the tag verifies. -/
def sivOpen (key nonce aad ct tag : List Nat) : Option (List Nat) :=
  let k := sivKeys key nonce
  let ks := aesKeys k.2
  let pt := xorB ct (sivStream ks tag (ceilDiv ct.length 16))
  if sivTag k.1 ks nonce aad pt = tag then some pt else none

/-! GHASH and AES-256-GCM (SP 800-38D) -/

/-- Number that bytes spell, most significant first. -/
def beNum (bs : List Nat) : Nat := bs.foldl (fun a b => 256 * a + b) 0

/-- `x * y` in the field of GHASH, from the most significant bit of `x`. -/
def ghashGo (x : Nat) : Nat → Nat → Nat → Nat
  | 0, _, z => z
  | n + 1, v, z => ghashGo x n (if v % 2 = 1 then (v / 2).xor (225 * 2 ^ 120) else v / 2) (if nbit x n then z.xor v else z)

/-- GHASH of blocks. -/
def ghash (h : Nat) (bs : List (List Nat)) : Nat := bs.foldl (fun s b => ghashGo (s.xor (beNum b)) 128 h 0) 0

/-- The key stream after a 96-bit IV, from counter `c`. -/
def gcmStream (ks : List (List Nat)) (iv : List Nat) (c n : Nat) : List Nat :=
  (List.range n).flatMap fun i => aesWith ks (iv ++ (leNums 4 ((c + i) % 2 ^ 32)).reverse)

/-- Decryption of a ciphertext: the plaintext, when the 16-byte tag verifies. -/
def gcmOpen (key iv aad ct tag : List Nat) : Option (List Nat) :=
  let ks := aesKeys key
  let h := beNum (aesWith ks (List.replicate 16 0))
  let s := ghash h (blocks16 aad ++ blocks16 ct ++ [(leNums 8 (8 * aad.length)).reverse ++ (leNums 8 (8 * ct.length)).reverse ])
  if xorB (leNums 16 s).reverse (gcmStream ks iv 1 1) = tag then some (xorB ct (gcmStream ks iv 2 (ceilDiv ct.length 16))) else none

/-! ECDSA over P-384 (FIPS 186-5, SP 800-186) -/

/-- The prime of P-384. -/
def p384 : Nat := 2 ^ 384 - 2 ^ 128 - 2 ^ 96 + 2 ^ 32 - 1
/-- The order of its base point. -/
def n384 : Nat := 0xffffffffffffffffffffffffffffffffffffffffffffffffc7634d81f4372ddf581a0db248b0a77aecec196accc52973
/-- The coefficient b. -/
def b384 : Nat := 0xb3312fa7e23ee7e4988e056be3f82d19181d9c6efe8141120314088f5013875ac656398d8a2ed19d2a85c8edd3ec2aef
/-- The base point. -/
def g384 : Nat × Nat :=
  (0xaa87ca22be8b05378eb1c71ef320ad746e1d3b628ba79b9859f741e082542a385502f25dbf55296c3a545e3872760ab7,
   0x3617de4a96262c6f5d9e98bf9292dc29f8f41dbd289a147ce9da3113b5f0b8c00a60b1ce1d7e819d7a431d7c90ea0e5f)

/-- `a ^ e` modulo `m`, with an exponent of `n` bits. -/
def powMod (m a e : Nat) : Nat → Nat → Nat
  | 0, acc => acc
  | n + 1, acc => let x := acc * acc % m; powMod m a e n (if nbit e n then x * a % m else x)

/-- Inverse modulo a prime of 384 bits. -/
def invMod (m a : Nat) : Nat := powMod m a (m - 2) 384 1

/-- Difference modulo `p384`. -/
def subP (a b : Nat) : Nat := (a + (p384 - b % p384)) % p384

/-- A point in Jacobian coordinates; z = 0 is the point at infinity. -/
structure EcPoint where
  x : Nat
  y : Nat
  z : Nat
deriving DecidableEq, Repr

/-- Twice a point of y² = x³ - 3x + b. -/
def EcPoint.dbl (p : EcPoint) : EcPoint :=
  let zz := p.z * p.z % p384
  let yy := p.y * p.y % p384
  let s := 4 * p.x * yy % p384
  let m := 3 * (subP p.x zz * ((p.x + zz) % p384)) % p384
  let x := subP (m * m) (2 * s)
  ⟨x, subP (m * subP s x) (8 * (yy * yy)), 2 * p.y * p.z % p384⟩

/-- The sum of two points. -/
def EcPoint.add (p q : EcPoint) : EcPoint :=
  if p.z = 0 then q
  else if q.z = 0 then p
  else
    let z1 := p.z * p.z % p384
    let z2 := q.z * q.z % p384
    let u1 := p.x * z2 % p384
    let u2 := q.x * z1 % p384
    let s1 := p.y * z2 % p384 * q.z % p384
    let s2 := q.y * z1 % p384 * p.z % p384
    if u1 = u2 then (if s1 = s2 then p.dbl else ⟨1, 1, 0⟩)
    else
      let h := subP u2 u1
      let r := subP s2 s1
      let hh := h * h % p384
      let hhh := hh * h % p384
      let v := u1 * hh % p384
      let x := subP (r * r) (hhh + 2 * v)
      ⟨x, subP (r * subP v x) (s1 * hhh), p.z * q.z % p384 * h % p384⟩

/-- `a p + b q`, from the top bit down. -/
def ecMul2 (p q pq : EcPoint) (a b : Nat) : Nat → EcPoint → EcPoint
  | 0, acc => acc
  | n + 1, acc =>
    let d := acc.dbl
    ecMul2 p q pq a b n
      (match nbit a n, nbit b n with
       | true, true => d.add pq
       | true, false => d.add p
       | false, true => d.add q
       | false, false => d)

/-- The point that a public key of 97 bytes spells in uncompressed SEC1 form, when it is one of the curve. -/
def ecKey (key : List Byte) : Option EcPoint :=
  let x := beNat ((key.drop 1).take 48)
  let y := beNat (key.drop 49)
  if key.length = 97 && key.head? = some 4 && decide (x < p384) && decide (y < p384)
      && decide (y * y % p384 = (x * x * x + (p384 - 3) * x + b384) % p384) then some ⟨x, y, 1⟩
  else none

/-- A signature of 96 bytes, r then s, over the SHA-384 of a message verifies under a public key. -/
def ecdsaOk (key msg sig : List Byte) : Bool :=
  let r := beNat (sig.take 48)
  let s := beNat (sig.drop 48)
  match ecKey key with
  | none => false
  | some q =>
    if sig.length ≠ 96 || r = 0 || s = 0 || decide (r ≥ n384) || decide (s ≥ n384) then false
    else
      let w := invMod n384 s
      let g : EcPoint := ⟨g384.1, g384.2, 1⟩
      let p := ecMul2 g q (g.add q) (beNat (sha384 msg) * w % n384) (r * w % n384) 384 ⟨1, 1, 0⟩
      let zi := invMod p384 p.z
      p.z ≠ 0 && decide (p.x * (zi * zi % p384) % p384 % n384 = r)

end Sys2Proof
end

