-- ==== Sys2Proof/Machine/MoveOps.lean ====
section
/-! DEFINITION. MOVE descriptors as data: address spaces, checks of the body, and the pieces a MOVE is cut into
(R144 to R146, R158, R228). -/
namespace Sys2Proof

/-- Codes of Table 5.8. -/
def spLocal : Nat := 0
/-- GLOBAL space. -/
def spGlobal : Nat := 1
/-- TILE space. -/
def spTile : Nat := 2

/-- Local address part of a LOCAL or GLOBAL address. -/
def addrLocal (a : Nat) : Nat := a % 2 ^ 48
/-- Device of a GLOBAL address, top of any address. -/
def addrDev (a : Nat) : Nat := a / 2 ^ 48
/-- Logical tile of a TILE address. -/
def addrTile (a : Nat) : Nat := nbits a 32 16
/-- Scratchpad address of a TILE address. -/
def addrSpd (a : Nat) : Nat := a % 2 ^ 18

/-- Reserved bits of an address in its space (Table 5.8, R200): true when one is set, or the space code is reserved. -/
def addrRsvd (sp a : Nat) : Bool :=
  match sp with
  | 0 => a / 2 ^ 48 != 0
  | 1 => a / 2 ^ 62 != 0
  | 2 => nbits a 18 14 != 0 || a / 2 ^ 48 != 0 || nbit a 47
  | _ => true

/-- `n` bytes at an address, within its space, lie outside its storage, in a reserved range or in the control space
(Table 5.5 order 3). -/
def addrRange (sp a n : Nat) : Bool :=
  if sp = spTile then decide (addrTile a ≥ 25600) || decide (addrSpd a + n > spdSize)
  else
    let x := addrLocal a
    let r := localRange x
    r = .control || r = .reserved || localRange (x + n - 1) ≠ r

/-- Address of byte `i` past an address, in its space. -/
def addrAt (a i : Nat) : Nat := a + i

/-- A MOVE moves nothing (R11, R145). -/
def MoveBody.noop (b : MoveBody) : Bool := b.len = 0 || b.rows = 0

/-- Decode a MOVE body from the 44 body bytes (Table 5.7). -/
def MoveBody.ofBytes (op : Nat) (bs : List Byte) : MoveBody :=
  let n := fun (o k : Nat) => leNat ((bs.drop o).take k)
  let w := n 0x14 4
  ⟨op, nbits w 20 4, nbits w 24 4, n 0 8, n 8 8, n 0x10 4, nbits w 0 17, n 0x18 4, n 0x1C 4, n 0x20 4, n 0x24 8⟩

/-- Reserved bits of the word at 0x28. -/
def moveRsvdWord (bs : List Byte) : Bool :=
  let w := leNat ((bs.drop 0x14).take 4)
  nbits w 28 4 != 0 || nbits w 17 3 != 0

/-- SKEW16: bytes of scale per row. -/
def MoveBody.scl (b : MoveBody) : Nat := b.aux % 4
/-- SKEW16: scratchpad address of the scale plane. -/
def MoveBody.splane (b : MoveBody) : Nat := nbits b.aux 2 18

/-- Format of an ACCSTORE (R228). -/
def MoveBody.accFmt (b : MoveBody) : Fmt := if nbits b.aux 0 4 = 1 then .w16 else .h16
/-- FIRST. -/
def MoveBody.accFirst (b : MoveBody) : Bool := nbit b.aux 4
/-- STAT. -/
def MoveBody.accStat (b : MoveBody) : Bool := b.op = 4 && nbit b.aux 5
/-- FINAL. -/
def MoveBody.accFinal (b : MoveBody) : Bool := nbit b.aux 6

/-- Order 2 of Table 5.5 for a MOVE: reserved bits, codes, and fields required to be 0. -/
def MoveBody.rsvd (b : MoveBody) : Bool :=
  let src := addrRsvd b.ssp b.src
  let dst := addrRsvd b.dsp b.dst
  match b.op with
  | 1 => src || dst || b.aux != 0 || b.aux2 != 0
  | 2 => dst || b.src != 0 || b.ssp != 0 || b.sstride != 0 || b.aux2 != 0
  | 3 => src || dst || b.dstride != 0 || b.scl = 3 || nbits b.aux 20 12 != 0
      || (b.scl = 0 && (b.splane != 0 || b.aux2 != 0)) || (b.scl != 0 && addrRsvd b.ssp b.aux2)
  | 4 => src || dst || nbits b.aux 7 25 != 0 || decide (nbits b.aux 0 4 ≥ 7) || (!nbit b.aux 5 && b.aux2 != 0)
      || decide (b.aux2 / 2 ^ 48 != 0)
  | _ => true

/-- First and last byte offsets of a MOVE's rows from its address. -/
def extentOf (stride len rows : Nat) : Nat := if rows = 0 then 0 else (rows - 1) * stride + len

/-- Some row lies outside its storage. -/
def rowsBad (sp a stride len rows : Nat) : Bool :=
  if sp = spTile then addrRange sp a (extentOf stride len rows)
  else (List.range rows).any fun i => addrRange sp (a + i * stride) len || decide (addrLocal a + i * stride + len > 2 ^ 48)

/-- Order 3 of Table 5.5 for a MOVE; `self` is this module's device ID. A MOVE of no size meets every check but those of
the bytes it would touch: its addresses themselves must lie in their storage (R11, R145). -/
def MoveBody.rangeBad (b : MoveBody) (self : Nat) : Bool :=
  let z := b.noop
  let rows := fun (sp a stride len : Nat) => if z then addrRange sp a 1 else rowsBad sp a stride len b.rows
  match b.op with
  | 1 => rows b.ssp b.src b.sstride b.len || rows b.dsp b.dst b.dstride b.len || (!z && overlapping)
  | 2 => rows b.dsp b.dst b.dstride b.len
  | 3 =>
    (b.len != 32 && b.len != 0) || b.dsp != spTile || rows b.ssp b.src b.sstride b.len
      || addrRange b.dsp b.dst (if z then 1 else 32 * (b.rows + 15))
      || (b.scl != 0 && (b.splane % 16 != 0 || (!z && decide (b.splane + 16 * (b.rows + 15) > spdSize))
            || rows b.ssp b.aux2 b.scl b.scl))
  | _ =>
    (b.ssp != spTile && b.ssp != spLocal) || b.dsp != spLocal || b.len % 2 != 0 || b.src % 2 != 0 || b.dst % 2 != 0
      || b.sstride % 2 != 0 || b.dstride % 2 != 0 || (decide (b.rows > 1) && decide (b.dstride < b.len))
      || (nbits b.aux 0 4 != 1 && nbits b.aux 0 4 != 2)
      || (nbit b.aux 5 && nbits b.aux 0 4 != 2) || (nbit b.aux 6 && !nbit b.aux 5)
      || (nbit b.aux 5 && (b.aux2 % 64 != 0 || localRange b.aux2 ≠ .t1))
      || rows b.ssp b.src b.sstride b.len || rows b.dsp b.dst b.dstride b.len
      || localRange (addrLocal b.dst) ≠ .t1
where
  /-- both operands on this module in one tier or scratchpad, with overlapping extents (Table 5.9) -/
  overlapping : Bool :=
    let here := fun (sp a : Nat) => sp = spLocal || sp = spTile || (sp = spGlobal && addrDev a = self)
    let es := extentOf b.sstride b.len b.rows
    let ed := extentOf b.dstride b.len b.rows
    here b.ssp b.src && here b.dsp b.dst &&
      (if b.ssp = spTile || b.dsp = spTile then
        b.ssp = spTile && b.dsp = spTile && addrTile b.src = addrTile b.dst && overlaps (addrSpd b.src) es (addrSpd b.dst) ed
      else localRange (addrLocal b.src) = localRange (addrLocal b.dst)
        && overlaps (addrLocal b.src) es (addrLocal b.dst) ed)

/-- One piece to issue: where it reads (nothing for FILL and for the zero rows of SKEW16), how many bytes. -/
structure Chunk where
  row : Nat
  off : Nat
  plane : Nat
  n : Nat
  src : Option Nat
deriving DecidableEq, Repr

/-- Rows the engine goes through: SKEW16 adds the fifteen zero rows before and after (R146). -/
def MoveBody.rowsAll (b : MoveBody) : Nat := if b.op = 3 then b.rows + 30 else b.rows

/-- Room to the end of the 256-byte block of an address. -/
def blockRoom (a : Nat) : Nat := 256 - a % 256

/-- The piece at a cursor (R158); none past the end. Row `r` of SKEW16 is activation row r − 15. -/
def MoveBody.chunk (b : MoveBody) (row off plane : Nat) : Option Chunk :=
  if b.noop || decide (row ≥ b.rowsAll) then none
  else
    match b.op with
    | 2 =>
      let d := b.dst + row * b.dstride + off
      some ⟨row, off, 0, min (b.len - off) (blockRoom d), none⟩
    | 3 =>
      if row < 15 || decide (row ≥ b.rows + 15) then some ⟨row, 0, 0, 32, none⟩
      else if plane = 0 then
        let a := b.src + (row - 15) * b.sstride + off
        some ⟨row, off, 0, min (32 - off) (blockRoom a), some a⟩
      else
        let a := b.aux2 + (row - 15) * b.scl + off
        some ⟨row, off, 1, min (b.scl - off) (blockRoom a), some a⟩
    | _ =>
      let a := b.src + row * b.sstride + off
      let d := b.dst + row * b.dstride + off
      some ⟨row, off, 0, min (b.len - off) (min (blockRoom a) (blockRoom d)), some a⟩

/-- The cursor after a piece. -/
def MoveBody.advance (b : MoveBody) (c : Chunk) : Nat × Nat × Nat :=
  let whole := if b.op = 3 then (if c.plane = 1 then b.scl else 32) else b.len
  if c.off + c.n < whole then (c.row, c.off + c.n, c.plane)
  else if b.op = 3 && c.plane = 0 && b.scl != 0 && c.src.isSome then (c.row, 0, 1)
  else (c.row + 1, 0, 0)

/-- FILL's data: the pattern repeated from byte 0 of the row (Table 5.9). -/
def MoveBody.fillData (b : MoveBody) (c : Chunk) : List Byte :=
  (List.range c.n).map fun i => BitVec.ofNat 8 (b.aux / 2 ^ (8 * ((c.off + i) % 4)))

/-- Scratchpad places a SKEW16 piece writes, with the index of the byte each takes (R146). -/
def MoveBody.skewPlaces (b : MoveBody) (c : Chunk) : List (Nat × Nat) :=
  let lines := b.rows + 15
  let at_ := fun (r : Nat) => if c.row + r ≥ 15 && c.row + r < lines + 15 then some (c.row + r - 15) else none
  let elems := (List.range c.n).filterMap fun i =>
    let j := c.off + i
    (at_ (j / 2)).map fun t => (addrSpd b.dst + 32 * t + j, i)
  let scales := fun (f : Nat → Option Nat) => (List.range 16).filterMap fun r =>
    match f r, at_ r with
    | some i, some t => some (b.splane + 16 * t + r, i)
    | _, _ => none
  if c.src.isNone then elems ++ (if b.scl = 0 then [] else scales fun _ => some 0)
  else if c.plane = 0 then elems
  else scales fun r =>
    let j := if b.scl = 2 then r / 8 else 0
    if c.off ≤ j && j < c.off + c.n then some (j - c.off) else none

/-- Every 8-byte scratchpad word that holds an element or a scale of a SKEW16 row (R222). -/
def MoveBody.skewRowWords (b : MoveBody) (row : Nat) : List Nat :=
  let e := b.skewPlaces ⟨row, 0, 0, 32, some 0⟩
  let sc := if b.scl = 0 then [] else b.skewPlaces ⟨row, 0, 1, b.scl, some 0⟩
  (e ++ sc).map fun x => x.1 / 8

end Sys2Proof
end

