-- ==== Sys2Proof/Machine/DescOps.lean ====
section
/-! DEFINITION. Descriptors as data: the common part, the fields of each class body, and the checks of orders 1 to 3 of
Table 5.5 that look at the 64 bytes alone (R139, R140, R142, R144, R147, R206, R266, R267, R277 to R279). -/
namespace Sys2Proof

/-- Little-endian field of a descriptor. -/
def dn (bs : List Byte) (off k : Nat) : Nat := leNat ((bs.drop off).take k)

/-- VER. -/
def descVer (bs : List Byte) : Nat := nbits (dn bs 0 4) 0 4
/-- CLASS. -/
def descCls (bs : List Byte) : Nat := nbits (dn bs 0 4) 4 4
/-- OP. -/
def descOp (bs : List Byte) : Nat := nbits (dn bs 0 4) 8 8

/-- The common part (Table 5.4). -/
def DescHdr.ofBytes (bs : List Byte) : DescHdr :=
  let w0 := dn bs 0 4
  let w1 := dn bs 4 4
  let w2 := dn bs 8 4
  ⟨nbits w0 16 8, nbits w0 8 8, nbits w0 4 4, nbits w1 16 16, nbits w1 0 12, nbits w2 16 7, nbits w2 0 16, dn bs 0xC 8⟩

/-- SEMSIG. -/
def DescHdr.semsig (h : DescHdr) : Bool := nbit h.flags 0
/-- CREC. -/
def DescHdr.crec (h : DescHdr) : Bool := nbit h.flags 1
/-- IRQ. -/
def DescHdr.irq (h : DescHdr) : Bool := nbit h.flags 2
/-- ORD. -/
def DescHdr.ord (h : DescHdr) : Bool := nbit h.flags 3

/-- Body bytes `[a, b)` are zero. -/
def zeroBytes (bs : List Byte) (a b : Nat) : Bool := ((bs.drop a).take (b - a)).all (· = 0#8)

/-- The class has this operation (Table 5.6, Table 5.9, R147, Table 7.6, Table 8.10). -/
def knownOp (cls op : Nat) : Bool :=
  match cls with
  | 0 => op = 0
  | 1 => op = 1
  | 2 => decide (1 ≤ op) && decide (op ≤ 4)
  | 3 => decide (1 ≤ op) && decide (op ≤ 3)
  | 4 => op = 1
  | 5 => decide (1 ≤ op) && decide (op ≤ 10)
  | 6 => decide (1 ≤ op) && decide (op ≤ 8)
  | _ => false

/-- Reserved bits and values of the common part (order 2). -/
def hdrRsvd (bs : List Byte) : Bool :=
  let h := DescHdr.ofBytes bs
  nbits (dn bs 0 4) 24 8 != 0 || nbits h.flags 4 4 != 0 || !knownOp h.cls h.op || nbits (dn bs 4 4) 10 6 != 0
    || nbits (dn bs 8 4) 23 9 != 0 || nbit (dn bs 8 4) 15 || (!h.semsig && (h.cplSem != 0 || h.cplTile != 0))
    || (!h.crec && h.cplAddr != 0) || h.cplAddr / 2 ^ 48 != 0

/-- A MEMCTL body (R206). -/
structure MemctlBody where
  op : Nat
  handle : Nat
  pages : Nat
  base : Nat
  aff : Nat
  pin : Bool
  spill : Nat
  home : Nat
  addr : Nat
deriving DecidableEq, Repr

/-- Decode a MEMCTL body. -/
def MemctlBody.ofBytes (bs : List Byte) : MemctlBody :=
  let w := dn bs 0x24 4
  ⟨descOp bs, dn bs 0x14 4, dn bs 0x18 4, dn bs 0x1C 8, nbits w 8 4, nbit w 5, nbits w 2 2, nbits w 0 2, dn bs 0x34 8⟩

/-- Reserved bits of a MEMCTL, and fields its operation does not use (Table 7.6, order 2). -/
def memctlRsvd (bs : List Byte) : Bool :=
  let b := MemctlBody.ofBytes bs
  let w := dn bs 0x24 4
  let place := b.op = 1
  let range := b.op = 5 || b.op = 6
  nbits w 12 20 != 0 || nbits w 6 2 != 0 || nbit w 4 || dn bs 0x28 4 != 0 || dn bs 0x2C 4 != 0 || dn bs 0x30 4 != 0
    || dn bs 0x3C 4 != 0 || b.base / 2 ^ 48 != 0 || b.addr / 2 ^ 48 != 0
    || (!place && w != 0) || (b.op = 8 && b.handle != 0) || (!(place || range || b.op = 8) && b.pages != 0)
    || (!(place || range) && b.base != 0) || (!(b.op = 7 || b.op = 8) && b.addr != 0)

/-- A COLL body (Table 8.9). -/
def CollBody.ofBytes (op : CollOp) (bs : List Byte) : CollBody :=
  let w := dn bs 0x14 4
  let x := dn bs 0x2C 4
  ⟨op, nbits w 0 10, nbits w 18 14, nbits w 10 4, nbits w 14 4, dn bs 0x18 8, dn bs 0x20 8,
    dn bs 0x28 4 + nbits x 25 7 * 2 ^ 32, nbits x 16 4, nbits x 20 2, nbits x 22 3, nbits x 0 16, dn bs 0x30 8, dn bs 0x38 8⟩

/-- Collective of an OP (Table 8.10). -/
def collOpOf (op : Nat) : Option CollOp :=
  match op with
  | 1 => some .reduce | 2 => some .allreduce | 3 => some .reducescatter | 4 => some .allgather | 5 => some .barrier
  | 6 => some .vote | 7 => some .permute | 8 => some .xfer | _ => none

/-- Reduction. -/
def CollOp.isRed : CollOp → Bool
  | .reduce | .allreduce | .reducescatter => true
  | _ => false

/-- Reserved codes and bits of a COLL, and fields that must be 0 whatever the group (order 2). -/
def collRsvd (bs : List Byte) : Bool :=
  match collOpOf (descOp bs) with
  | none =>
    if descOp bs = 9 then nbits (dn bs 0x14 4) 14 18 != 0 || !zeroBytes bs 0x1C 0x40
    else !zeroBytes bs 0x18 0x40
  | some op =>
    let b := CollBody.ofBytes op bs
    let light := op = .barrier || op = .vote
    decide (b.ssp ≥ 3) || decide (b.dsp ≥ 3) || addrRsvd b.ssp b.src || addrRsvd b.dsp b.dst || b.lens / 2 ^ 48 != 0
      || (b.root != 0 && op ≠ .reduce && op ≠ .xfer)
      || (light && (b.ssp != 0 || b.dsp != 0 || b.src != 0 || b.dst != 0 || b.count != 0 || b.fmt != 0 || b.lens != 0))
      || (op = .vote && b.tensor != 0)
      || (!op.isRed && op ≠ .xfer && b.opr != 0)
      || (op = .xfer && b.opr = 0 && (b.dst != 0 || b.dsp != 0)) || (op = .xfer && b.opr = 1 && (b.src != 0 || b.ssp != 0))
      || (op = .xfer && b.lens != 0)

/-- Reserved bits and values, and fields required to be 0, of the class body (order 2). -/
def bodyRsvd (bs : List Byte) : Bool :=
  match descCls bs with
  | 0 => !zeroBytes bs 0x14 0x40
  | 1 => nbits (dn bs 0x14 4) 18 14 != 0 || nbits (dn bs 0x18 4) 16 16 != 0 || dn bs 0x3C 4 != 0
  | 2 => moveRsvdWord (bs.drop 0x14) || (MoveBody.ofBytes (descOp bs) (bs.drop 0x14)).rsvd
  | 3 =>
    (match descOp bs with
     | 1 => !zeroBytes bs 0x14 0x40
     | 2 => !zeroBytes bs 0x1C 0x40
     | _ => !zeroBytes bs 0x18 0x40)
  | 4 => !zeroBytes bs 0x34 0x40
  | 5 => collRsvd bs
  | _ => memctlRsvd bs

/-- A LOCAL address field lies in a reserved range or in the control space (R14, R201). -/
def localBad (a : Nat) : Bool := localRange a = .reserved || localRange a = .control

/-- Order 3 of Table 5.5 for what the bytes alone show; `self` is this module's device ID. -/
def bodyRange (self : Nat) (bs : List Byte) : Bool :=
  let h := DescHdr.ofBytes bs
  (h.crec && (h.cplAddr % 16 != 0 || localBad h.cplAddr)) || decide (h.cplTile ≥ 25600)
  || match h.cls with
     | 1 => dn bs 0x14 4 % 16 != 0
     | 2 => (MoveBody.ofBytes h.op (bs.drop 0x14)).rangeBad self
     | 5 =>
       (match collOpOf h.op with
        | none => false
        | some op =>
          let b := CollBody.ofBytes op bs
          let bad := fun (sp a : Nat) =>
            (sp != spTile && localBad (addrLocal a)) || (sp = spTile && decide (addrTile a ≥ 25600))
          bad b.ssp b.src || bad b.dsp b.dst || localBad b.lens)
     | 6 => (h.op = 7 || h.op = 8) && localBad (dn bs 0x34 8)
     | _ => false

/-- Tiles that the descriptor's TILE-space addresses and its CPL_TILE name (order 4). -/
def tilesNamed (bs : List Byte) : List Nat :=
  let h := DescHdr.ofBytes bs
  (if h.semsig then [h.cplTile] else []) ++
  match h.cls with
  | 2 =>
    let b := MoveBody.ofBytes h.op (bs.drop 0x14)
    (if b.ssp = spTile then [addrTile b.src] else []) ++ (if b.dsp = spTile then [addrTile b.dst] else [])
      ++ (if b.ssp = spTile && b.op = 3 && b.scl != 0 then [addrTile b.aux2] else [])
  | 5 =>
    (match collOpOf h.op with
     | none => []
     | some op =>
       let b := CollBody.ofBytes op bs
       (if b.ssp = spTile then [addrTile b.src] else []) ++ (if b.dsp = spTile then [addrTile b.dst] else []))
  | _ => []

/-- A 16-byte completion record (Table 5.10). -/
def crecBytes (h : DescHdr) (st : Status) (exec : Bool) (source detail time : Nat) : List Byte :=
  leBytes 4 (h.tag * 2 ^ 16 + h.cls * 2 ^ 8 + st.code) ++ leBytes 4 (b2n exec * 2 ^ 31 + source) ++ leBytes 4 detail
    ++ leBytes 4 time

/-- DONE advances over completed entries in ring order. -/
def Queue.advanceDone (q : Queue) : Queue :=
  q.fin.foldl (fun (q : Queue) _ =>
    if q.fin.contains q.done then { q with done := q.done + 1, fin := q.fin.filter (· ≠ q.done) } else q) q

/-- Entry `i` completes (R152); an entry outside DONE to FETCH, left by a disabling, counts for nothing (R153). -/
def Queue.finish (q : Queue) (i : W32) : Queue :=
  if decide ((i - q.done).toNat ≥ (q.fetch - q.done).toNat) then q
  else ({ q with fin := if q.fin.contains i then q.fin else q.fin ++ [i] }).advanceDone

/-- Address of entry `i`. -/
def Queue.entryAddr (q : Queue) (i : W32) : Nat := q.base + 64 * (i.toNat % 2 ^ q.rsz)

/-- FULL (R151). -/
def Queue.full (q : Queue) : Bool := (q.tail - q.head).toNat = 2 ^ q.rsz

/-- The ring lies wholly in one of the T1, T2 and T3 ranges (R151, R157). -/
def Queue.ringOk (q : Queue) : Bool :=
  let n := 64 * 2 ^ q.rsz
  let r := localRange q.base
  decide (4 ≤ q.rsz) && decide (q.rsz ≤ 16) && (r = .t1 || r = .t2 || r = .t3) && localRange (q.base + n - 1) = r

end Sys2Proof
end

