-- ==== Sys2Proof/Machine/FabOps.lean ====
section
/-! DEFINITION. Named operations of the fabric domain (chapter 08): packet fields, link layer, training and identity,
routing, fences, and the arithmetic of the time protocol. -/
namespace Sys2Proof

/-- What a fabric operation asks of the rest of the block. -/
inductive FEff where
  | out (o : Out)
  | event (e : EvRec)
  /-- packets routed again from this module (R247) -/
  | reroute (ps : List TxPkt)
deriving DecidableEq, Repr

/-- Header word. -/
def Packet.w (p : Packet) (i : Nat) : Nat := (p.hdr.getD i 0).toNat
/-- Header field of Table 8.5. -/
def Packet.f (p : Packet) (i lo n : Nat) : Nat := nbits (p.w i) lo n
/-- Replace a header field. -/
def Packet.setF (p : Packet) (i lo n v : Nat) : Packet :=
  { p with hdr := listSet p.hdr i (BitVec.ofNat 32 (setBits (p.w i) lo n v)) }
/-- VER. -/
def Packet.ver (p : Packet) : Nat := p.f 0 0 4
/-- CLASS. -/
def Packet.cls (p : Packet) : Nat := p.f 0 4 4
/-- OP. -/
def Packet.op (p : Packet) : Nat := p.f 0 8 8
/-- LEN. -/
def Packet.len (p : Packet) : Nat := p.f 0 16 8
/-- HOP. -/
def Packet.hop (p : Packet) : Nat := p.f 0 24 3
/-- DST. -/
def Packet.dst (p : Packet) : Nat := p.f 1 0 16
/-- SRC. -/
def Packet.src (p : Packet) : Nat := p.f 1 16 16
/-- CTX. -/
def Packet.ctx (p : Packet) : Nat := p.f 2 0 12
/-- EPOCH. -/
def Packet.epoch (p : Packet) : W32 := p.hdr.getD 3 0
/-- SEQ. -/
def Packet.seqNo (p : Packet) : W32 := p.hdr.getD 4 0
/-- ADDR, 64 bits. -/
def Packet.addr (p : Packet) : Nat := p.w 5 + p.w 6 * 2 ^ 32
/-- AUX. -/
def Packet.aux (p : Packet) : Nat := p.w 7
/-- Payload word. -/
def Packet.pw (p : Packet) (i : Nat) : W32 := p.pay.getD i 0

/-- The words of a packet on a link: header, payload, trailer (R249). -/
def Packet.words (p : Packet) : List W32 := p.hdr ++ p.pay ++ p.tag

/-- Virtual channel of a packet on a link (R256): HOP is the hops taken before that link. -/
def Packet.chan (p : Packet) : Nat := if p.cls = 3 || p.cls = 4 || p.cls = 5 then 12 else if p.cls = 1 then 6 + p.hop else p.hop

/-- Build a packet (Table 8.5): VER 1, HOP 0, no VIA; not sealed yet. -/
def mkPacket (cls op src dst ctx : Nat) (epoch seq : W32) (addr aux : Nat) (pay : List W32) : Packet where
  hdr := [BitVec.ofNat 32 (pay.length * 2 ^ 16 + op * 2 ^ 8 + cls * 16 + 1), BitVec.ofNat 32 (src * 2 ^ 16 + dst),
    BitVec.ofNat 32 ctx, epoch, seq, BitVec.ofNat 32 addr, BitVec.ofNat 32 (addr / 2 ^ 32), BitVec.ofNat 32 aux]
  pay := pay
  tag := []

/-- Bytes as 32-bit words, the last padded with zeros. -/
def bytesToWords (n : Nat) (bs : List Byte) : List W32 :=
  (List.range n).map fun i => BitVec.ofNat 32 (leNat ((bs.drop (4 * i)).take 4))

/-- Words as bytes (00 R6). -/
def wordsToBytes (ws : List W32) : List Byte := ws.flatMap fun w => leBytes 4 w.toNat

/-- A port. -/
def Fab.port (f : Fab) (p : Nat) : Port := f.ports.getD p Port.reset
/-- Store a port. -/
def Fab.setPort (f : Fab) (p : Nat) (x : Port) : Fab := { f with ports := SMap.setD f.ports p x Port.reset }

/-- This module's device ID (Table 8.2). -/
def Fab.self (f : Fab) : Nat := f.group * 32 + f.pos

/-- Codes of Table 8.4. -/
def PortSt.code : PortSt → Nat
  | .down => 0 | .train => 1 | .ident => 2 | .up => 3 | .retrain => 4 | .failed => 5 | .mismatch => 6

/-- Role of a port (Table 8.1): 0 local, 1 global, 2 service. -/
def portRole (p : Nat) : Nat := if p = 3 then 2 else if p % 6 < 4 then 0 else 1

/-- Global index of a global port, and the port of a global index (Table 8.1). -/
def globalIdx (p : Nat) : Nat := 2 * (p / 6) + p % 6 - 4
/-- Port of a global index. -/
def globalPort (g : Nat) : Nat := 6 * (g / 2) + 4 + g % 2

/-- A link is usable when its port is UP (R254). -/
def Fab.isUp (f : Fab) (p : Nat) : Bool := (f.port p).state = .up

/-! Flits (R241, R242) -/

/-- Number of ones among the low `n` bits. -/
def onesOf (w : Nat) : Nat → Nat
  | 0 => 0
  | n + 1 => onesOf w n + nbits w n 1

/-- A word with its parity bit: the ones among the 33 bits are even (R241). -/
def withParity (w : W32) : LinkWord := BitVec.ofNat 33 (w.toNat + onesOf w.toNat 32 % 2 * 2 ^ 32)

/-- A received word fails parity. -/
def badParity (w : LinkWord) : Bool := onesOf w.toNat 33 % 2 = 1

/-- A flit (Table 8.3): link header and 62 words. -/
def mkFlit (fseq ack ftype cvc cred : Nat) (ws : List W32) : List LinkWord :=
  (BitVec.ofNat 32 (fseq * 2 ^ 20 + ack * 2 ^ 8 + ftype) :: BitVec.ofNat 32 (cvc * 2 ^ 28 + cred * 2 ^ 16)
    :: (ws ++ List.replicate (62 - ws.length) 0)).map withParity

/-- A field of a received flit's link header. -/
def Flit.f (fl : Flit) (i lo n : Nat) : Nat := nbits ((fl.words.getD i 0).toNat) lo n
/-- FSEQ. -/
def Flit.fseq (fl : Flit) : Nat := fl.f 0 20 12
/-- ACKSEQ. -/
def Flit.ack (fl : Flit) : Nat := fl.f 0 8 12
/-- FTYPE. -/
def Flit.ftype (fl : Flit) : Nat := fl.f 0 0 4
/-- CVC. -/
def Flit.cvc (fl : Flit) : Nat := fl.f 1 28 4
/-- CRED. -/
def Flit.cred (fl : Flit) : Nat := fl.f 1 16 12
/-- Data bits of word `i`. -/
def Flit.word (fl : Flit) (i : Nat) : W32 := (fl.words.getD i 0).setWidth 32

/-- The channel whose credits the next flit returns, and how many: the lowest channel that is owed any, 0xF for none (Table
8.3). DESIGN CHOICE: the spec gives no order among channels. -/
def Port.owes (x : Port) : Nat × Nat :=
  match x.owed with
  | (c, n) :: _ => (c, min n 4095)
  | [] => (15, 0)

/-- A flit of type `ty` goes out with the current ACKSEQ and the credits owed (R242). -/
def Port.putFlit (x : Port) (p ty fseq : Nat) (ws : List W32) : Port × Out :=
  let o := x.owes
  ({ x with ackDue := false, owed := SMap.modD x.owed o.1 0 (· - o.2) }, .flit p (mkFlit fseq x.rxSeq ty o.1 o.2 ws))

/-- A NAK naming the expected FSEQ (R243). -/
def Port.sendNak (x : Port) (p : Nat) : Port × List FEff :=
  let (x, o) := x.putFlit p 2 x.rxSeq []
  (x, [.out o])

/-- A flit of the replay buffer goes out again, with the present ACKSEQ (R243). -/
def Port.resend (x : Port) (p : Nat) (t : TxFlit) : FEff := .out (.flit p (mkFlit t.fseq x.rxSeq 1 t.cvc t.cred t.words))

/-- Flits that the replay buffer holds at most (R244). -/
def replayCap : Nat := 2048

/-! Output queues and the choice of the next packet (R256, R257) -/

/-- Packets waiting on a channel. -/
def Port.queue (x : Port) (c : Nat) : List TxPkt := SMap.getD x.txWait c []

/-- A packet joins its channel's queue at an output port. The service port takes only TIME and CTRL: any other class is
discarded and counted (R236). -/
def Fab.enqueue (f : Fab) (p : Nat) (e : TxPkt) : Fab :=
  let x := f.port p
  if p = 3 && e.pkt.cls ≠ 3 && e.pkt.cls ≠ 5 then f.setPort p { x with pktErr := satInc x.pktErr }
  else f.setPort p { x with txWait := SMap.modD x.txWait e.pkt.chan [] (· ++ [e]) }

/-- Order in which R257 prefers channels: 12, then the higher HOP, and RSP before REQ and COLL at equal HOP. -/
def chanOrder : List Nat := [12, 11, 5, 10, 4, 9, 3, 8, 2, 7, 1, 6, 0]

/-- The entry of a channel's queue that goes next: a packet in transit in its turn, and among injected packets the class
that R30 grants, in the order of their arrival. -/
def Port.pick (x : Port) (l : List TxPkt) : Option (Nat × TxPkt) :=
  match l with
  | [] => none
  | e :: _ =>
    if e.inPort.isSome then some (0, e)
    else
      let inj := l.takeWhile fun e => e.inPort.isNone
      (grantOf x.injPassed ((List.range 3).filter fun c => inj.any fun e => e.cls.num = c)).bind fun c =>
        (inj.findIdx? fun e => e.cls.num = c).bind fun i => (inj[i]?).map fun e => (i, e)

/-- Channels with a waiting packet. -/
def Port.waiting (x : Port) : List Nat := chanOrder.filter fun c => !(x.queue c).isEmpty

/-- The credits of a channel cover a packet (R256). -/
def Port.covers (x : Port) (c n : Nat) : Bool := decide (n ≤ SMap.getD x.credits c 0)

/-- Words of a packet once it is sealed. -/
def Packet.size (k : Packet) : Nat := 12 + k.pay.length

/-- The channel, the place and the packet that the port grants next (R257). -/
def Port.choose (x : Port) : Option (Nat × Nat × TxPkt) :=
  let cands := x.waiting.filter fun c => match x.pick (x.queue c) with | some (_, e) => x.covers c e.pkt.size | none => false
  (grantOf x.passed cands).bind fun c => (x.pick (x.queue c)).map fun (i, e) => (c, i, e)

/-- A grant: the packet leaves its queue, and its words take credits. -/
def Port.grant (x : Port) (c i : Nat) (e : TxPkt) : Port :=
  let inj := (x.queue c).takeWhile fun e => e.inPort.isNone
  { x with
    txWait := SMap.setD x.txWait c ((x.queue c).eraseIdx i) []
    passed := passOver x.passed x.waiting c
    injPassed := if e.inPort.isSome then x.injPassed
      else passOver x.injPassed ((List.range 3).filter fun k => inj.any fun e => e.cls.num = k) e.cls.num
    credits := SMap.modD x.credits c 0 (· - e.pkt.size) }

/-- Packets of the port that have not been acknowledged: those that end in the replay buffer, the one being sent, and
those that wait (R247). One that has been granted carries no traffic class any longer; JOB stands for it. -/
def Port.unsent (x : Port) : List TxPkt :=
  ((x.txBuf.flatMap (·.pkts) ++ x.txCur.toList).map fun k => ⟨k, none, .job⟩) ++ x.txWait.flatMap (·.2)

/-- Add to a port's health score (R384, Table 12.10): HEALTH_WARN on first reaching 4,096. -/
def Port.addScore (x : Port) (p w : Nat) : Port × List FEff :=
  let s := satAdd x.score w
  if s.toNat ≥ 4096 && !x.warned then ({ x with score := s, warned := true }, [.event ⟨0x0305, 5, p, s.setWidth 32, 0⟩])
  else ({ x with score := s }, [])

/-- The port holds nothing to send any more. -/
def Port.dropTx (x : Port) : Port := { x with txBuf := [], txWait := [], passed := [], injPassed := [], txCur := none, txWords := [] }

/-- Credits for the whole receive buffer of a link, by channel: room for a packet of the largest size, 12 words about a
payload of 255, and what the implementation adds (R249, R256). -/
def linkBuffer : SMap Nat := (List.range 13).map fun c => (c, 267 + Sys2Proof.Config.linkRoom c)

/-- A change of state of a port and its event record (R245); FAILED and MISMATCH route what it holds again (R247), and so
does a port that goes down (R33, R477); UP sends the replay buffer again (R244). The first time the port comes UP its
buffer becomes credits for the peer (R256); they and the FSEQ counters go on from one training to the next, on which the spec
is silent: DESIGN CHOICE (log entry 190). -/
def Port.goTo (x : Port) (p : Nat) (st : PortSt) (now : Nat) : Port × List FEff :=
  let ev : List FEff := [.event ⟨0x0101, 5, p, BitVec.ofNat 32 (st.code + 8 * x.state.code), 0⟩]
  let y := { x with state := st, since := now, identAt := now }
  match st with
  | .failed | .mismatch | .down => (y.dropTx, ev ++ [.reroute x.unsent])
  | .up => ({ y with attempts := 0, nakRun := 0, primed := true, owed := if x.primed then x.owed else linkBuffer }, ev ++ x.txBuf.map (y.resend p))
  | .train => ({ y with attempts := 0 }, ev)
  | _ => (y, ev)

/-- Enter RETRAIN; the third entry within 1 s goes to FAILED instead (Table 8.4, Table 12.10). -/
def Port.retrain (x : Port) (p now : Nat) : Port × List FEff :=
  let recent := (x.retrainAt.filter fun t => decide (now < t + 1000000000)) ++ [now]
  let x := { x with retrains := satInc x.retrains, retrainAt := recent }
  let (x, e1) := x.addScore p 128
  let (x, e2) := x.goTo p .retrain now
  if recent.length ≥ 3 then
    let (x, e3) := x.goTo p .failed now
    (x, e1 ++ e2 ++ e3)
  else (x, e1 ++ e2)

/-- Flits of the replay buffer that an ACKSEQ passes are freed (R243). -/
def Port.ack (x : Port) (a : Nat) : Port :=
  match x.txBuf with
  | [] => x
  | t :: _ =>
    let n := (a + 4096 - t.fseq) % 4096
    if n ≤ x.txBuf.length && n != 0 then { x with txBuf := x.txBuf.drop n, nakRun := 0 } else x

/-- Credits that return with a flit (Table 8.3). -/
def Port.credit (x : Port) (vc n : Nat) : Port :=
  if vc ≤ 12 then { x with credits := SMap.modD x.credits vc 0 (· + n) } else x

/-- Cut received words into packets (R242, R249): a word with bits [3:0] zero where a header is expected pads the rest
of its flit. -/
def cutPackets : Nat → List W32 → List Packet → List Packet × List W32
  | 0, ws, acc => (acc, ws)
  | fuel + 1, ws, acc =>
    match ws with
    | [] => (acc, [])
    | w :: _ =>
      if nbits w.toNat 0 4 = 0 then (acc, [])
      else
        let n := nbits w.toNat 16 8
        if ws.length < 8 + n + 4 then (acc, ws)
        else cutPackets fuel (ws.drop (12 + n)) (acc ++ [⟨ws.take 8, (ws.drop 8).take n, (ws.drop (8 + n)).take 4⟩])

/-- What the receiver of every flit checks first (R243): parity, the FEC, a reserved FTYPE; a flit of another type than
`ty` is not this row's. An UP port answers a bad flit with a NAK. -/
def Port.rxFlit (x : Port) (p : Nat) (fl : Flit) (ty : Nat) (f : Port → Port × List FEff) : Port × List FEff :=
  let bad := (fl.words.filter badParity).length
  let y := { x with fecCe := satAdd x.fecCe fl.ce, cwNow := satAdd x.cwNow fl.ce }
  if x.state ≠ .up && x.state ≠ .ident then (x, [])
  else
    let nak := fun (y : Port) => if x.state = .up then y.sendNak p else (y, [])
    if bad ≠ 0 then nak { y with parity := satAdd y.parity bad, fecUe := if fl.ue then satInc y.fecUe else y.fecUe }
    else if fl.ue then nak { y with fecUe := satInc y.fecUe }
    else if fl.ftype ≥ 4 then nak y
    else if fl.ftype ≠ ty then (x, [])
    else f y

/-- FLIT_DATA_RECEIVE (R241 to R243). -/
def Port.rxData (x : Port) (p : Nat) (fl : Flit) : Port × List FEff :=
  x.rxFlit p fl 1 fun x =>
    if x.state ≠ .up then (x, [])
    else if fl.fseq ≠ x.rxSeq then x.sendNak p
    else
      let x := (x.ack fl.ack).credit fl.cvc fl.cred
      let (ps, rest) := cutPackets 16 (x.rxPart ++ (List.range 62).map fun i => fl.word (i + 2)) []
      ({ x with rxSeq := (x.rxSeq + 1) % 4096, rxPart := rest, rxPkts := x.rxPkts ++ ps, ackDue := true }, [])

/-- FLIT_NAK_RECEIVE (R243, R244). -/
def Port.rxNak (x : Port) (p : Nat) (fl : Flit) (now : Nat) : Port × List FEff :=
  x.rxFlit p fl 2 fun x =>
    if x.state ≠ .up then (x, [])
    else
      let fseq := fl.fseq
      let x := (x.ack fl.ack).credit fl.cvc fl.cred
      let run := if x.nakRun ≠ 0 ∧ x.nakSeq = fseq then x.nakRun + 1 else 1
      let (x, e1) := ({ x with replays := x.replays + 1, nakSeq := fseq, nakRun := run } : Port).addScore p 1
      let again := x.txBuf.dropWhile fun t => t.fseq ≠ fseq
      if run ≥ 8 then
        let (x, e2) := ({ x with nakRun := 0 } : Port).retrain p now
        (x, e1 ++ e2)
      else (x, e1 ++ again.map (x.resend p))

/-- FLIT_IDLE_RECEIVE: acknowledgement and credits (R242). -/
def Port.rxIdle (x : Port) (p : Nat) (fl : Flit) : Port × List FEff :=
  x.rxFlit p fl 0 fun x => ((x.ack fl.ack).credit fl.cvc fl.cred, [])

/-- FLIT_IDENT_RECEIVE (R246): `ours` tells that this module holds an identity, `sysid` its system ID. -/
def Port.rxIdent (x : Port) (p : Nat) (ours : Bool) (sysid : W32) (fl : Flit) (now : Nat) : Port × List FEff :=
  x.rxFlit p fl 3 fun x =>
    let x := (x.ack fl.ack).credit fl.cvc fl.cred
    let w2 := fl.word 2
    let w3 := fl.word 3
    if x.state ≠ .ident then (x, [])
    else if !ours then ({ x with identAt := now }, [])
    else
    let dev := nbits w2.toNat 0 16
    let pp := nbits w2.toNat 16 6
    if w2 ≠ BitVec.allOnes 32 && w3 = sysid && dev = x.peerDev && pp = x.peerPort then
      ({ x with seenDev := BitVec.ofNat 16 dev, seenPort := BitVec.ofNat 6 pp } : Port).goTo p .up now
    else
      let (y, e) := x.goTo p .mismatch now
      (y, e ++ [.event ⟨0x0102, 5, p, w2 &&& 0x3FFFFF#32, 0⟩])

/-- Words 2 and 3 of the IDENT flits this module sends (R246). -/
def Fab.identWords (f : Fab) (p : Nat) : W32 × W32 :=
  if f.idValid then (BitVec.ofNat 32 (f.self + p * 2 ^ 16), f.sysid) else (BitVec.allOnes 32, f.sysid)

/-- IDENT_TIMEOUT: 10 ms without an IDENT (R246). -/
def Port.identTimeout (x : Port) (p now : Nat) : Port × List FEff :=
  if x.state = .ident && decide (now ≥ x.identAt + 10000000) then x.goTo p .train now else (x, [])

/-- Count of lit lanes. -/
def litLanes (l : BitVec 5) : Nat := ((List.range 5).filter fun i => l.getLsbD i).length

/-- PORT_TRAIN_DONE (R237): `ok` marks the lanes that complete training and FEC lock. -/
def Port.trainDone (x : Port) (p : Nat) (ok : BitVec 5) (now : Nat) : Port × List FEff :=
  if x.state ≠ .train && x.state ≠ .retrain then (x, [])
  else if litLanes ok < 4 then
    ({ x with trainFails := satInc x.trainFails } : Port).goTo p .failed now
  else
    match (List.range 4).find? fun i => !ok.getLsbD i with
    | none => ({ x with spareInUse := false, sparedLane := 0 } : Port).goTo p .ident now
    | some i =>
      let fresh := !(x.spareInUse && x.sparedLane = BitVec.ofNat 2 i)
      let (x, e1) := if fresh then x.addScore p 1024 else (x, [])
      let (x, e2) := ({ x with spareInUse := true, sparedLane := BitVec.ofNat 2 i } : Port).goTo p .ident now
      (x, e1 ++ e2)

/-- PORT_TRAIN_TIMEOUT: 30 ms; FAILED after 3 attempts (R245). -/
def Port.trainTimeout (x : Port) (p now : Nat) : Port × List FEff :=
  if x.state = .train && decide (now ≥ x.since + 30000000) then
    let x := { x with attempts := x.attempts + 1, trainFails := satInc x.trainFails, since := now }
    if x.attempts ≥ 3 then x.goTo p .failed now else (x, [])
  else (x, [])

/-- PORT_RETRAIN_TIMEOUT: not in IDENT within 5 ms (R245). -/
def Port.retrainTimeout (x : Port) (p now : Nat) : Port × List FEff :=
  if x.state = .retrain && decide (now ≥ x.since + 5000000) then
    ({ x with trainFails := satInc x.trainFails } : Port).goTo p .failed now
  else (x, [])

/-- Lanes that carry traffic. -/
def Port.inUse (x : Port) (i : Nat) : Bool := if i = 4 then x.spareInUse else !(x.spareInUse && x.sparedLane.toNat = i)

/-- PORT_LIGHT_LOST (R245): fewer than four lit lanes take the port DOWN, or to FAILED during RETRAIN; the loss of one
lane that carries traffic sends an UP port to RETRAIN. -/
def Port.lightLost (x : Port) (p : Nat) (lost : BitVec 5) (now : Nat) : Port × List FEff :=
  let x := { x with light := x.light &&& ~~~lost }
  match x.state with
  | .down | .failed | .mismatch => (x, [])
  | .retrain => if litLanes x.light < 4 then x.goTo p .failed now else (x, [])
  | .up =>
    if litLanes x.light < 4 then x.goTo p .down now
    else if (List.range 5).any fun i => lost.getLsbD i && x.inUse i then x.retrain p now
    else (x, [])
  | _ => if litLanes x.light < 4 then x.goTo p .down now else (x, [])

/-- PORT_LIGHT_RETURN (R245): an enabled port with light on at least four lanes trains. -/
def Port.lightReturn (x : Port) (p : Nat) (back : BitVec 5) (now : Nat) : Port × List FEff :=
  let x := { x with light := x.light ||| back }
  if x.en && !x.bistBad && decide (litLanes x.light ≥ 4) && (x.state = .down || x.state = .failed || x.state = .mismatch) then x.goTo p .train now
  else (x, [])

/-- Where a packet goes next (R254). -/
inductive Hop where
  | deliver
  | send (port : Nat) (p : Packet)
  | drop
deriving DecidableEq, Repr

/-- Link state of global link (position, index) of this group (R255). -/
def Fab.linkUp (f : Fab) (gw gk : Nat) : Bool := f.glstate.contains (16 * gw + gk)

/-- A populated position's entry (R254). -/
def Fab.localEnt (f : Fab) (q : Nat) : Option LocalEnt := (SMap.get? f.locals q).filter (·.v)
/-- A populated group's entry (R254). -/
def Fab.groupEnt (f : Fab) (g : Nat) : Option GroupEnt := (SMap.get? f.groups g).filter (·.v)

/-- The port towards a gateway, when usable. -/
def Fab.gateway (f : Fab) (gw gk : Nat) : Option Nat :=
  if gw = f.pos then (if f.isUp (globalPort gk) then some (globalPort gk) else none)
  else
    match f.localEnt gw with
    | some l => if f.linkUp gw gk && f.isUp l.port.toNat then some l.port.toNat else none
    | none => none

/-- The first usable gateway of a group's entry (R254). -/
def Fab.toward (f : Fab) (g : Nat) : Option Nat :=
  match f.groupEnt g with
  | none => none
  | some e =>
    (f.gateway e.gw0.toNat e.gk0.toNat).orElse fun _ => if e.v1 then f.gateway e.gw1.toNat e.gk1.toNat else none

/-- The routing decision of R254. `source`: this module is the packet's source. -/
def Fab.route (f : Fab) (source : Bool) (k : Packet) : Hop :=
  let k := if k.f 2 25 1 = 1 && k.f 2 16 9 = f.group then k.setF 2 25 1 0 else k
  let target := if k.f 2 25 1 = 1 then k.f 2 16 9 else k.dst / 32
  if target = f.group then
    let q := k.dst % 32
    if k.dst = f.self then .deliver
    else
      match f.localEnt q with
      | none => .drop
      | some l =>
        if f.isUp l.port.toNat then .send l.port.toNat k
        else if k.f 2 26 1 = 0 && l.av then
          match f.localEnt l.alt.toNat with
          | some la => if f.isUp la.port.toNat then .send la.port.toNat (k.setF 2 26 1 1) else .drop
          | none => .drop
        else .drop
  else
    match f.toward target with
    | some p => .send p k
    | none =>
      if source && k.f 2 25 1 = 0 then
        match f.groupEnt target with
        | none => .drop
        | some e =>
          let tryVia := fun (ok : Bool) (g : Nat) => if ok then (f.toward g).map fun p => (g, p) else none
          match (tryVia e.av0 e.via0.toNat).orElse fun _ => tryVia e.av1 e.via1.toNat with
          | some (g, p) => .send p ((k.setF 2 25 1 1).setF 2 16 9 g)
          | none => .drop
      else .drop

/-- A packet of this module joins the output port that R254 gives; with none usable it is discarded and counted. -/
def Fab.inject (f : Fab) (cls : TCls) (k : Packet) : Fab :=
  match f.route true k with
  | .send p k' => f.enqueue p ⟨k', none, cls⟩
  | _ => { f with unroutable := f.unroutable + 1 }

/-- Port a packet of this module would leave on, when there is one (R259). -/
def Fab.exitPort (f : Fab) (k : Packet) : Option Nat :=
  match f.route true k with
  | .send p _ => some p
  | _ => none

/-- Buffer words that a packet held on a channel of a port become credits to return (R256). -/
def Fab.freeBuf (f : Fab) (p c n : Nat) : Fab :=
  let x := f.port p
  f.setPort p { x with owed := SMap.modD x.owed c 0 (· + n) }

/-- A packet leaves the buffer of the port it came in on, one hop lower (R256). -/
def Fab.freeIn (f : Fab) (e : TxPkt) : Fab :=
  match e.inPort with
  | some q => f.freeBuf q (e.pkt.setF 0 24 3 (e.pkt.hop - 1)).chan e.pkt.size
  | none => f

/-- Route again the packets of a failed port, as though newly arrived (R247). -/
def Fab.reinject (f : Fab) (ks : List TxPkt) : Fab :=
  ks.foldl (fun (f : Fab) e =>
    match f.route (e.pkt.src = f.self) e.pkt with
    | .send p k => f.enqueue p { e with pkt := k }
    | _ => { f.freeIn e with unroutable := f.unroutable + 1 }) f

/-- Update a port and take its effects; packets to be routed again are routed from this module. -/
def Fab.onPort (f : Fab) (p : Nat) (g : Port → Port × List FEff) : Fab × List FEff :=
  let (x, es) := g (f.port p)
  es.foldl (fun a e =>
    match e with
    | .reroute ks => (a.1.reinject ks, a.2)
    | e => (a.1, a.2 ++ [e])) (f.setPort p x, [])

/-- Count a discarded packet (R236, R252). -/
def Fab.pktErr (f : Fab) (p : Nat) : Fab :=
  let x := f.port p
  f.setPort p { x with pktErr := satInc x.pktErr }

/-- The packet that heads a port's received list leaves it; `free` tells that its buffer is free with that. -/
def Fab.take (f : Fab) (p : Nat) (k : Packet) (free : Bool) : Fab :=
  let x := f.port p
  let f := f.setPort p { x with rxPkts := x.rxPkts.tail }
  if free then f.freeBuf p k.chan k.size else f

/-- PACKET_FORWARD (R252, R254, R257): a packet in transit joins the output port's queue one hop on, and holds its buffer
here until it leaves. -/
def Fab.forward (f : Fab) (p : Nat) (k : Packet) : Fab :=
  let g := f.take p k true
  if k.ver ≠ 1 || k.dst / 2 ^ 14 ≠ 0 || decide (k.hop + 1 > 5) || (p = 3 && k.cls ≠ 3 && k.cls ≠ 5) then g.pktErr p
  else
    match f.route false k with
    | .deliver => g
    | .send q k' =>
      if q = 3 && k.cls ≠ 3 && k.cls ≠ 5 then g.pktErr q
      else (f.take p k false).enqueue q ⟨k'.setF 0 24 3 (k.hop + 1), some p, .job⟩
    | .drop => { g with unroutable := g.unroutable + 1 }

/-- Fabric state of a context. -/
def Fab.ctx (f : Fab) (c : Nat) : FabCtx := f.ctxs.getD c FabCtx.reset
/-- Store the fabric state of a context. -/
def Fab.setCtx (f : Fab) (c : Nat) (x : FabCtx) : Fab := { f with ctxs := SMap.setD f.ctxs c x FabCtx.reset }

/-- A device is fenced for a context at its present epoch (R269). -/
def Fab.isFenced (f : Fab) (c dev : Nat) : Bool := f.fences.any fun x => x.ctx = c && x.epoch = (f.ctx c).epoch && x.dev = dev

/-- FENCES of Table 8.17: entries of the present epoch. -/
def Fab.fenceCnt (f : Fab) (c : Nat) : Nat := (f.fences.filter fun x => x.ctx = c && x.epoch = (f.ctx c).epoch).length

/-- Ports a FENCE goes out on: UP local and global ports (R267, R268). -/
def Fab.fencePorts (f : Fab) (except : Option Nat) : List Nat :=
  (List.range 48).filter fun p => f.isUp p && portRole p != 2 && decide (some p ≠ except)

/-- Reserved and range checks of a packet header at its destination (R252, R12): the status a failing REQ is answered
with. -/
def Packet.check (k : Packet) : Option Status :=
  if k.ver ≠ 1 then some .version
  else
    let cls := k.cls
    let op := k.op
    let known := match cls with
      | 0 => decide (1 ≤ op) && decide (op ≤ 3)
      | 1 => decide (1 ≤ op) && decide (op ≤ 2)
      | 2 => decide (1 ≤ op) && decide (op ≤ 7)
      | 3 => decide (1 ≤ op) && decide (op ≤ 2)
      | 4 => op = 1
      | 5 => decide (1 ≤ op) && decide (op ≤ 4)
      | _ => false
    let noCtx := cls = 3 || cls = 5
    let rsv := k.f 0 27 5 ≠ 0 || !known || k.src / 2 ^ 14 ≠ 0 || k.dst / 2 ^ 14 ≠ 0 || k.f 2 27 5 ≠ 0 || k.f 2 12 4 ≠ 0
      || k.f 2 10 2 ≠ 0 || (noCtx && (k.ctx ≠ 0 || k.epoch ≠ 0))
      || (cls ≠ 0 && cls ≠ 1 && cls ≠ 2 && k.seqNo ≠ 0)
      || (cls = 0 && k.addr / 2 ^ 48 ≠ 0)
      || (cls = 2 && (k.addr / 2 ^ 46 ≠ 0 || decide (nbits k.addr 40 4 ≥ 7) || nbits k.addr 44 2 = 3))
      || ((cls = 1 || (cls = 5 && op = 3)) && decide (k.aux % 2 ^ 8 ≥ 15))
      || (cls = 5 && (op = 1 || op = 2) && (k.addr / 2 ^ 26 ≠ 0 || k.addr % 4 ≠ 0))
      || ((cls = 1 || cls = 3 || cls = 4 || (cls = 5 && op > 2)) && k.addr ≠ 0)
      || (cls = 0 && op = 3 && k.aux ≠ 0) || (cls = 0 && op ≤ 2 && k.aux / 2 ^ 9 ≠ 0) || (cls = 1 && k.aux / 2 ^ 8 ≠ 0)
      || (cls = 2 && op ≠ 1 && k.aux ≠ 0) || ((cls = 3 || cls = 4) && k.aux ≠ 0)
      || (cls = 5 && op ≤ 2 && k.aux / 2 ^ 7 ≠ 0) || (cls = 5 && op = 3 && k.aux / 2 ^ 8 ≠ 0) || (cls = 5 && op = 4 && k.aux ≠ 0)
    let bytes := k.aux % 2 ^ 9
    let words := k.aux % 2 ^ 7
    let lenOk := match cls, op with
      | 0, 1 => k.len = 0
      | 0, 2 => k.len = ceilDiv (k.addr % 4 + bytes) 4
      | 0, _ => k.len = 10
      | 1, 2 => k.len = 0
      | 2, 1 => decide (1 ≤ k.len)
      | 2, 2 => k.len = 2
      | 2, 4 => k.len = 4
      | 2, _ => k.len = 1
      | 3, 1 => k.len = 2
      | 3, _ => k.len = 8
      | 4, _ => k.len = 2
      | 5, 1 => k.len = 0
      | 5, 2 => k.len = words
      | 5, 4 => k.len = 16
      | _, _ => true
    let bad := decide (k.len > 64) || decide (k.hop > 5) || !lenOk
      || (cls = 0 && op ≤ 2 && (bytes = 0 || decide (bytes > 256) || decide (k.addr % 256 + bytes > 256)))
      || (cls = 5 && op ≤ 2 && (words = 0 || decide (words > 64)))
    if rsv then some .rsvdSet else if bad then some .range else none

/-- A number as a signed 64-bit one. -/
def s64 (x : Int) : Int := Int.bmod x (2 ^ 64)

/-- Offset and delay of a time exchange (R274): both halves truncate toward zero, in 64-bit arithmetic. -/
def timeExchange (t1 t2 t3 t4 : Nat) (parentOff : Int) : Int × Nat :=
  let up := s64 ((t2 : Int) - t1)
  let down := s64 ((t4 : Int) - t3)
  (s64 ((s64 (down - up)).tdiv 2 + parentOff), (((s64 (up + down)).tdiv 2) % 2 ^ 64).toNat)

end Sys2Proof
end

