-- ==== Sys2Proof/Machine/CollOps.lean ====
section
/-! DEFINITION. Collectives as data: shards, flows and their segments, the reduction of a shard, votes, and the interval
arithmetic of a permute (R280 to R296). -/
namespace Sys2Proof

/-- The status of a code (Table 5.14); a code it does not list reads as RANGE. -/
def Status.ofCode (n : Nat) : Status :=
  match n with
  | 0 => .ok | 1 => .rsvdSet | 2 => .version | 3 => .busy | 4 => .denied | 5 => .fenced | 6 => .parity | 7 => .late
  | 8 => .abandoned | 9 => .overflowSkip | 11 => .poisoned | 12 => .notInRange | 13 => .abftMismatch | 14 => .degraded
  | _ => .range

/-! Intervals `(first, length)` -/

/-- The part of an interval inside `[lo, lo + n)`. -/
def ivMeet (x : Nat × Nat) (lo n : Nat) : Option (Nat × Nat) :=
  let a := max x.1 lo
  let b := min (x.1 + x.2) (lo + n)
  if a < b then some (a, b - a) else none

/-- Intervals without `[lo, lo + n)`. -/
def ivCut (l : List (Nat × Nat)) (lo n : Nat) : List (Nat × Nat) :=
  l.flatMap fun x =>
    match ivMeet x lo n with
    | none => [x]
    | some m =>
      (if x.1 < m.1 then [(x.1, m.1 - x.1)] else []) ++
        (if m.1 + m.2 < x.1 + x.2 then [(m.1 + m.2, x.1 + x.2 - (m.1 + m.2))] else [])

/-- Intervals without all of `m`. -/
def ivDiff (l m : List (Nat × Nat)) : List (Nat × Nat) := m.foldl (fun l x => ivCut l x.1 x.2) l

/-- Every place of `[lo, lo + n)` lies in the intervals. -/
def ivCovers (l : List (Nat × Nat)) (lo n : Nat) : Bool := (ivDiff (if n = 0 then [] else [(lo, n)]) l).isEmpty

/-- Blocks of 256 bytes in `n` bytes. -/
def blocksOf (n : Nat) : Nat := ceilDiv n 256

/-- Add `[lo, lo + n)`, joining it to an interval that ends where it begins. -/
def ivAdd (l : List (Nat × Nat)) (lo n : Nat) : List (Nat × Nat) :=
  if n = 0 then l
  else
    match l.find? fun x => x.1 + x.2 = lo with
    | some x => (l.filter (· ≠ x)) ++ [(x.1, x.2 + n)]
    | none => l ++ [(lo, n)]

/-! Shards -/

/-- Equal split of `count` over `n` ranks, in units of `u` elements (R280). -/
def equalSplit (count n u : Nat) : List (Nat × Nat) :=
  let k := count / u
  (List.range n).map fun r => ((k / n + (if r < k % n then 1 else 0)) * u, 0)

/-- Length of shard `r`. -/
def Inst.len (i : Inst) (r : Nat) : Nat := (i.lens.getD r (0, 0)).1
/-- New length of rank `r` (permute). -/
def Inst.newLen (i : Inst) (r : Nat) : Nat := (i.lens.getD r (0, 0)).2
/-- First element of shard `r`. -/
def Inst.off (i : Inst) (r : Nat) : Nat := ((i.lens.take r).map (·.1)).sum
/-- First new element of rank `r`. -/
def Inst.newOff (i : Inst) (r : Nat) : Nat := ((i.lens.take r).map (·.2)).sum

/-- Format of a body; H16 where the operation has none. -/
def CollBody.f (b : CollBody) : Fmt := (fmtOf b.fmt).getD .h16

/-- FMT and OPR of a body as a packet's address field carries them (Table 8.5). -/
def CollBody.fo (b : CollBody) : Nat := b.fmt + b.opr * 16

/-- Bytes of `k` elements without their scales. -/
def elBytes (f : Fmt) (k : Nat) : Nat := k * fmtBits f / 8
/-- Scale bytes of `k` elements. -/
def scBytes (f : Fmt) (k : Nat) : Nat := if fmtScaled f then ceilDiv k 32 else 0
/-- Bytes of `k` elements with their scales (R278). -/
def allBytes (f : Fmt) (k : Nat) : Nat := elBytes f k + scBytes f k

/-- Elements `[o, o + k)` with their scales out of a tensor of `count` elements. -/
def sliceOf {α : Type} (f : Fmt) (t : List α) (count o k : Nat) : List α :=
  (t.drop (elBytes f o)).take (elBytes f k) ++ (t.drop (elBytes f count + scBytes f o)).take (scBytes f k)

/-! Flows: a contribution part, and after it the result part of ALLREDUCE and REDUCE -/

/-- Bytes of a segment: 2 MiB. -/
def segSize : Nat := 0x200000

/-- Elements that rank `from_` sends to rank `to_` in a permute: first element and count (R293). -/
def Inst.permFlow (i : Inst) (from_ to_ : Nat) : Nat × Nat :=
  (ivMeet (i.off from_, i.len from_) (i.newOff to_) (i.newLen to_)).getD (0, 0)

/-- Bytes of the contribution part of the flow from one rank to another. -/
def Inst.contrib (i : Inst) (b : CollBody) (from_ to_ : Nat) : Nat :=
  if from_ = to_ then 0
  else
    match b.op with
    | .reduce | .allreduce | .reducescatter => allBytes b.f (i.len to_)
    | .allgather => allBytes b.f (i.len from_)
    | .xfer => allBytes b.f b.count
    | .permute => allBytes b.f (i.permFlow from_ to_).2
    | _ => 0

/-- Bytes of the result part: the owner's reduced shard, then its DETAIL; nothing for an empty shard (R280). -/
def Inst.resultPart (i : Inst) (b : CollBody) (from_ to_ : Nat) : Nat :=
  if from_ = to_ || i.len from_ = 0 then 0
  else
    match b.op with
    | .allreduce => allBytes b.f (i.len from_) + 4
    | .reduce => if to_ = b.root then allBytes b.f (i.len from_) + 4 else 0
    | _ => 0

/-- Segments of a part. -/
def segsOf (n : Nat) : Nat := ceilDiv n segSize

/-- Byte range of segment `j` of a flow with parts of `c` and `r` bytes. -/
def segRange (c r j : Nat) : Option (Nat × Nat) :=
  let k := segsOf c
  if j < k then some (j * segSize, min segSize (c - j * segSize))
  else if j - k < segsOf r then some (c + (j - k) * segSize, min segSize (r - (j - k) * segSize))
  else none

/-- Segment that holds byte `x`. -/
def segAt (c x : Nat) : Nat := if x < c then x / segSize else segsOf c + (x - c) / segSize

/-- The flow to a rank as bytes: contribution, then result once there is one. -/
def Inst.flowOut (i : Inst) (b : CollBody) (me to_ : Nat) : List MByte :=
  let c := match b.op with
    | .reduce | .allreduce | .reducescatter => sliceOf b.f i.src b.count (i.off to_) (i.len to_)
    | .permute => let p := i.permFlow me to_; sliceOf b.f i.src (i.len me) (p.1 - i.off me) p.2
    | _ => i.src
  c ++ (if i.resultPart b me to_ = 0 then [] else match i.result with | some (bs, d) => bs ++ (leBytes 4 d.toNat).map (·, false) | none => [])

/-- Bytes of the flow to rank `r` that a GRANT of elements covers (R294). -/
def Inst.grantBytes (i : Inst) (b : CollBody) (me r : Nat) (x : Nat × Nat) : List (Nat × Nat) :=
  let p := i.permFlow me r
  match ivMeet x p.1 p.2 with
  | some m => [(elBytes b.f (m.1 - p.1), elBytes b.f m.2)]
  | none => []

/-- Add a GRANT to the flow to a rank: as bytes once the lengths are known, as elements before (R294). -/
def Inst.addGrant (i : Inst) (me r : Nat) (x : Nat × Nat) : Inst :=
  let add := match i.body with
    | some b => if i.phase = .run then i.grantBytes b me r x else [x]
    | none => [x]
  if i.outs.any fun o => o.rank = r then { i with outs := i.outs.map fun o => if o.rank = r then { o with todo := o.todo ++ add } else o }
  else { i with outs := i.outs ++ [⟨r, add, [], [], 0⟩] }

/-- Add a CREDIT to the flow to a rank (R283, R294). -/
def Inst.addCredit (i : Inst) (r n : Nat) : Inst :=
  if i.outs.any fun o => o.rank = r then { i with outs := i.outs.map fun o => if o.rank = r then { o with credit := o.credit + n } else o }
  else { i with outs := i.outs ++ [⟨r, [], [], [], n⟩] }

/-- The inflow of a rank. -/
def Inst.inFrom (i : Inst) (r : Nat) : InFlow := (i.inn.find? fun x => x.rank = r).getD ⟨r, false, [], [], [], [], []⟩
/-- Store the inflow of a rank. -/
def Inst.setIn (i : Inst) (x : InFlow) : Inst := { i with inn := (i.inn.filter fun y => y.rank ≠ x.rank) ++ [x] }
/-- Change an outflow. -/
def Inst.modOut (i : Inst) (r : Nat) (f : OutFlow → OutFlow) : Inst :=
  { i with outs := i.outs.map fun x => if x.rank = r then f x else x }

/-- The bytes `lo` to `lo + n - 1` of a flow have come, and their CRC-32C is the one sent with them (R285). -/
def InFlow.holds (x : InFlow) (lo n crc : Nat) : Bool := ivCovers x.got lo n && decide ((crc32c (x.data.rdN lo n)).toNat = crc)

/-- Segment `j` of a flow has been taken whole before the cut-off of R282. -/
def InFlow.inTime (x : InFlow) (i : Inst) (b : CollBody) (j : Nat) : Bool :=
  match x.good.find? fun g => g.1 = j with
  | some g => decide (g.2 < b.deadline) || decide (g.2 ≤ i.issueAt)
  | none => false

/-- Every segment of the contribution of rank `r` has been included. -/
def Inst.whole (i : Inst) (b : CollBody) (me r : Nat) : Bool :=
  (List.range (segsOf (i.contrib b r me))).all fun j => (i.inFrom r).inTime i b j

/-- Some segment of the contribution of rank `r` has been included, and some has not. -/
def Inst.partial_ (i : Inst) (b : CollBody) (me r : Nat) : Bool :=
  !i.whole b me r && (List.range (segsOf (i.contrib b r me))).any fun j => (i.inFrom r).inTime i b j

/-- A segment of the result part of rank `r` has come. -/
def Inst.resultIn (i : Inst) (b : CollBody) (me r : Nat) : Bool :=
  let c := segsOf (i.contrib b r me)
  (List.range (segsOf (i.resultPart b r me))).all fun j => (i.inFrom r).good.any fun g => g.1 = c + j

/-- Every segment of the contribution part of rank `r` has come, whenever. -/
def Inst.contribIn (i : Inst) (b : CollBody) (me r : Nat) : Bool :=
  (List.range (segsOf (i.contrib b r me))).all fun j => (i.inFrom r).good.any fun g => g.1 = j

/-! Reduction (R283) -/

/-- One contribution to a shard: its bytes, and the byte ranges of it that count. -/
structure Contribution where
  data : Mem
  has : List (Nat × Nat)
deriving DecidableEq, Repr

/-- Element `e` of a contribution to a shard of `k` elements, with its scale, if all its bytes count. -/
def Contribution.elem (c : Contribution) (f : Fmt) (k e : Nat) : Option (Nat × Nat) :=
  let o := e * fmtBits f / 8
  let w := ceilDiv (fmtBits f) 8
  let so := elBytes f k + e / 32
  if ivCovers c.has o w && (!fmtScaled f || ivCovers c.has so 1) then
    some ((leNat (c.data.rdN o w)) >>> (if fmtBits f = 4 then 4 * (e % 2) else 0) % 2 ^ fmtBits f,
      if fmtScaled f then (c.data.rd so).toNat else 127)
  else none

/-- Exact sum of H16 patterns rounded once to H16, and whether it saturates or is not finite. -/
def sumH16 (vs : List Nat) : Nat × Bool :=
  match vs with
  | [] => (0, false)
  | v :: vs =>
    let i := fmtInfo .h16
    match vs.foldl (fun a x => a.add (decodeElem .h16 x)) (decodeElem .h16 v) with
    | .nan => (i.nan, true)
    | .inf n => (b2n n * 2 ^ 15 + i.infMag.getD 0, true)
    | .fin n m e =>
      let g := roundMag i.p i.qmin m e
      if g > i.maxMag then (b2n n * 2 ^ 15 + i.infMag.getD 0, true) else (b2n n * 2 ^ 15 + g, false)

/-- Reduce the elements of a shard of `k`: the bytes, and whether OVF is set. -/
def reduceShard (f : Fmt) (opr k : Nat) (cs : List Contribution) : List Byte × Bool :=
  let at_ := fun (e : Nat) => cs.filterMap fun c => c.elem f k e
  if opr = 0 then
    (List.range k).foldl (fun (a : List Byte × Bool) e =>
      let (v, o) := sumH16 ((at_ e).map (·.1))
      (a.1 ++ leBytes 2 v, a.2 || o)) ([], false)
  else
    let fold := fun (e : Nat) =>
      match (at_ e).map fun x => toF32 f x.1 x.2 with
      | [] => f32Zero
      | x :: xs => xs.foldl (if opr = 1 then f32Max else f32Min) x
    let rs := (List.range k).map fold
    if fmtScaled f then
      let blocks := (List.range (ceilDiv k 32)).map fun b => (rs.drop (32 * b)).take 32
      let enc := blocks.map fun b => let x := blockScale f b; (x, b.map fun r => encodeElem f x r)
      ((enc.flatMap fun p => p.2.flatMap fun e => leBytes 1 e.1) ++ (enc.map fun p => BitVec.ofNat 8 p.1),
        (enc.any fun p => p.2.any (·.2)) || rs.any f32NonFinite)
    else
      let enc := rs.map fun r => encodeElem f 127 r
      (enc.flatMap fun e => leBytes (fmtBits f / 8) e.1, (enc.any (·.2)) || rs.any f32NonFinite)

/-- Marks of a reduced shard of `k` elements: an element, or for a scaled format its whole block, is marked when a byte of the
owner's own contribution to it is (R222). -/
def shardMarks (f : Fmt) (k : Nat) (own : List MByte) : List Bool :=
  let w := fmtBits f / 8
  let bad := fun (e : Nat) => ((own.drop (e * w)).take w).any (·.2) || (fmtScaled f && ((own.drop (elBytes f k + e / 32)).take 1).any (·.2))
  if fmtScaled f then
    let blk := fun (j : Nat) => (List.range (min 32 (k - 32 * j))).any fun e => bad (32 * j + e)
    (List.range (elBytes f k)).map (fun x => blk (x / w / 32)) ++ (List.range (scBytes f k)).map blk
  else (List.range (elBytes f k)).map fun x => bad (x / w)

/-- DETAIL of Table 8.12. -/
def collDetail (dropped folded : Nat) (part : Bool) (inc : Nat) : W32 :=
  BitVec.ofNat 32 (min dropped 255 * 2 ^ 24 + min folded 255 * 2 ^ 16 + b2n part * 2 ^ 15 + inc)

/-- Where flow bytes `[lo, lo + n)` of a shard of `k` elements go: element bytes from `de`, scale bytes from `ds`. -/
def placeFlow (f : Fmt) (k de ds : Nat) (x : InFlow) (base lo n : Nat) : List (Nat × List Byte) :=
  let el := elBytes f k
  let take := fun (p : Nat × Nat) (d z : Nat) => (d + (p.1 - z), x.data.rdN (base + p.1) p.2)
  ((ivMeet (lo, n) 0 el).map fun p => take p de 0).toList ++ ((ivMeet (lo, n) el (scBytes f k)).map fun p => take p ds el).toList

/-! Votes (R178, R181) -/

/-- Result of a vote from samples (OVF, PSN): 1 CLEAN, 2 OVERFLOW, 3 POISON. -/
def voteResult (l : List (Bool × Bool)) : Nat := if l.any (·.2) then 3 else if l.any (·.1) then 2 else 1

/-- W16 pattern of 2^e. -/
def w16Pow (e : Int) : Nat := ((e + 127) * 128).toNat

/-- Numerics record (Table 6.10). -/
def numRecord (step : W32) (ls : Int) (result : Nat) (clean : W16) : List Byte :=
  leBytes 4 step.toNat ++ leBytes 4 (ofS 8 ls * 256 + result) ++ leBytes 4 (w16Pow (-ls) * 65536 + w16Pow ls)
    ++ leBytes 4 clean.toNat

/-- Shift an element interval. -/
def ivShift (x : Nat × Nat) (d : Int) : Nat × Nat := (((x.1 : Int) + d).toNat, x.2)

/-- An instance is open: issued and not over. -/
def Inst.isOpen (i : Inst) : Bool := i.phase ≠ .early && i.phase ≠ .past
/-- Empty instance of a key. -/
def newInst (k : InstKey) (now : Nat) : Inst where
  key := k
  desc := none
  body := none
  phase := .early
  cls := .job
  issueAt := now
  lens := []
  src := []
  err := false
  inn := []
  outs := []
  lastOut := 0
  scr := false
  result := none
  writes := []
  status := .ok
  late := false
  arrived := []
  detail := 0
  unread := []
  ungranted := []
  ring := []
  filled := []
  kept := false
  reissue := false
  decided := none

/-- Ranks other than this one. -/
def othersOf (g : CGroup) : List Nat := (List.range g.members.length).filter (· ≠ g.rank)

/-- DETAIL that came with the result of rank `r`. -/
def Inst.resultDetail (i : Inst) (b : CollBody) (me r : Nat) : Nat :=
  leNat ((i.inFrom r).data.rdN (i.contrib b r me + allBytes b.f (i.len r)) 4)

/-- Writes of the delivered segments of a part of rank `r`'s flow, for the shard of elements `[o, o + k)` of a tensor of
`count` at the destination. -/
def Inst.partWrites (i : Inst) (b : CollBody) (me r count o k : Nat) (res : Bool) : List (Nat × Nat × List MByte) :=
  let c := i.contrib b r me
  let x := i.inFrom r
  let base := if res then c else 0
  (x.good.flatMap fun g =>
    match segRange c (i.resultPart b r me) g.1 with
    | some (lo, n) =>
      if decide (lo < c) == res then []
      else (placeFlow b.f k (b.dst + elBytes b.f o) (b.dst + elBytes b.f count + scBytes b.f o) x base (lo - base) n).map fun w =>
        (b.dsp, w.1, w.2.map (·, false))
    | none => [])

/-- Writes of this member's own elements into the destination. -/
def ownWrites (b : CollBody) (count o k : Nat) (bs : List MByte) : List (Nat × Nat × List MByte) :=
  [(b.dsp, b.dst + elBytes b.f o, bs.take (elBytes b.f k)),
   (b.dsp, b.dst + elBytes b.f count + scBytes b.f o, bs.drop (elBytes b.f k))].filter fun w => !w.2.2.isEmpty

/-- Write of a report into the length table (R287). -/
def lensReport (b : CollBody) (r d : Nat) : List (Nat × Nat × List MByte) :=
  if b.lens = 0 then [] else [(0, b.lens + 8 * r + 4, (leBytes 4 d).map (·, false))]

/-- `n` bytes that the spec leaves unspecified (R293, R296). -/
def freeBytes (base n : Nat) : List Byte :=
  (List.range n).map fun j => (Sys2Proof.Config.freeValue (base + j)).setWidth 8

/-! Permute (R293 to R296) -/

/-- Elements that this member keeps: old and new. -/
def Inst.keptIv (i : Inst) (me : Nat) : Option (Nat × Nat) := ivMeet (i.off me, i.len me) (i.newOff me) (i.newLen me)

/-- Where new element `g` lies in this member's buffer. -/
def Inst.newAddr (i : Inst) (b : CollBody) (me g : Nat) : Nat := b.dst + elBytes b.f (g - i.newOff me)

/-- Kept elements on their way, in blocks of 256 bytes: in descending order towards higher positions, in ascending order
towards lower ones (R295). -/
def Inst.keptBlocks (i : Inst) (b : CollBody) (me : Nat) (k : Nat × Nat) : List RingBlk :=
  let u := 2048 / fmtBits b.f
  let l := (List.range (ceilDiv k.2 u)).map fun j =>
    let g := k.1 + j * u
    let n := min u (k.1 + k.2 - g)
    (⟨none, g, n, i.newAddr b me g, (i.src.drop (elBytes b.f (g - i.off me))).take (elBytes b.f n)⟩ : RingBlk)
  if i.newOff me < i.off me then l.reverse else l

/-- Kept elements move once no position they take holds an element still to be sent (R293, R295). -/
def Inst.keepMove (i : Inst) (b : CollBody) (me : Nat) : Inst :=
  match i.keptIv me with
  | none => { i with kept := true }
  | some k =>
    if i.kept then i
    else
      let target := ivShift k ((i.off me : Int) - (i.newOff me : Int))
      let others := ivCut i.unread k.1 k.2
      if others.all fun x => (ivMeet x target.1 target.2).isNone then
        { i with kept := true, unread := others, ring := i.ring ++ i.keptBlocks b me k }
      else i

/-- The elements that bytes at `lo` of the flow of rank `r` hold, on their way to their final place (R294); none for bytes of
its scales. -/
def Inst.blockIn (i : Inst) (b : CollBody) (me r lo : Nat) (bs : List Byte) : List RingBlk :=
  let p := i.permFlow r me
  let el := elBytes b.f p.2
  if lo ≥ el then []
  else
    let bs := bs.take (el - lo)
    let g := p.1 + lo * 8 / fmtBits b.f
    [⟨some r, g, bs.length * 8 / fmtBits b.f, i.newAddr b me g, bs.map (·, false)⟩]

/-- New elements granted to their senders and not yet filled. -/
def Inst.unfilled (i : Inst) (me : Nat) : List (Nat × Nat) :=
  ivDiff (if i.newLen me = 0 then [] else [(i.newOff me, i.newLen me)]) (i.ungranted ++ (i.keptIv me).toList ++ i.filled)

/-- Positions of a permute whose data is unspecified when it ends without all it needs: address and length (R296). -/
def Inst.openPlaces (i : Inst) (b : CollBody) (me : Nat) : List (Nat × Nat) :=
  (i.unfilled me).map fun x => (i.newAddr b me x.1, elBytes b.f x.2)

/-- Bytes of the buffer of a permute. -/
def Inst.bufBytes (i : Inst) (b : CollBody) (me : Nat) : Nat := allBytes b.f (max (i.len me) (i.newLen me))

/-- Scale of new block `u` of a permute: its own, or one that has come. -/
def Inst.newScale (i : Inst) (b : CollBody) (me u : Nat) : Option MByte :=
  let g := i.newOff me + 32 * u
  if i.off me ≤ g && g < i.off me + i.len me then i.src[elBytes b.f (i.len me) + (g - i.off me) / 32]?
  else
    ((List.range i.lens.length).find? fun r => r ≠ me && (ivMeet (i.permFlow r me) g 1).isSome).bind fun r =>
      let p := i.permFlow r me
      let o := elBytes b.f p.2 + (g - p.1) / 32
      if ivCovers (i.inFrom r).got o 1 then some ((i.inFrom r).data.rd o, false) else none

/-- The last writes of a permute: the scales of its new elements, a granted one that has not come being unspecified, then
unspecified data at the granted positions that were not filled, or, after a permute that has all its data, beyond the new
elements (R293, R296). `free` numbers the unspecified bytes. -/
def Inst.permuteEnd (i : Inst) (b : CollBody) (me free : Nat) (poison : Bool) : List (Nat × Nat × List MByte) :=
  let any_ := fun (a n : Nat) => (b.dsp, a, (freeBytes (free + (a - b.dst)) n).map (·, false))
  let L' := i.newLen me
  let sc := if fmtScaled b.f then (List.range (ceilDiv L' 32)).flatMap fun u =>
      let a := b.dst + elBytes b.f L' + u
      match i.newScale b me u with
      | some x => [(b.dsp, a, [x])]
      | none => if ivCovers i.ungranted (i.newOff me + 32 * u) 1 then [] else [any_ a 1]
    else []
  let n := allBytes b.f (max (i.len me) L') - allBytes b.f L'
  sc ++ (if poison then (i.openPlaces b me).map fun x => any_ x.1 x.2 else if n = 0 then [] else [any_ (b.dst + allBytes b.f L') n])

/-- Bytes of SRC that this member reads. -/
def Inst.srcBytes (i : Inst) (b : CollBody) (me : Nat) : Nat :=
  match b.op with
  | .reduce | .allreduce | .reducescatter => allBytes b.f b.count
  | .allgather | .permute => allBytes b.f (i.len me)
  | .xfer => if b.opr = 0 then allBytes b.f b.count else 0
  | _ => 0

/-- Order 2 of Table 8.11 for the lengths: sum, size, multiples of 32, and the extents that they give. -/
def lensBad (i : Inst) (b : CollBody) (me : Nat) : Bool :=
  let sum := (i.lens.map (·.1)).sum
  let ext := fun (sp a n : Nat) => n != 0 && addrRange sp a n
  sum != b.count || (i.lens.any fun l => decide (l.1 ≥ 2 ^ 32)) || (fmtScaled b.f && i.lens.any fun l => l.1 % 32 != 0 || (b.op = .permute && l.2 % 32 != 0))
    || (b.op = .permute && ((i.lens.map (·.2)).sum != b.count))
    || (fmtBits b.f = 4 && i.lens.any fun l => l.1 % 2 != 0)
    || ext b.ssp b.src (i.srcBytes b me)
    || (match b.op with
        | .reducescatter => ext b.dsp b.dst (allBytes b.f (i.len me))
        | .allreduce | .allgather => ext b.dsp b.dst (allBytes b.f b.count)
        | .reduce => me = b.root && ext b.dsp b.dst (allBytes b.f b.count)
        | .permute => ext b.dsp b.dst (allBytes b.f (max (i.len me) (i.newLen me)))
        | .xfer => b.opr = 1 && ext b.dsp b.dst (allBytes b.f b.count)
        | _ => false)

/-- Elements lie on their natural boundary. -/
def collAlign (f : Fmt) (a : Nat) : Bool := a % (max 1 (fmtBits f / 8)) = 0

/-! What an instance still needs -/

/-- Segments of a reduction that have been included, held or dropped, with their ranks (Table 8.13). -/
def Inst.taken (i : Inst) : List (Nat × Nat) := i.inn.flatMap fun x => x.good.map fun g => (x.rank, g.1)

/-- Bytes of accumulators of a reduction's own shard. -/
def Inst.accBytes (i : Inst) (b : CollBody) (me : Nat) : Nat := i.len me * (if b.opr = 0 then 8 else 4)

/-- A reduction that gathers contributions of a context. -/
def Inst.gathers (i : Inst) (c : Nat) : Bool :=
  i.phase = .run && i.key.ctx = c && i.result.isNone && !i.reissue && (match i.body with | some b => b.op.isRed | none => false)

/-- The flow of rank `r` has a staging segment: it may send, and its contribution has not all come. -/
def Inst.staged (i : Inst) (b : CollBody) (me r : Nat) : Bool := (i.inFrom r).opened && !i.contribIn b me r

/-- Data that rank `r` owes this member has not come (R288). -/
def Inst.lacks (i : Inst) (b : CollBody) (me r : Nat) : Bool :=
  match b.op with
  | .allreduce => !i.resultIn b me r
  | .reduce => me = b.root && !i.resultIn b me r
  | .allgather | .permute => !i.contribIn b me r
  | .xfer => b.opr = 1 && r = b.root && !i.contribIn b me r
  | _ => false

/-- A fenced rank leaves this member's work without an end: it lacks data, or a destination (R269, R288). -/
def Inst.needs (i : Inst) (b : CollBody) (me r : Nat) : Bool :=
  i.lacks b me r || (b.op = .xfer && b.opr = 0 && r = b.root) || (b.op = .permute && (i.permFlow me r).2 != 0)

/-- Lengths of an operation whose table has been read, and where it has none the split of R280. -/
def CollBody.lengths (b : CollBody) (n : Nat) (table : List (Nat × Nat)) : List (Nat × Nat) :=
  if b.op = .barrier || b.op = .vote then []
  else if b.op = .xfer then [(b.count, 0)]
  else if b.lens != 0 then table.map fun e => (e.1, if b.op = .permute then e.2 else 0)
  else equalSplit b.count n (if fmtScaled b.f then 32 else 1)

end Sys2Proof
end

