-- ==== Sys2Proof/Machine/Layers.lean ====
section
/-! DEFINITION. The layers of a serving context: their release, replacement and entry semaphores, and the exits that SCH
takes (R329 to R333). -/
namespace Sys2Proof

/-- Place of an entry of the replacement queue in the present switch; none when it lies before it. -/
def Ctx.rqPlace (x : Ctx) (i : W32) : Option Nat := if (i - x.rqBase).toNat < 2 ^ 31 then some (i - x.rqBase).toNat else none

/-- Entry `i` of a queue has completed: DONE has passed it, or it waits for DONE. -/
def Queue.entryFin (q : Queue) (i : W32) : Bool := decide ((i - q.done).toNat ≥ 2 ^ 31) || q.fin.contains i

end Sys2Proof

namespace Sys2Proof.Machine

/-- Layer-table entry of layer `l` of a context. -/
def State.layer (s : State) (x : Ctx) (l : Nat) : Layer := SMap.getD s.sch.layers (x.lbase + l) Layer.reset
/-- Change layer `l` of a context. -/
def State.modLayer (s : State) (x : Ctx) (l : Nat) (f : Layer → Layer) : State :=
  { s with sch := { s.sch with layers := SMap.modD s.sch.layers (x.lbase + l) Layer.reset f } }

/-- Replacement descriptors of the layers before `l`. -/
def State.rcntBefore (s : State) (x : Ctx) (l : Nat) : Nat := ((List.range l).map fun i => (s.layer x i).rcnt).sum

/-- Replacement descriptors of the released layers (R331). -/
def State.rcntReleased (s : State) (x : Ctx) : Nat :=
  ((List.range x.lcount).map fun i => if (s.layer x i).released then (s.layer x i).rcnt else 0).sum

/-- SCH signals a layer's entry semaphore (R332); that of a FAILED layer sets the context's PSN flag (R333). -/
def State.signalEntry (s : State) (c : Nat) (y : Layer) : State :=
  let s := if y.failed then s.setFlag c true else s
  s.signal ⟨y.entryTile, y.entrySem, 1, none, none, none, c, none⟩

/-- A replacement descriptor completed with a status other than OK (R333). -/
def State.replacementFailed (s : State) (c : Nat) (i : W32) : State :=
  match s.ctx? c with
  | none => s
  | some x =>
    match x.rqPlace i with
    | none => s
    | some n =>
      match (List.range x.lcount).find? fun l =>
          decide (s.rcntBefore x l ≤ n) && decide (n < s.rcntBefore x l + (s.layer x l).rcnt) with
      | some l => s.modLayer x l fun y => { y with bad := true }
      | none => s

/-- Layer `l` has been replaced: LV becomes ADMIT (R331, R333), and a batch step of that version that waits is let in
(R332). -/
def State.layerReplaced (s : State) (c l : Nat) (bad : Bool) : State :=
  match s.ctx? c with
  | none => s
  | some x =>
    let s := s.modLayer x l fun y => { y with lv := x.admVer, failed := bad, replaced := true }
    let s := s.modCtx c fun x => { x with replaced := x.replaced + 1, swErr := x.swErr || bad }
    let s := if bad then s.ev 0x04FF 7 c Status.poisoned.code 0 else s
    if x.bstep && x.bstepVer = x.admVer then s.signalEntry c (s.layer x l) else s

/-- The switch completes when every layer has been replaced (R330). -/
def State.switchCheck (s : State) (c : Nat) : State :=
  match s.ctx? c with
  | none => s
  | some x =>
    if x.switching && (List.range x.lcount).all fun l => (s.layer x l).replaced then
      (s.modCtx c fun x => { x with switching := false, switches := satInc x.switches }).ev 0x04FF 7 c Status.ok.code 0
    else s

/-- Layers whose replacement descriptors have all completed are replaced (R331). -/
def State.layersReplaced (s : State) (c : Nat) : State :=
  match s.ctx? c with
  | none => s
  | some x =>
    if !x.switching then s
    else
      let s := (List.range x.lcount).foldl (fun (s : State) l =>
        let y := s.layer x l
        if !y.released || y.replaced then s
        else
          let b := x.rqBase + BitVec.ofNat 32 (s.rcntBefore x l)
          let ok := y.rcnt = 0 || (match x.rq with
            | some q => (List.range y.rcnt).all fun i => (s.queue q).entryFin (b + BitVec.ofNat 32 i)
            | none => false)
          if ok then s.layerReplaced c l y.bad else s) s
      s.switchCheck c

/-- The next layer in ascending order is released when the batch step in progress allows it (R331). -/
def State.layerRelease (s : State) (c : Nat) : State :=
  match s.ctx? c with
  | none => s
  | some x =>
    if !x.switching then s
    else
      match (List.range x.lcount).find? fun l => !(s.layer x l).released with
      | none => s
      | some l =>
        if !x.bstep || x.bstepVer = x.admVer || (s.layer x l).exited then
          let s := s.modLayer x l fun y => { y with released := true }
          let s := s.modCtx c fun x => { x with released := x.released + 1 }
          s.layersReplaced c
        else s

/-- BARRIER_ERR (R332). -/
def State.barrierErr (s : State) (c : Nat) : State :=
  (s.modCtx c fun x => { x with barrierErr := true }).ev 0x04FF 7 c Status.range.code 0

/-- SCH takes one count of an exit semaphore of a context: the lowest layer of that semaphore not yet exited is marked;
with none, or with no batch step in progress, BARRIER_ERR is set (R332). -/
def State.takeExit (s : State) (c tile sem : Nat) : State :=
  match s.ctx? c with
  | none => s
  | some x =>
    if !x.bstep then s.barrierErr c
    else
      match (List.range x.lcount).find? fun l =>
          let y := s.layer x l
          y.exitTile = tile && y.exitSem = sem && !y.exited with
      | some l => s.modLayer x l fun y => { y with exited := true }
      | none => s.barrierErr c

/-- The semaphore is an exit semaphore of a serving context (R332). -/
def State.isExitSem (s : State) (c tile sem : Nat) : Bool :=
  match s.ctx? c with
  | some x => x.serve && (List.range x.lcount).any fun l => let y := s.layer x l; y.exitTile = tile && y.exitSem = sem
  | none => false

end Sys2Proof.Machine
end

