-- ==== Sys2Proof/Machine/SchTable.lean ====
section
/-! DEFINITION. The schedule table in effect and who holds a slot partition (R154, R313 to R315, R320, R322, R335). -/
namespace Sys2Proof

/-- An entry of a bank (Table 10.1). -/
structure SlotEnt where
  off : Nat
  len : Nat
  part : Nat
  ctx : Nat
  bfen : Bool
  guardUs : Nat
  bfctx : Nat
deriving DecidableEq, Repr

/-- A 32-bit word of a bank. -/
def bankWord (m : Mem) (a : Nat) : Nat := leNat (m.rdN a 4)
/-- CYCLE. -/
def bankCycle (m : Mem) : Nat := bankWord m 0
/-- COUNT. -/
def bankCount (m : Mem) : Nat := nbits (bankWord m 4) 0 10
/-- Entry `i`. -/
def bankEntry (m : Mem) (i : Nat) : SlotEnt :=
  let a := 0x100 + 16 * i
  let w2 := bankWord m (a + 8)
  let w3 := bankWord m (a + 12)
  ⟨bankWord m a, bankWord m (a + 4), nbits w2 16 10, nbits w2 0 12, nbit w3 31, nbits w3 12 16, nbits w3 0 12⟩

/-- The entries of a bank that open something, by index. -/
def bankSlots (m : Mem) : List (Nat × SlotEnt) :=
  ((List.range (bankCount m)).map fun i => (i, bankEntry m i)).filter fun e => e.2.len != 0

end Sys2Proof

namespace Sys2Proof.Machine

/-! The table in effect -/

/-- The bank in effect. -/
def State.bankNow (s : State) : Mem := if s.sch.bank then s.sch.bankB else s.sch.bankA
/-- The shadow bank. -/
def State.bankShadow (s : State) : Mem := if s.sch.bank then s.sch.bankA else s.sch.bankB
/-- ACTIVE (R320). -/
def State.tableOn (s : State) : Bool := decide (bankCount s.bankNow > 0)
/-- Entries in effect that open something. -/
def State.slotsNow (s : State) : List (Nat × SlotEnt) := bankSlots s.bankNow
/-- A slot partition (R315). -/
def State.slotPart (s : State) (p : Nat) : Bool := s.slotsNow.any fun e => e.2.part = p
/-- SCH's state of a partition. -/
def State.schPart (s : State) (p : Nat) : SchPart := SMap.getD s.sch.parts p ⟨.idle, none, 0⟩
/-- Change SCH's state of a partition. -/
def State.modSchPart (s : State) (p : Nat) (f : SchPart → SchPart) : State :=
  { s with sch := { s.sch with parts := SMap.set s.sch.parts p (f (s.schPart p)) } }
/-- Change the status of a slot. -/
def State.modSlot (s : State) (i : Nat) (f : SlotStat → SlotStat) : State :=
  { s with sch := { s.sch with slots := SMap.modD s.sch.slots i SlotStat.reset f } }
/-- Give a slot partition to a holder. -/
def State.setHolder (s : State) (p : Nat) (h : Holder) : State :=
  s.modSchPart p fun x => if x.holder = h then x else { x with holder := h, since := s.now }
/-- The last entry on a partition in cycle order. -/
def State.lastEntryOn (s : State) (p : Nat) : Option Nat := ((s.slotsNow.filter fun e => e.2.part = p).getLast?).map (·.1)

/-! Replay and hand-over -/

/-- R154: FETCH and DONE return to HEAD on every queue of the context, and its pushes are numbered again (R263, R264). -/
def State.replayQueues (s : State) (c : Nat) : State :=
  let s := { s with queues := s.queues.mapV fun _ x => if x.bound && x.ctx = c then { x with fetch := x.head, done := x.head, fin := [] } else x }
  { s with fab := { s.fab with pushOrd := s.fab.pushOrd.filter fun e => e.1 / 2 ^ 15 ≠ c } }

/-- The partition of a context lets it run (R26, R374, R375). -/
def State.partRuns (s : State) (c : Nat) : Bool :=
  match s.ctx? c with
  | some x =>
    (match SMap.get? s.flt.parts x.part with
     | some p => p.st = .run || (p.st = .hang && x.flt = .suspect)
     | none => true)
  | none => false

/-- Who holds a partition when a batch step leaves it: the backfill context of entry `i`, or nobody (R322). -/
def State.backfillOf (s : State) (i : Option Nat) : Holder :=
  match i with
  | some i => if (bankEntry s.bankNow i).bfen then .backfill i else .idle
  | none => .idle

/-- A context may start a LAUNCH as far as its partition's holder goes (R315). -/
def State.holds (s : State) (c : Nat) : Bool :=
  match s.ctx? c with
  | none => false
  | some x =>
    if !s.slotPart x.part then true
    else
      match (s.schPart x.part).holder with
      | .slot d => d = c
      | .backfill i => (bankEntry s.bankNow i).bfctx = c
      | .idle => false

/-- SCH resumes a context that it pre-empted itself, when it may start a LAUNCH again (R335). -/
def State.schResume (s : State) (c : Nat) : State :=
  if (s.ctxIs c fun x => x.preempted = some .sch && x.preempting.isNone && x.flt ≠ .held) && s.partRuns c && s.holds c then
    let s := s.modCtx c fun x => { x with preempted := none }
    if s.ctxIs c fun (x : Ctx) => decide (x.flt = .faulted) then s
    else (s.replayQueues c).modCtx c fun x => { x with replaying := true }
  else s

/-- The partition passes to an entry's backfill context (R322). -/
def State.passOn (s : State) (p : Nat) (i : Option Nat) : State :=
  let h := s.backfillOf i
  let s := s.setHolder p h
  match h with
  | .backfill i => s.schResume (bankEntry s.bankNow i).bfctx
  | _ => s

end Sys2Proof.Machine
end

