-- ==== Sys2Proof/Machine/Access.lean ====
section
/-! DEFINITION. Accesses to storage on behalf of a context: where an address leads, page waits, reads and writes of the
windows and of scratchpads with their error marks, records that the block writes on its own account, and requests to
other modules (R198 to R202, R212 to R222, R259, R260, R394). -/
namespace Sys2Proof

/-- Where an address of an operand leads. -/
inductive Loc where
  | tile (l a : Nat)
  /-- the T1 or T2 window of the context -/
  | win (a : Nat)
  | t3 (a : Nat)
  | remote (dev a : Nat)
deriving DecidableEq, Repr

/-- Source address of a piece; none for FILL and the zero rows of SKEW16. -/
def MoveBody.srcAt (b : MoveBody) (row off plane : Nat) : Option Nat :=
  match b.op with
  | 2 => none
  | 3 =>
    if row < 15 || decide (row ≥ b.rows + 15) then none
    else some (if plane = 0 then b.src + (row - 15) * b.sstride + off else b.aux2 + (row - 15) * b.scl + off)
  | _ => some (b.src + row * b.sstride + off)

/-- Destination address of a piece; for SKEW16 the tile's. -/
def MoveBody.dstAt (b : MoveBody) (row off : Nat) : Nat := if b.op = 3 then b.dst else b.dst + row * b.dstride + off

/-- Outcome of a read on this module. -/
inductive RdRes where
  /-- the bytes, and the offsets of those taken from a failing word -/
  | got (bs : List Byte) (bad : List Nat)
  /-- a page wait holds it -/
  | wait (w : Nat)
  | fail (st : Status)
deriving DecidableEq, Repr

/-- Outcome of a write on this module. -/
inductive WrRes where
  | done
  | wait (w : Nat)
  | fail (st : Status)
deriving DecidableEq, Repr

/-- Transactions in flight that left on a port (R259). -/
def Fab.portTxns (f : Fab) (p : Nat) : Nat := (f.txns.filter fun e => e.2.port = p).length

/-! Tags and payloads of packets (R251, R395) -/

/-- Words as byte values (R6). -/
def wordNums (ws : List W32) : List Nat := (wordsToBytes ws).map BitVec.toNat
/-- Byte values as `n` words. -/
def numWords (n : Nat) (bs : List Nat) : List W32 := bytesToWords n (bs.map (BitVec.ofNat 8))

/-- The nonce of a packet: header words 1, 3 and 4. -/
def Packet.nonce (k : Packet) : List Nat := wordNums [k.hdr.getD 1 0, k.hdr.getD 3 0, k.hdr.getD 4 0]

/-- The additional data: the header without the fields that change in transit; a TIME packet's payload follows it. -/
def Packet.aad (k : Packet) : List Nat :=
  wordNums (((k.setF 0 24 3 0).setF 2 16 11 0).hdr ++ if k.cls = 3 then k.pay else [])

/-- The payload that is encrypted: none of a TIME packet's. -/
def Packet.secret (k : Packet) : List W32 := if k.cls = 3 then [] else k.pay

/-- A packet sealed under a key: its payload encrypted, its tag in the trailer. -/
def Packet.seal (k : Packet) (key : List Byte) : Packet :=
  let c := sivSeal (key.map BitVec.toNat) k.nonce k.aad (wordNums k.secret)
  { k with pay := if k.cls = 3 then k.pay else numWords k.pay.length c.1, tag := numWords 4 c.2 }

/-- The packet that a sealed one opens to under a key, when its tag verifies. -/
def Packet.open_ (k : Packet) (key : List Byte) : Option Packet :=
  (sivOpen (key.map BitVec.toNat) k.nonce k.aad (wordNums k.secret) (wordNums k.tag)).map fun pt =>
    { k with pay := if k.cls = 3 then k.pay else numWords k.pay.length pt }

/-- Words `i` and `i + 1` of a payload replaced by a time. -/
def Packet.stamp (k : Packet) (i v : Nat) : Packet :=
  { k with pay := listSet (listSet k.pay i (BitVec.ofNat 32 v)) (i + 1) (BitVec.ofNat 32 (v / 2 ^ 32)) }

/-- Offsets, among `n` bytes from `a`, that lie in the listed words of `w` bytes. -/
def offsIn (a n w : Nat) (ws : List Nat) : List Nat := (List.range n).filter fun i => ws.contains ((a + i) / w)

end Sys2Proof

namespace Sys2Proof.Machine

/-- This module's device ID, when it holds one; otherwise a number no device has. -/
def State.selfDev (s : State) : Nat := if s.fab.idValid then s.fab.self else 2 ^ 16

/-- Where an address leads (Table 5.8, R200). -/
def State.loc (s : State) (sp a : Nat) : Loc :=
  if sp = spTile then .tile (addrTile a) (addrSpd a)
  else if sp = spGlobal && addrDev a != s.selfDev then .remote (addrDev a) (addrLocal a)
  else if localRange (addrLocal a) = .t3 then .t3 (addrLocal a)
  else .win (addrLocal a)

/-- A page has an operation in flight (R217, R219). -/
def State.busy (s : State) (k : Nat) : Bool :=
  s.descs.any fun e =>
    match e.2.body with
    | .move b r =>
      r.pieces.any fun p =>
        match p.2.st with
        | .reading (.local none) =>
          match b.srcAt p.2.row p.2.off p.2.plane with
          | some a => (match s.loc b.ssp a with | .win a => decide (s.mem.find true e.2.hdr.ctx a = some k) | _ => false)
          | none => false
        | .writing _ _ (.local none) =>
          (match s.loc b.dsp (b.dstAt p.2.row p.2.off) with
           | .win a => decide (s.mem.find true e.2.hdr.ctx a = some k)
           | _ => false)
            || (b.accStat && decide (s.mem.find true e.2.hdr.ctx b.aux2 = some k))
        | _ => false
    | .coll _ r =>
      (match r.op with
      | some ⟨.local none, sp, a⟩ => (match s.loc sp a with | .win a => decide (s.mem.find true e.2.hdr.ctx a = some k) | _ => false)
      | _ => false)
    | _ => false

/-- The wait's timeout instant has come: nothing but the timeout ends it any more (R358, R359). -/
def State.waitLapsed (s : State) (w : PageWait) : Bool := w.timed && decide (s.now ≥ w.since + s.flt.fillMs.toNat * msNs)

/-- Waits of `m` as R359 lets a change of the tiers leave them. -/
def State.keepLapsed (s : State) (m : MemSys) : MemSys :=
  { m with waits := m.waits.mapV fun i w =>
      if s.waitLapsed w && ((SMap.get? s.mem.waits i).map fun (x : PageWait) => x.res.isNone) = some true then { w with res := none } else w }

/-- Change the tiers; a frame whose retirement takes effect is recorded (R227). -/
def State.memStep (s : State) (f : MemSys → List Nat → (Nat → Bool) → MemSys) : State :=
  let m := s.keepLapsed (f s.mem s.downDies s.busy)
  let new := ((m.retired1.filter fun x => !s.mem.retired1.contains x).map fun x => (1, x))
    ++ ((m.retired2.filter fun x => !s.mem.retired2.contains x).map fun x => (2, x))
  new.foldl (fun s x => s.ev 0x0203 2 (x.2 / framesPerDie x.1) (x.1 + 4 * x.2) 0) { s with mem := m }

/-- Wait for a page (R215); answers the wait's number. -/
def State.pageWait (s : State) (cls : TCls) (k : Nat) (timed : Bool) : State × Nat :=
  (s.memStep fun m d b => (m.waitPage d b cls k s.now timed).1, s.mem.nextWait)

/-- A wait is over: forget it, and let demands that stood behind it go on. -/
def State.dropWait (s : State) (w : Nat) : State :=
  ({ s with mem := { s.mem with waits := SMap.erase s.mem.waits w } }).memStep fun m d b => m.serve d b

/-- The page's frame lies on a die that is down (R34). -/
def State.pageDown (s : State) (k : Nat) : Bool :=
  match (s.mem.page k).loc with
  | some l => l.tier != 3 && s.downDies.contains l.die
  | none => false

/-- A page that cannot be reached wakes its die and is waited for (R34, R461). -/
def State.reachWait (s : State) (cls : TCls) (k : Nat) (timed : Bool) : State × Nat :=
  (match (s.mem.page k).loc with | some l => s.wakeDie l.die | none => s).pageWait cls k timed

/-- A tier is touched while its key slots are empty (R394). -/
def State.noKeys (s : State) (c : Nat) : State := s.ev 0x02FF 7 c Status.denied.code 0

/-! Traffic classes (Table 1.6, R316) -/

/-- Traffic class of a context's requests from a queue of TCLS `t`. -/
def State.clsOf (s : State) (c t : Nat) : TCls :=
  if t = 2 then .backfill
  else if t = 1 && s.ctxIs c (fun x => x.bstep && x.bstepSlot.isSome) then .slot
  else .job

/-- Traffic class of a tile's own requests: that of the queue its LAUNCH came from. -/
def State.tileCls (s : State) (l : Nat) : TCls :=
  match s.descs.find? fun e => match e.2.body with | .launch _ _ _ left _ => left.contains l | _ => false with
  | some (_, d) => (match d.src with | .queue q _ => s.clsOf d.hdr.ctx (s.queue q).tcls | _ => .job)
  | none => .job

/-- Traffic class of the requests of a descriptor from a source: that of its queue, or of the tile that executes it. -/
def State.srcCls (s : State) (c : Nat) (src : DescSrc) : TCls :=
  match src with
  | .queue q _ => s.clsOf c (s.queue q).tcls
  | .exec l _ => s.tileCls l

/-- Traffic class of a descriptor's requests. -/
def State.classOf (s : State) (d : Desc) : TCls := s.srcCls d.hdr.ctx d.src

/-- On whose behalf an access is made: `fly` tells one already in flight when a RELEASE began (R210), `timed` one that the
page-fill timeout ends (R358), `cls` its traffic class (R30). -/
structure AccFor where
  fly : Bool
  timed : Bool
  cls : TCls
deriving DecidableEq, Repr

/-- Read `n` bytes of a context's window, within one page (R198, R202, R212, R222). -/
def State.winRead (s : State) (o : AccFor) (c a n : Nat) : State × RdRes :=
  if !s.sec.memKeys then (s.noKeys c, .fail .denied)
  else
    match s.mem.find o.fly c a with
    | none => (s, .fail .range)
    | some k =>
      if s.pageDown k then let (s, w) := s.reachWait o.cls k o.timed; (s, .wait w)
      else
        match s.mem.readWin o.fly c a n with
        | .out => (s, .fail .range)
        | .need k => let (s, w) := s.pageWait o.cls k o.timed; (s, .wait w)
        | .done (m, bs, ws) => ({ s with mem := m }, .got bs (offsIn (a % pageSize) n 64 ws))

/-- Write bytes of a context's window, within one page; words that hold a `bad` byte are poisoned (R222). -/
def State.winWrite (s : State) (o : AccFor) (c a : Nat) (bs : List Byte) (bad : List Nat) : State × WrRes :=
  if !s.sec.memKeys then (s.noKeys c, .fail .denied)
  else
    match s.mem.find o.fly c a with
    | none => (s, .fail .range)
    | some k =>
      if s.pageDown k then let (s, w) := s.reachWait o.cls k o.timed; (s, .wait w)
      else
        match s.mem.writeWin o.fly c a bs with
        | .out => (s, .fail .range)
        | .need k => let (s, w) := s.pageWait o.cls k o.timed; (s, .wait w)
        | .done m => ({ s with mem := bad.foldl (fun m i => m.poisonWin c (a + i) 1) m }, .done)

/-- Read scratchpad bytes with the storage errors met; an unmapped tile answers DEGRADED (R26, R220). -/
def State.spdRead (s : State) (l a n : Nat) (hw : List StoreErr) : State × RdRes :=
  match s.phys l with
  | none => (s, .fail .degraded)
  | some p =>
    let s := s.onTile l fun t => t.hit hw
    let t := s.ptile p
    let ws := t.spdUe.filter fun w => (wordsOf a n).contains w
    let s := if ws.isEmpty then s else s.onTile l fun t => t.countSpdUe ws.length
    (s, .got (t.spd.rdN a n) (offsIn a n 8 ws))

/-- Write scratchpad bytes; words that hold a `bad` byte become uncorrectable (R222). -/
def State.spdWrite (s : State) (l a : Nat) (bs : List Byte) (bad : List Nat) : State × WrRes :=
  match s.phys l with
  | none => (s, .fail .degraded)
  | some p =>
    let t := (s.ptile p).spdWrite a bs
    (s.setPtile p (t.markSpd ((bad.map fun i => (a + i) / 8).eraseDups)), .done)

/-- Stack or package that holds a block of a frame (R203), with its source kind of Table 14.3. -/
def unitOf (l : Place) (a : Nat) : Nat × Nat :=
  match l with
  | .t1 f => (3, 2 * (f / 98304) + a / 256 % 2)
  | .t2 f => (4, 4 * (f / 131072) + a / 256 % 4)
  | .bk _ => (10, 0)

/-- Errors that reading a page's place met: corrected ones are counted, uncorrectable words are poisoned, counted and
recorded, and their frame retires (R221, R227). `o` is an offset in the block read. -/
def State.pageErrs (s : State) (k o ce : Nat) (ue : List Nat) : State :=
  match (s.mem.page k).loc with
  | none => s
  | some (.bk _) => s
  | some l =>
    let s := (List.range ce).foldl (fun s _ =>
      (s.memStep fun m d b => m.frameCe d b l.tier l.idx s.now).ev 0x0201 (unitOf l o).1 (unitOf l o).2 l.tier 0) s
    ue.foldl (fun s w =>
      let x := w % 32768
      if (s.mem.page k).poison.contains x then s
      else
        (s.memStep fun m d b => m.wordUe d b k x).ev 0x0202 (unitOf l (64 * x)).1 (unitOf l (64 * x)).2 l.tier
          (keyHandle k + keyIdx k * 2 ^ 32)) s

/-- Errors that a movement of a page meets before it lands: answers the words that arrive poisoned (R215, R221, R223). -/
def State.moveErrs (s : State) (k : Nat) (e : PageErr) : State × List Nat :=
  match (s.mem.page k).loc with
  | none => (s, [])
  | some l =>
    let s := s.pageErrs k 0 e.ce e.ue
    match e.hop with
    | some h => (if e.bad.isEmpty then s else s.ev 0x0204 2 l.die h 0, e.bad)
    | none => (s, if l.tier = 3 then e.bad else [])

/-- Errors that an access to a context's window met; the words count from the access's first. -/
def State.tierErrs (s : State) (c a ce : Nat) (ue : List Nat) : State :=
  match s.mem.find true c a with
  | none => s
  | some k => s.pageErrs k (a % pageSize) ce (ue.map (a % pageSize / 64 + ·))

/-- Offsets of an access's bytes that words failing on a path hold (R223). -/
def pathBad (n : Nat) (ws : List Nat) : List Nat := (List.range n).filter fun i => ws.contains (i / 4)

/-- What the storage and the paths of this module do to an access to a context's window, before it is made (R221, R223):
answers the offsets of the bytes that fail on a path. -/
def State.winErrs (s : State) (c a n : Nat) (res : OpRes) : State × List Nat :=
  match res, s.mem.find true c a with
  | .tier ce ue, _ => (s.tierErrs c a ce ue, [])
  | .path hop ws, some k =>
    let die := match (s.mem.page k).loc with | some l => l.die | none => 0
    let bad := pathBad n ws
    if bad.isEmpty || !s.mem.resident k || s.pageDown k then (s, []) else (s.ev 0x0204 2 die hop 0, bad)
  | _, _ => (s, [])

/-- A read with the errors it meets. -/
def State.winReadErr (s : State) (o : AccFor) (c a n : Nat) (res : OpRes) : State × RdRes :=
  let (s, pb) := s.winErrs c a n res
  match s.winRead o c a n with
  | (s, .got bs bad) => (s, .got bs ((bad ++ pb).eraseDups))
  | r => r

/-- A write that the block makes on its own account: a completion, numerics or statistics record. Outside every object,
or without memory keys, it is not performed and is recorded (R202, R394). Answers the page wait that holds it. -/
def State.recordWrite (s : State) (cls : TCls) (c a : Nat) (bs : List Byte) : State × Option Nat :=
  if localRange a = .t3 then
    (if s.t3Denied then s.ev 0x02FF 7 c Status.denied.code 0 else s.t3Out (.t3Write (t3Addr a) bs false), none)
  else
    match s.winWrite ⟨false, false, cls⟩ c a bs [] with
    | (s, .done) => (s, none)
    | (s, .wait w) => (s, some w)
    | (s, .fail st) => (if st = .range then s.ev 0x02FF 7 c Status.range.code 0 else s, none)

/-- A page wait, if any, is over. -/
def State.waitOver (s : State) (w : Option Nat) : Bool :=
  match w with
  | none => true
  | some w => match SMap.get? s.mem.waits w with | some x => x.res.isSome | none => true

/-- Outcome of a page wait that is over; OK where there is none. -/
def State.waitRes (s : State) (w : Option Nat) : Status :=
  match w with
  | none => .ok
  | some w => match SMap.get? s.mem.waits w with | some x => x.res.getD .ok | none => .ok

/-- Forget a page wait, if any. -/
def State.dropWait? (s : State) (w : Option Nat) : State := match w with | some w => s.dropWait w | none => s

/-- Waits of pages that are accessible again are over, once their dies are back (R34). -/
def State.wakeAll (s : State) : State :=
  { s with mem := { s.mem with waits := s.mem.waits.mapV fun _ w =>
      if w.res.isNone && !s.waitLapsed w && s.mem.resident w.key && !s.pageDown w.key then { w with res := some .ok } else w } }

/-! The fabric -/

/-- Take the effects of a fabric operation. -/
def State.fabEffs (s : State) (es : List FEff) : State :=
  es.foldl (fun s e =>
    match e with
    | .out o => s.emit o
    | .event e => s.event e
    | .reroute _ => s) s

/-- Run an operation of the fabric domain and take its effects. -/
def State.onFab (s : State) (f : Fab → Fab × List FEff) : State :=
  let (f', es) := f s.fab
  ({ s with fab := f' }).fabEffs es

/-- Nanoseconds for which a replaced fabric key is held (R397). -/
def prevKeyNs : Nat := 10000000000

/-- The fabric key that seals packets of a class: the owner's for TIME and CTRL, the tenant's for the rest (R251, R396). -/
def State.sealKey (s : State) (cls : Nat) : Option (List Byte) := if cls = 3 || cls = 5 then s.sec.ofab else s.sec.tfab

/-- The replaced key of a class while it is held (R397). -/
def State.prevKey (s : State) (cls : Nat) : Option (List Byte) :=
  ((if cls = 3 || cls = 5 then s.sec.ofabPrev else s.sec.tfabPrev).filter fun x => decide (s.now < x.2 + prevKeyNs)).map (·.1)

/-- A received packet opened under the present key, or else the previous one (R251, R397). -/
def State.opened (s : State) (k : Packet) : Option Packet :=
  ((s.sealKey k.cls).bind k.open_).orElse fun _ => (s.prevKey k.cls).bind k.open_

/-- Seal a packet. Without the owner's key a TIME or CTRL packet leaves with a tag that is a free value, which its peers
will not authenticate (R413); without the tenant's, nothing leaves. -/
def State.sealed (s : State) (k : Packet) : State × Option Packet :=
  match s.sealKey k.cls with
  | some key => (s, some (k.seal key))
  | none =>
    if k.cls = 3 || k.cls = 5 then
      let (a, s) := s.draw
      let (b, s) := s.draw
      (s, some { k with tag := [a.setWidth 32, (a >>> 32).setWidth 32, b.setWidth 32, (b >>> 32).setWidth 32] })
    else (s, none)

/-- Put a packet of this module in the queue of an output port. A TIME packet is sealed when it leaves. -/
def State.queueOn (s : State) (p : Nat) (cls : TCls) (k : Packet) : State :=
  if k.cls = 3 then { s with fab := s.fab.enqueue p ⟨k, none, cls⟩ }
  else
    match s.sealed k with
    | (s, some k) => { s with fab := s.fab.enqueue p ⟨k, none, cls⟩ }
    | (s, none) => s

/-- Send a packet of this module (R254). -/
def State.send (s : State) (cls : TCls) (k : Packet) : State :=
  match s.sealed k with
  | (s, some k) => { s with fab := s.fab.inject cls k }
  | (s, none) => s

/-! Output ports (R242 to R244, R256, R257, R273, R274, R395) -/

/-- A TIME packet of this module enters the egress pipeline: t1 of a TREQ or t3 of a TRSP is the counter as it leaves
(R273, R274, R395). -/
def State.egress (s : State) (p : Nat) (k : Packet) : State × Packet :=
  if k.cls = 3 && k.tag.isEmpty then
    let s := if k.op = 1 then { s with fab := { s.fab with treqs := SMap.set s.fab.treqs p s.now } } else s
    match s.sealed (k.stamp (if k.op = 1 then 0 else 4) s.now) with
    | (s, some k) => (s, k)
    | (s, none) => (s, k)
  else (s, k)

/-- Fill the flit that a port sends: words so far, and the packets that end in it. A TREQ starts at word 2 of a new flit
(R242, R257, R273). -/
def State.fillFlit (p : Nat) : Nat → State → List W32 → List Packet → State × List W32 × List Packet
  | 0, s, ws, ks => (s, ws, ks)
  | n + 1, s, ws, ks =>
    let x := s.fab.port p
    if ws.length ≥ 62 then (s, ws, ks)
    else if !x.txWords.isEmpty then
      let room := 62 - ws.length
      let done := decide (x.txWords.length ≤ room)
      State.fillFlit p n
        { s with fab := s.fab.setPort p { x with txWords := x.txWords.drop room, txCur := if done then none else x.txCur } }
        (ws ++ x.txWords.take room) (if done then ks ++ x.txCur.toList else ks)
    else
      match x.choose with
      | none => (s, ws, ks)
      | some (c, i, e) =>
        if e.pkt.cls = 3 && e.pkt.op = 1 && e.inPort.isNone && !ws.isEmpty then (s, ws, ks)
        else
          let (s, k) := ({ s with fab := (s.fab.setPort p (x.grant c i e)).freeIn e } : State).egress p e.pkt
          let y := s.fab.port p
          State.fillFlit p n { s with fab := s.fab.setPort p { y with txCur := some k, txWords := k.words } } ws ks

/-- An UP port sends one flit: DATA while the replay buffer has room and a packet can go, otherwise an IDLE that returns
an acknowledgement or credits, when it owes one (R242, R244). -/
def State.txFlit (s : State) (p : Nat) : State :=
  if (s.fab.port p).state ≠ .up then s
  else
    let (s, ws, ks) := if (s.fab.port p).txBuf.length < replayCap then State.fillFlit p 16 s [] [] else (s, [], [])
    let x := s.fab.port p
    if ws.isEmpty then
      if x.ackDue || !x.owed.isEmpty then
        let (x, o) := x.putFlit p 0 0 []
        ({ s with fab := s.fab.setPort p x } : State).emit o
      else s
    else
      let o := x.owes
      let t : TxFlit := ⟨x.txSeq, o.1, o.2, ws, ks⟩
      let (x, o) := x.putFlit p 1 x.txSeq ws
      ({ s with fab := s.fab.setPort p { x with txSeq := (x.txSeq + 1) % 4096, txBuf := x.txBuf ++ [t] } } : State).emit o

/-- A port sends a flit of 264 bytes every 2.64 ns (R236). -/
def flitDue (now : Nat) : Bool := now * 100 / 264 != (now - 1) * 100 / 264

/-- Every port sends its flit. -/
def State.txFlits (s : State) : State :=
  if flitDue s.now then (SMap.keys s.fab.ports).foldl (fun (s : State) p => s.txFlit p) s else s

/-- Send a request to another module (R259, R260): answers its sequence number, or none when its port is at its limit.
With no usable port the packet is lost (R254) and the transaction waits for its timeout. -/
def State.request (s : State) (cls : TCls) (who : TxnFor) (dst c op addr aux : Nat) (pay : List W32) (since : Nat) :
    State × Option Nat :=
  let f := s.fab
  let k := mkPacket 0 op f.self dst c (f.ctx c).epoch f.seq addr aux pay
  let port := (f.exitPort k).getD 48
  if port < 48 && decide (f.portTxns port ≥ 4096) then (s, none)
  else
    let s := { s with fab := { f with seq := f.seq + 1, txns := SMap.set f.txns f.seq.toNat ⟨dst, c, port, who, since⟩ } }
    (s.send cls k, some f.seq.toNat)

end Sys2Proof.Machine
end

