-- ==== Sys2Proof/Machine/Tongs.lean ====
section
/-! DEFINITION. The Tongs engines: operations of a MOVE, their failures, accumulate-on-store, and the end of a MOVE
(R158, R159, R215, R222, R223, R228 to R231, R259). -/
namespace Sys2Proof

/-- Two sets of statistics together (R231). -/
def StatRec.merge (a b : StatRec) : StatRec :=
  ⟨min (a.count + b.count) 0xFFFFFFFF, min (a.nonfin + b.nonfin) 0xFFFFFFFF, a.elems + b.elems, a.sumIn + b.sumIn,
    a.sqIn + b.sqIn, a.sqOut + b.sqOut⟩

/-- Statistics of nothing. -/
def StatRec.zero : StatRec := ⟨0, 0, 0, 0, 0, 0⟩

/-- One ACCSTORE operation over the bytes `d` of the destination and `v` of the source (R229, R231): new bytes, whether
a sum saturated, statistics. Elements with a bad byte are left as they are (R222). -/
def accRun (b : MoveBody) (bad : List Nat) (d v : List Byte) : List Byte × Bool × StatRec :=
  (List.range (v.length / 2)).foldl (fun (acc : List Byte × Bool × StatRec) i =>
    let dv := (d.drop (2 * i)).take 2
    if bad.contains (2 * i) || bad.contains (2 * i + 1) then (acc.1 ++ dv, acc.2)
    else
      let x := leNat ((v.drop (2 * i)).take 2)
      let (y, sat) := accElem b.accFmt b.accFirst (leNat dv) x
      (acc.1 ++ leBytes 2 y, acc.2.1 || sat, if b.accStat then acc.2.2.add b.accFinal x y else acc.2.2))
    ([], false, StatRec.zero)

/-- Die and engine that carry a descriptor. -/
def Desc.engine? (d : Desc) : Option (Nat × Nat) :=
  match d.body with
  | .move _ r => some (r.die, r.engine)
  | .coll _ r => some (r.die, r.engine)
  | _ => none

/-- Operations of a descriptor in flight. -/
def Desc.opsInFlight (d : Desc) : Nat :=
  match d.body with
  | .move _ r => (r.pieces.filter fun p => match p.2.st with | .have_ _ _ => false | _ => true).length
  | .coll _ r => b2n r.op.isSome
  | _ => 0

end Sys2Proof

namespace Sys2Proof.Machine

/-- Change the run of a MOVE. -/
def State.modMove (s : State) (id : Nat) (f : MoveRun → MoveRun) : State :=
  s.modDesc id fun d => match d.body with | .move b r => { d with body := .move b (f r) } | _ => d

/-- Give a piece a new state. -/
def State.setPiece (s : State) (id k : Nat) (st : PieceSt) : State :=
  s.modMove id fun r => { r with pieces := SMap.adj r.pieces k fun p => { p with st := st } }

/-- A piece has landed: `n` bytes written. -/
def State.endPiece (s : State) (id k n : Nat) : State :=
  s.modMove id fun r => { r with pieces := SMap.erase r.pieces k, written := r.written + n }

/-- A data error of a descriptor: its other operations go on (R158, R222). -/
def State.dataErr (s : State) (id : Nat) : State := s.modDesc id fun d => { d with status := d.status.worse .parity }

/-- Statistics are added to a record, as one indivisible change of its word; a poisoned word stays as it is and fails the
operation, which the flag answered tells (R222, R231). A record outside every object is not written, and that is recorded
(R202). -/
def State.statAdd (s : State) (o : AccFor) (c a : Nat) (st : StatRec) : State × WrRes × Bool :=
  match s.winRead o c a 64 with
  | (s, .got bs bad) =>
    if !bad.isEmpty then (s, .done, true)
    else
      match s.winWrite o c a ((StatRec.ofBytes bs).merge st).bytes [] with
      | (s, r) => (s, r, false)
  | (s, .wait w) => (s, .wait w, false)
  | (s, .fail st) => (if st = .range then s.ev 0x02FF 7 c st.code 0 else s, .done, false)

/-- COUNT of the statistics record of an ACCSTORE that issued an operation gains 1, before its completion actions and
whatever its status (R231). Answers the page wait that this needs. -/
def State.countStat (s : State) (id : Nat) : State × Option Nat :=
  match s.desc? id with
  | some d =>
    match d.body with
    | .move b r =>
      if !b.accStat || r.nextPiece = 0 || r.counted then (s, none)
      else
        match s.statAdd ⟨false, false, s.classOf d⟩ d.hdr.ctx b.aux2 ⟨1, 0, 0, 0, 0, 0⟩ with
        | (s, .wait w, _) => (s, some w)
        | (s, _, bad) => ((if bad then s.dataErr id else s).modMove id fun r => { r with counted := true }, none)
    | _ => (s, none)
  | none => (s, none)

/-- Finish a MOVE that has issued its last operation and whose operations have all ended (R158). -/
def State.moveCheck (s : State) (id : Nat) : State :=
  match s.desc? id with
  | some d =>
    match d.body with
    | .move b r =>
      if d.st = .running && r.pieces.isEmpty && (r.stop || (b.chunk r.row r.off r.plane).isNone) then
        s.modDesc id fun d => { d with st := .finished, detail := BitVec.ofNat 32 r.written }
      else s
    | _ => s
  | none => s

/-- A piece fails with a status that stops its descriptor (R158): pieces not in flight are given up. -/
def State.failPiece (s : State) (id k : Nat) (st : Status) : State :=
  let s := s.modDesc id fun d => { d with status := d.status.worse st }
  let s := s.modMove id fun r =>
    { r with
      stop := true
      pieces := (SMap.erase r.pieces k).keep fun _ p => match p.st with | .have_ _ _ => false | .reading .port => false | .writing _ _ .port => false | _ => true }
  s.moveCheck id

/-- The data of a piece has come: its write is next, unless the descriptor issues no more (R158). -/
def State.gotData (s : State) (id k : Nat) (bs : List Byte) (bad : List Nat) : State :=
  match s.desc? id with
  | some d =>
    match d.body with
    | .move _ r => if r.stop then (s.endPiece id k 0).moveCheck id else s.setPiece id k (.have_ bs bad)
    | _ => s
  | none => s

/-- Send the remote request of a piece: READ, or WRITE of its data (R259). A fenced destination completes it with FENCED
(R269). -/
def State.sendPiece (s : State) (id k : Nat) (c : Nat) (dev a : Nat) (p : Piece) (wr : Option (List Byte)) : State :=
  if s.fab.isFenced c dev || (s.fab.ctx c).fenced then s.failPiece id k .fenced
  else
    let pad := a % 4
    let pay := match wr with
      | some bs => bytesToWords (ceilDiv (pad + bs.length) 4) (List.replicate pad 0 ++ bs)
      | none => []
    match s.request ((s.desc? id).elim .job s.classOf) (.piece id k) dev c (if wr.isSome then 2 else 1) a p.n pay p.since with
    | (s, some q) => s.setPiece id k (match wr with | some bs => .writing bs [] (.remote q) | none => .reading (.remote q))
    | (s, none) => s.setPiece id k (match wr with | some bs => .writing bs [] .port | none => .reading .port)

/-- How an operation on a context's window begins: none when a RELEASE or the objects leave nothing there (R202, R210);
held by a page wait when the page is not at hand (R159). -/
def State.viaFor (s : State) (cls : TCls) (c a : Nat) (write : Bool) : State × Option OpVia :=
  match s.mem.find false c a with
  | some k =>
    if s.mem.resident k || (!write && (s.mem.page k).loc.isNone && (s.mem.page k).move.isNone) then (s, some (.local none))
    else let (s, w) := s.pageWait cls k true; (s, some (.local (some w)))
  | none => (s, none)

/-- Issue the write of a piece whose data is at hand (R158, R222). -/
def State.issueWrite (s : State) (id k : Nat) (d : Desc) (b : MoveBody) (p : Piece) (bs : List Byte) (bad : List Nat) : State :=
  let c := d.hdr.ctx
  let a := b.dstAt p.row p.off
  match s.loc b.dsp a with
  | .tile _ _ => s.setPiece id k (.writing bs bad (.local none))
  | .win x =>
    (match s.viaFor (s.classOf d) c x true with
     | (s, some v) => s.setPiece id k (.writing bs bad v)
     | (s, none) => s.failPiece id k .range)
  | .t3 _ => if s.t3Denied then s.failPiece id k .denied else s.setPiece id k (.writing bs bad (.local none))
  | .remote dev x =>
    if bad.isEmpty then s.sendPiece id k c dev x p (some bs)
    else (s.endPiece id k 0).moveCheck id

/-- Issue the read of a piece. -/
def State.issueRead (s : State) (id k : Nat) (d : Desc) (b : MoveBody) (p : Piece) (a : Nat) : State :=
  let c := d.hdr.ctx
  match s.loc b.ssp a with
  | .tile _ _ => s.setPiece id k (.reading (.local none))
  | .win x =>
    (match s.viaFor (s.classOf d) c x false with
     | (s, some v) => s.setPiece id k (.reading v)
     | (s, none) => s.failPiece id k .range)
  | .t3 x =>
    if s.t3Denied then s.failPiece id k .denied
    else let (s, tag) := s.t3Read (some (id, k)) (t3Addr x) p.n; s.setPiece id k (.reading (.t3 tag))
  | .remote dev x => s.sendPiece id k c dev x p none

/-- Operations in flight in an engine. -/
def State.engineOps (s : State) (die eng : Nat) : Nat :=
  (s.descs.map fun e => if e.2.engine? = some (die, eng) then e.2.opsInFlight else 0).sum

/-- The descriptor is among the first 16 that its engine runs (R158). -/
def State.engineRuns (s : State) (id die eng : Nat) : Bool :=
  decide ((s.descs.filter fun e => decide (e.1 < id) && e.2.st = .running && e.2.engine? = some (die, eng)).length < 16)

/-- A piece that waits for room on its port, with the room it needs now there. -/
def State.portPiece (s : State) (d : Desc) (b : MoveBody) (r : MoveRun) : Option (Nat × Piece × Nat × Nat × Option (List Byte)) :=
  r.pieces.findSome? fun e =>
    let x : Option (Nat × Option (List Byte)) := match e.2.st with
      | .reading .port => (b.srcAt e.2.row e.2.off e.2.plane).map fun a => (a, none)
      | .writing bs _ .port => some (b.dstAt e.2.row e.2.off, some bs)
      | _ => none
    match x with
    | none => none
    | some (a, wr) =>
      let dev := addrDev a
      let port := (s.fab.exitPort (mkPacket 0 1 s.fab.self dev d.hdr.ctx 0 0 0 0 [])).getD 48
      if port < 48 && decide (s.fab.portTxns port ≥ 4096) then none else some (e.1, e.2, dev, addrLocal a, wr)

/-- A MOVE has an operation to issue now. -/
def State.moveWants (s : State) (d : Desc) : Bool :=
  match d.body with
  | .move b r =>
    (r.pieces.any fun e => match e.2.st with | .have_ _ _ => true | _ => false) || (s.portPiece d b r).isSome
      || (!r.stop && (b.chunk r.row r.off r.plane).isSome)
  | _ => false

/-- The next operation of a MOVE: a piece whose data is at hand is written first, then a request that waited for its port
is sent, then the next piece in row and byte order is begun (R158). -/
def State.moveIssue (s : State) (id : Nat) : State :=
  match s.desc? id with
  | none => s
  | some d =>
    match d.body with
    | .move b r =>
      (match r.pieces.find? fun e => match e.2.st with | .have_ _ _ => true | _ => false with
      | some (k, p) =>
        (match p.st with
         | .have_ bs bad => s.issueWrite id k d b p bs bad
         | _ => s)
      | none =>
        match s.portPiece d b r with
        | some (k, p, dev, a, wr) => s.sendPiece id k d.hdr.ctx dev a p wr
        | none =>
          match (if r.stop then none else b.chunk r.row r.off r.plane) with
          | none => s.moveCheck id
          | some ch =>
            let k := r.nextPiece
            let (row, off, plane) := b.advance ch
            let p : Piece := ⟨ch.row, ch.off, ch.plane, ch.n, s.now, .reading (.local none)⟩
            let s := s.modMove id fun r => { r with row := row, off := off, plane := plane, nextPiece := k + 1, pieces := SMap.set r.pieces k p }
            match ch.src with
            | some a => s.issueRead id k d b p a
            | none =>
              let bs := if b.op = 2 then b.fillData ch else List.replicate ch.n 0
              s.issueWrite id k d b p bs [])
    | _ => s

/-- Record a path failure (R223). -/
def State.pathErr (s : State) (res : OpRes) (die : Nat) : State :=
  match res with | .path hop _ => s.ev 0x0204 2 die hop 0 | _ => s

/-- A read operation of this module completes. -/
def State.readDone (s : State) (id k : Nat) (d : Desc) (b : MoveBody) (r : MoveRun) (p : Piece) (res : OpRes) : State :=
  match b.srcAt p.row p.off p.plane with
  | none => s
  | some a =>
    let c := d.hdr.ctx
    let pb := match res with | .path _ ws => pathBad p.n ws | _ => []
    let (s, rr) : State × RdRes := match s.loc b.ssp a with
      | .tile l x => s.spdRead l x p.n (match res with | .spd hw => hw | _ => [])
      | .win x =>
        (let s := match res with | .tier ce ue => s.tierErrs c x ce ue | _ => s
         s.winRead ⟨true, true, s.classOf d⟩ c x p.n)
      | _ => (s, .fail .range)
    match rr with
    | .got bs bad =>
      let bad := (bad ++ pb).eraseDups
      let s := s.pathErr res r.die
      let s := if bad.isEmpty then s else s.dataErr id
      s.gotData id k bs bad
    | .wait w => s.setPiece id k (.reading (.local (some w)))
    | .fail st => s.failPiece id k st

/-- A SKEW16 piece writes its places; a failing row marks every word of the row (R146, R222). -/
def State.skewWrite (s : State) (b : MoveBody) (p : Piece) (bs : List Byte) (bad : List Nat) : State × WrRes :=
  let l := addrTile b.dst
  match s.phys l with
  | none => (s, .fail .degraded)
  | some q =>
    let src := if p.row < 15 || decide (p.row ≥ b.rows + 15) then none else some 0
    let t := (b.skewPlaces ⟨p.row, p.off, p.plane, p.n, src⟩).foldl
      (fun (t : Tile) x => t.spdWrite x.1 [bs.getD x.2 0]) (s.ptile q)
    (s.setPtile q (if bad.isEmpty then t else t.markSpd (b.skewRowWords p.row).eraseDups), .done)

/-- Bytes a piece writes. -/
def pieceBytes (b : MoveBody) (p : Piece) : Nat :=
  if b.op = 3 then
    (b.skewPlaces ⟨p.row, p.off, p.plane, p.n, if p.row < 15 || decide (p.row ≥ b.rows + 15) then none else some 0⟩).length
  else p.n

/-- The page wait, if any, that holds an ACCSTORE whose statistics record is not resident. -/
def State.statHeld (s : State) (o : AccFor) (c : Nat) (b : MoveBody) : State × Option Nat :=
  if b.accStat then
    match s.winRead o c b.aux2 64 with
    | (s, .wait w) => (s, some w)
    | (s, _) => (s, none)
  else (s, none)

/-- An accumulate-on-store operation updates its words in the base die, indivisibly, and its statistics record (R229 to
R231); it waits until both pages are at hand. -/
def State.accWrite (s : State) (id : Nat) (cls : TCls) (c x : Nat) (b : MoveBody) (bs : List Byte) (bad : List Nat) : State × WrRes :=
  let o : AccFor := ⟨true, true, cls⟩
  match s.mem.find true c x with
  | none => (s, .fail .range)
  | some k =>
    let pre := offsIn (x % pageSize) bs.length 64 ((s.mem.page k).poisonIn (x % pageSize) bs.length)
    let old := (s.mem.page k).read (x % pageSize) bs.length
    let (new, sat, st) := accRun b (pre ++ bad) old bs
    match s.statHeld o c b with
    | (s, some w) => (s, .wait w)
    | (s, none) =>
      match s.winWrite o c x new (pre ++ bad) with
      | (s, .done) =>
        let s := if pre.isEmpty then s else s.dataErr id
        let s := if sat then s.setFlag c false else s
        if !b.accStat || st = StatRec.zero then (s, .done)
        else
          let r := s.statAdd o c b.aux2 st
          (if r.2.2 then r.1.dataErr id else r.1, .done)
      | r => r

/-- A write operation of this module completes. -/
def State.writeDone (s : State) (id k : Nat) (d : Desc) (b : MoveBody) (r : MoveRun) (p : Piece) (bs : List Byte)
    (bad : List Nat) (res : OpRes) : State :=
  let c := d.hdr.ctx
  let pb := match res with | .path _ ws => pathBad bs.length ws | _ => []
  let bad := (bad ++ pb).eraseDups
  let (s, wr) : State × WrRes :=
    if b.op = 3 then s.skewWrite b p bs bad
    else
      match s.loc b.dsp (b.dstAt p.row p.off) with
      | .tile l x => s.spdWrite l x bs bad
      | .win x =>
        (let s := match res with | .tier ce ue => s.tierErrs c x ce ue | _ => s
         if b.op = 4 then s.accWrite id (s.classOf d) c x b bs bad else s.winWrite ⟨true, true, s.classOf d⟩ c x bs bad)
      | .t3 x => if s.t3Denied then (s, .fail .denied) else (s.t3Out (.t3Write (t3Addr x) bs !bad.isEmpty), .done)
      | .remote _ _ => (s, .fail .range)
  match wr with
  | .done =>
    let s := s.pathErr res r.die
    let s := if pb.isEmpty then s else s.dataErr id
    (s.endPiece id k (pieceBytes b p)).moveCheck id
  | .wait w => s.setPiece id k (.writing bs bad (.local (some w)))
  | .fail st => s.failPiece id k st

/-- TONGS_OPERATION_DONE of piece `k` of a descriptor: a local operation completes, once its page is at hand. -/
def State.tongsDone (s : State) (id k : Nat) (res : OpRes) : State :=
  match s.desc? id with
  | none => s
  | some d =>
    match d.body with
    | .move b r =>
      (match SMap.get? r.pieces k with
       | none => s
       | some p =>
         let w : Option (Option Nat) := match p.st with
           | .reading (.local w) => some w
           | .writing _ _ (.local w) => some w
           | _ => none
         match w with
         | none => s
         | some w =>
           if d.st ≠ .running || s.downDies.contains r.die || !s.waitOver w then s
           else
             let st := s.waitRes w
             let s := s.dropWait? w
             if st ≠ .ok then s.failPiece id k st
             else
               let s := match p.st with
                 | .reading _ => s.readDone id k d b r p res
                 | .writing bs bad _ => s.writeDone id k d b r p bs bad res
                 | _ => s
               s.memStep fun m dn bz => m.serve dn bz)
    | _ => s

end Sys2Proof.Machine
end

