-- ==== Sys2Proof/Machine/Descriptors.lean ====
section
/-! DEFINITION. Descriptors on their way: the checks of Table 5.5 against the block, fetching a ring entry, rejecting it
under R141, starting LAUNCH, MOVE and SYNC, and the end of a batch of queue bookkeeping (R140 to R153, R158). -/
namespace Sys2Proof.Machine

/-! Queues -/

/-- Entry `i` of a queue completes with a status; a context with an empty step group has HEAD follow DONE (R131, R152,
R153). On a replacement queue its layer may be replaced (R331, R333). -/
def State.entryDone (s : State) (q : Nat) (i : W32) (st : Status) : State :=
  let s := s.modQueue q fun x =>
    let x := x.finish i
    if s.stepless x.ctx then { x with head := x.done } else x
  -- a LAUNCH behind HEAD is never replayed
  let head := (s.queue q).head
  let s := { s with fab := { s.fab with serialSave := s.fab.serialSave.filter fun e =>
    !(e.1 / 2 ^ 47 = q && decide ((BitVec.ofNat 32 (e.1 / 2 ^ 15) - head).toNat ≥ 2 ^ 31)) } }
  let c := (s.queue q).ctx
  if s.ctxIs c fun x => x.rq = some q then (if st = .ok then s else s.replacementFailed c i).layersReplaced c else s

/-- A queue records a status in Q_STAT. -/
def State.queueErr (s : State) (q : Nat) (st : Status) : State :=
  s.modQueue q fun x => { x with lastErr := st, err := true }

/-- A queue's MSI-X vector, when its IRQEN is set. -/
def State.queueIrq (s : State) (q : Nat) : State := if (s.queue q).irqen then s.msix (s.queue q).vec else s

/-- The entry at FETCH fails Table 5.5, or its fetch fails: it completes under R141. -/
def State.rejectEntry (s : State) (q : Nat) (st : Status) : State :=
  let i := (s.queue q).fetch
  let s := s.modQueue q fun x => { x with fetch := x.fetch + 1 }
  let s := (s.entryDone q i st).queueErr q st
  (s.ev 0x04FF 8 q (st.code + q * 256) 0).queueIrq q

/-- What the read of a ring entry gives. -/
inductive EntryRead where
  | got (bs : List Byte)
  | waiting
  | failed (st : Status)
deriving DecidableEq, Repr

/-- Read the ring entry at FETCH: from its pages under the queue's context, or from host memory (R152, R202, R358,
R449). -/
def State.readEntry (s : State) (q : Nat) (host : Fetched) : State × EntryRead :=
  let x := s.queue q
  let a := x.entryAddr x.fetch
  if localRange a = .t3 then
    (s, if s.t3Denied then .failed .denied
        else match host with | .bytes b => .got b | .failed st => .failed st | .pages _ => .waiting)
  else if !s.waitOver x.wait then (s, .waiting)
  else
    let st := s.waitRes x.wait
    let s := (s.dropWait? x.wait).modQueue q fun x => { x with wait := none }
    if st ≠ .ok then (s, .failed st)
    else
      match s.winReadErr ⟨false, true, s.clsOf x.ctx x.tcls⟩ x.ctx a 64 (match host with | .pages r => r | _ => .ok) with
      | (s, .got bs bad) => (s, if bad.isEmpty then .got bs else .failed .parity)
      | (s, .wait w) => (s.modQueue q fun x => { x with wait := some w }, .waiting)
      | (s, .fail st) => (s, .failed st)

/-! Checks -/

/-- Orders 1 to 4 of Table 5.5 (R140). `accept` tells the classes and operations accepted here, `bound` the context. -/
def State.checkDesc (s : State) (accept : Nat → Nat → Bool) (bound : Nat) (bs : List Byte) : Option Status :=
  let h := DescHdr.ofBytes bs
  if descVer bs ≠ 1 then some .version
  else if hdrRsvd bs || bodyRsvd bs then some .rsvdSet
  else if bodyRange s.selfDev bs || !accept h.cls h.op || (h.cls = 1 && (s.lgrpCtx (dn bs 0x18 2)).isNone) then some .range
  else if h.ctx ≠ bound || (tilesNamed bs).any (fun l => !s.tileGiven h.ctx l)
      || (h.cls = 1 && s.lgrpCtx (dn bs 0x18 2) ≠ some h.ctx) then some .denied
  else none

/-! Starting -/

/-- Put a descriptor on its way; answers its number. -/
def State.addDesc (s : State) (src : DescSrc) (h : DescHdr) (body : DescBody) (st : DescSt) (status : Status) (detail : Nat) :
    State × Nat :=
  ({ s with
      nextDesc := s.nextDesc + 1
      descs := SMap.set s.descs s.nextDesc ⟨src, h, body, st, status, BitVec.ofNat 32 detail, false, none, false, none, none, none⟩ },
    s.nextDesc)

/-- A descriptor that completes at once. -/
def State.addDone (s : State) (src : DescSrc) (h : DescHdr) (status : Status) (detail : Nat) : State :=
  (s.addDesc src h .none .finished status detail).1

/-- The engine that carries a MOVE or COLL of a dispatch queue on a die: the destination tile's, else the source tile's, else
the one with the fewest operations in flight. -/
def State.pickEngine (s : State) (die ssp src dsp dst : Nat) : Nat :=
  let of_ := fun (a : Nat) => s.engineOf (addrTile a)
  if dsp = spTile && logDie (addrTile dst) = die then of_ dst
  else if ssp = spTile && logDie (addrTile src) = die then of_ src
  else
    ((List.range 64).foldl (fun (best : Nat × Nat) e =>
      let n := s.engineOps die e
      if n < best.2 then (e, n) else best) (0, s.engineOps die 0)).1

/-- Start a MOVE on an engine (R145, R158). -/
def State.startMove (s : State) (src : DescSrc) (h : DescHdr) (b : MoveBody) (die eng : Nat) : State :=
  if b.noop then s.addDone src h .ok 0
  else (s.addDesc src h (.move b ⟨die, eng, 0, 0, 0, [], 0, false, 0, false⟩) .running .ok 0).1

/-- Some tile of the context's step group runs a program of it (R132). -/
def State.stepRuns (s : State) (c : Nat) : Bool :=
  (s.stepTiles c).any fun l => let t := s.tile l; t.ctx = some c && t.active

/-- Start a SYNC (R132, R147). -/
def State.startSync (s : State) (src : DescSrc) (h : DescHdr) (bs : List Byte) : State :=
  match h.op with
  | 1 => s.addDone src h .ok 0
  | 2 =>
    let t := dn bs 0x14 8
    if s.now ≥ t then s.addDone src h .ok 0 else (s.addDesc src h (.atTime t) .running .ok 0).1
  | _ =>
    if s.stepRuns h.ctx then s.addDone src h .busy 0
    else (s.modCtx h.ctx fun x => { x with step := BitVec.ofNat 32 (dn bs 0x14 4), stepAt := s.now }).addDone src h .ok 0

/-- Start a LAUNCH: with no tiles it is a no-op, and it waits for its tiles otherwise (R142, R143). -/
def State.startLaunch (s : State) (src : DescSrc) (h : DescHdr) (bs : List Byte) (stage : Option (Nat × Nat)) : State × Nat :=
  let g := dn bs 0x18 2
  let args := (List.range 8).map fun i => BitVec.ofNat 32 (dn bs (0x1C + 4 * i) 4)
  let tiles := s.lgrpTiles g
  let body := DescBody.launch (nbits (dn bs 0x14 4) 0 18) g args tiles 0
  ({ s with
      nextDesc := s.nextDesc + 1
      descs := SMap.set s.descs s.nextDesc
        ⟨src, h, body, if tiles.isEmpty then .finished else .waiting, .ok, 0, false, none, false, none, stage, none⟩ },
    s.nextDesc)

/-! Fetching -/

/-- A context may start descriptors: it is defined, neither faulted nor held, not pre-empted (R138, R270, R334, R366,
R374). -/
def State.ctxFetches (s : State) (c : Nat) : Bool :=
  s.computeOn && s.partRuns c &&
    s.ctxIs c fun x => (x.flt = .run || x.flt = .suspect) && x.preempted.isNone && x.preempting.isNone

/-- The queue is a role queue of a stage. -/
def State.stageQueue (s : State) (q : Nat) : Bool :=
  s.stages.any fun e => e.2.qf = some q || e.2.qb = some q || e.2.qw = some q || e.2.qu = some q

/-- The next entry of a dispatch queue may be fetched: descriptors of a queue start in ring order, at most 64 of them are
started and not completed (R152, R153). -/
def State.canFetch (s : State) (q : Nat) : Bool :=
  let x := s.queue q
  x.bound && !x.tileKind && x.enable && x.fetch ≠ x.tail && s.ctxFetches x.ctx && !s.downDies.contains x.die
    && decide ((s.startedOf q).length < 64) && !((s.startedOf q).any fun e => e.2.st = .waiting)

/-- The entry is ORD and an earlier one of its queue has not completed. -/
def State.ordWaits (s : State) (q : Nat) (bs : List Byte) : Bool :=
  let x := s.queue q
  descVer bs = 1 && (DescHdr.ofBytes bs).ord && x.done ≠ x.fetch

/-- What becomes of the entry at FETCH: `accept` the classes and operations this queue accepts, `class5` the checks of
its class, `start` its start. FETCH passes it once it has started. -/
def State.takeEntry (s : State) (q : Nat) (accept : Nat → Nat → Bool) (class5 : State → List Byte → Option Status)
    (start : State → DescSrc → DescHdr → List Byte → State) (bs : List Byte) : State :=
  let x := s.queue q
  match (s.checkDesc accept x.ctx bs).orElse fun _ => class5 s bs with
  | some st => s.rejectEntry q st
  | none =>
    let s := s.modQueue q fun x => { x with fetch := x.fetch + 1 }
    start s (.queue q x.fetch) (DescHdr.ofBytes bs) bs

/-- A descriptor row: the next entry of the queue, when it is one of the row's (`mine` tells), or a fetch that fails. -/
def State.descRow (s : State) (q : Nat) (host : Fetched) (mine : List Byte → Bool) (accept : State → Nat → Nat → Bool)
    (class5 : State → List Byte → Option Status) (start : State → DescSrc → DescHdr → List Byte → State) : State :=
  if !s.canFetch q || s.stageQueue q then s
  else
    let fenced := (s.fab.ctx (s.queue q).ctx).fenced
    match s.readEntry q host with
    | (s', .waiting) => s'
    | (s', .failed st) => if fenced then s else s'.rejectEntry q st
    | (s', .got bs) =>
      if !mine bs || s'.ordWaits q bs || (fenced && (descCls bs, descOp bs) ≠ (5, 10)) then s else s'.takeEntry q (accept s') class5 start bs

/-! Completion -/

/-- Abandon a descriptor without completion actions: its page waits, transactions and host reads are forgotten
(R154, R159). A RELEASE cut short ends, and its object stays: DESIGN CHOICE, since R210 does not say (log entry 187). -/
def State.forget (s : State) (id : Nat) : State :=
  match s.desc? id with
  | none => s
  | some d =>
    let s := match d.body with
      | .memctl r => { s with mem := { s.mem with objs := SMap.adj s.mem.objs r.handle fun o =>
          { o with pinning := o.pinning && r.op ≠ 1 && r.op ≠ 3, releasing := o.releasing && r.op ≠ 2 } } }
      | _ => s
    let ws : List Nat := (match d.body with
      | .move _ r => r.pieces.filterMap fun p => match p.2.st with
        | .reading (.local w) => w
        | .writing _ _ (.local w) => w
        | _ => none
      | .coll _ r => (match r.op with | some ⟨.local w, _, _⟩ => w.toList | _ => [])
      | .memctl r => r.waits
      | _ => []) ++ d.crecWait.toList
    let s := { s with
      descs := SMap.erase s.descs id
      fab := { s.fab with txns := s.fab.txns.filter fun e => match e.2.who with | .piece i _ => i ≠ id | _ => true }
      hif := { s.hif with t3 := s.hif.t3.filter fun e => (e.2.who.map Prod.fst) ≠ some id } }
    ws.foldl (fun s w => s.dropWait w) s

/-- A descriptor in progress ends now with a status, whatever it was doing (R155, R270). -/
def State.cutShort (s : State) (id : Nat) (st : Status) : State :=
  match s.desc? id with
  | none => s
  | some d =>
    if d.st = .finished then s
    else
      let detail := match d.body with
        | .move _ r => BitVec.ofNat 32 r.written
        | .memctl r => BitVec.ofNat 32 r.count
        | _ => d.detail
      let body : DescBody := match d.body with
        | .launch e g a l n => .launch e g a l n
        | .move b r => .move b { r with pieces := [], stop := true }
        | _ => .none
      let s := s.forget id
      let d' : Desc := { d with
        body := body, st := .finished, status := d.status.worse st, detail := detail, crecWait := none }
      { s with descs := SMap.set s.descs id d' }

end Sys2Proof.Machine
end

