-- ==== Sys2Proof/Machine/Collective.lean ====
section
/-! DEFINITION. Fences, epochs and collectives on this member: checks, the exchange of segments, reductions, barriers,
votes and permutes, and their completion (R265 to R272, R277 to R296, R178, R181). -/
namespace Sys2Proof.Machine

/-! Instances -/

/-- The instance of a key. -/
def State.inst? (s : State) (k : InstKey) : Option Inst := s.fab.insts.find? fun i => i.key = k
/-- Store an instance. -/
def State.setInst (s : State) (i : Inst) : State :=
  { s with fab := { s.fab with insts := (s.fab.insts.filter fun j => j.key ≠ i.key) ++ [i] } }
/-- Remove an instance. -/
def State.dropInst (s : State) (k : InstKey) : State :=
  { s with fab := { s.fab with insts := s.fab.insts.filter fun j => j.key ≠ k } }
/-- The instance of a descriptor. -/
def State.instOf (s : State) (id : Nat) : Option Inst := s.fab.insts.find? fun i => i.desc = some id
/-- The group of an instance. -/
def State.group? (s : State) (g : Nat) : Option CGroup := SMap.get? s.fab.cgroups g
/-- Send a packet of an instance to a rank; `fo` holds FMT and OPR. -/
def State.sendColl (s : State) (g : CGroup) (cls : TCls) (k : InstKey) (fo to_ op aux : Nat) (pay : List W32) : State :=
  s.send cls (mkPacket 2 op s.fab.self (g.members.getD to_ 0) k.ctx (s.fab.ctx k.ctx).epoch k.step
    (k.tensor + k.cgrp * 2 ^ 16 + g.rank * 2 ^ 26 + fo * 2 ^ 40) aux pay)

/-- A rank of a group is fenced for the context. -/
def State.rankFenced (s : State) (g : CGroup) (c r : Nat) : Bool := s.fab.isFenced c (g.members.getD r 0)

/-- Late segments are dropped: counted globally, for the context, and for the tensor (R286). -/
def State.dropLate (s : State) (ls : List LateSeg) : State :=
  ls.foldl (fun s l =>
    let x := s.fab.ctx l.key.ctx
    let f := s.fab.setCtx l.key.ctx { x with drops := satInc x.drops }
    { s with fab := { f with
        lateDrops := f.lateDrops + 1
        dropped := if f.dropped.contains (l.key, l.rank) then f.dropped else f.dropped ++ [(l.key, l.rank)] } }) s

/-- Hold a late segment in the late buffer, a page to a segment, if the context's region has room (R286). -/
def State.holdLate (s : State) (l : LateSeg) : State :=
  let room := match SMap.get? s.fab.regions l.key.ctx with | some r => r.latePages | none => 0
  if (s.fab.late.filter fun x => x.key.ctx = l.key.ctx).length < room then { s with fab := { s.fab with late := s.fab.late ++ [l] } }
  else s.dropLate [l]

/-! Votes -/

/-- A vote completes with a result (R178 steps 1 and 2, R181). -/
def State.voteDone (s : State) (c result : Nat) (step : W32) : State :=
  s.modCtx c fun x =>
    let x := { x with voted := true, lastResult := BitVec.ofNat 2 result, voteStep := step }
    if result = 2 then { x with lsExp := max (x.lsExp - 1) (-24), clean := 0, ovfSkips := satInc x.ovfSkips }
    else if result = 3 then { x with psnSkips := satInc x.psnSkips }
    else
      let cl := satInc x.clean
      if x.grow ≠ 0 && x.grow.ule cl then { x with lsExp := min (x.lsExp + 1) 24, clean := 0 }
      else { x with clean := cl }

/-! Completion of an instance -/

/-- Remember a finished instance: the last 64 that ended OK or LATE, and every other (R281). -/
def State.rememberInst (s : State) (d : DoneInst) : State :=
  let l := (s.fab.done.filter fun x => x.key ≠ d.key) ++ [d]
  let good := l.filter (·.good)
  { s with fab := { s.fab with done := (l.filter fun x => !x.good) ++ good.drop (good.length - 64) } }

/-- Operations that a COLL has in flight are given up: a page wait, or a read of host memory. -/
def State.dropCollOp (s : State) (id : Nat) : State :=
  match s.desc? id with
  | some d =>
    (match d.body with
    | .coll b r =>
      let s := s.modDesc id fun d => { d with body := .coll b { r with op := none } }
      (match r.op with
      | some ⟨.local w, _, _⟩ => s.dropWait? w
      | some ⟨.t3 tag, _, _⟩ => { s with hif := { s.hif with t3 := SMap.erase s.hif.t3 tag } }
      | _ => s)
    | _ => s)
  | none => s

/-- The instance is over: its descriptor is finished with its status and DETAIL. What it still owes its peers, late for
them, goes on as they take it (R282, R286). -/
def State.instOver (s : State) (i : Inst) : State :=
  let me := (match s.group? i.key.cgrp with | some g => g.rank | none => 0)
  let shard := match i.body with | some b => if b.op.isRed then some (allBytes b.f (i.len me)) else none | none => none
  let st := if i.err then i.status.worse .parity else i.status
  let s := s.rememberInst ⟨i.key, !i.reissue && (st = .ok || st = .late), st, i.detail, shard, i.taken⟩
  let s := s.setInst { i with phase := .past, inn := i.inn.map (fun x => { x with data := [], got := [], pend := [] }), writes := [], ring := [] }
  match i.desc with
  | some id => (s.dropCollOp id).modDesc id fun d => { d with st := .finished, status := d.status.worse st, detail := i.detail }
  | none => s

/-- The instance ends with a status: its writes come first (R149). -/
def State.instEnd (s : State) (i : Inst) (st : Status) (detail : W32) (ws : List (Nat × Nat × List MByte)) : State :=
  let i := { i with status := st, detail := detail, writes := ws, phase := .write, ring := [] }
  if ws.isEmpty then s.instOver i else s.setInst i

/-- Positions of this module take unspecified data, whatever state their pages are in (R296); host memory is not this
module's. -/
def State.scramble (s : State) (c sp a : Nat) (bs : List Byte) : State :=
  match s.loc sp a with
  | .tile l x => (s.spdWrite l x bs []).1
  | .win x =>
    (List.range (if bs.isEmpty then 0 else (x + bs.length - 1) / pageSize - x / pageSize + 1)).foldl (fun (s : State) j =>
      let lo := max x ((x / pageSize + j) * pageSize)
      let hi := min (x + bs.length) ((x / pageSize + j + 1) * pageSize)
      match s.mem.find true c lo with
      | some k =>
        let p := s.mem.page k
        { s with mem := s.mem.setPage k { p with data := p.data.wrN (lo % pageSize) ((bs.drop (lo - x)).take (hi - lo)) } }
      | none => s) s
  | _ => s

/-- An abandoned permute leaves unspecified data at the positions granted and not filled (R296). -/
def State.permuteLeft (s : State) (i : Inst) : State :=
  match i.body, s.group? i.key.cgrp with
  | some b, some g =>
    let left := fun (s : State) (l : List (Nat × Nat × List MByte)) =>
      l.foldl (fun (s : State) w => s.scramble i.key.ctx w.1 w.2.1 (w.2.2.map (·.1))) s
    if b.op ≠ .permute || i.phase ≠ .run then (if b.op = .permute && i.phase = .write then left s i.writes else s)
    else
      let s' := left s (i.permuteEnd b g.rank s.free true)
      { s' with free := s.free + i.bufBytes b g.rank }
  | _, _ => s

/-- An open instance closes without its work: abandoned, fenced or failed (R270, R291). Its peers see it as absent. -/
def State.instClose (s : State) (i : Inst) (st : Status) : State :=
  let s := s.permuteLeft i
  s.instOver { i with status := st, body := none, outs := [], src := [] }

/-! The reduction scratch and credits (R283, R294) -/

/-- Bytes of a context's reduction scratch in use (R283). -/
def State.scratchUsed (s : State) (c : Nat) : Nat :=
  ((s.fab.insts.filter fun i => i.gathers c).map fun i =>
    match i.body, s.group? i.key.cgrp with
    | some b, some g =>
      (if i.scr then i.accBytes b g.rank else 0) + segSize * ((othersOf g).filter fun r => i.staged b g.rank r).length
    | _, _ => 0).sum

/-- Give a rank credit for blocks. -/
def State.sendCredit (s : State) (g : CGroup) (i : Inst) (fo r n : Nat) : State :=
  if n = 0 then s else s.sendColl g i.cls i.key fo r 5 0 [BitVec.ofNat 32 n]

/-- A rank may send: it is given credit for a first segment of `n` blocks. -/
def State.openFlow (s : State) (g : CGroup) (k : InstKey) (r n : Nat) : State :=
  match s.inst? k with
  | some i =>
    (match i.body with
    | some b => if (i.inFrom r).opened then s else (s.setInst (i.setIn { i.inFrom r with opened := true })).sendCredit g i b.fo r n
    | none => s)
  | none => s

/-- Data flows to the reductions of a context as its scratch accepts it: the accumulators of a shard, then a staging segment
for each flow (R283). -/
def State.openScratch (s : State) (c : Nat) : State :=
  let cap := (match SMap.get? s.fab.regions c with | some r => r.scrPages | none => 0) * pageSize
  ((s.fab.insts.filter fun i => i.gathers c).map (·.key)).foldl (fun (s : State) k =>
    match s.inst? k, s.group? k.cgrp with
    | some i, some g =>
      match i.body with
      | none => s
      | some b =>
        let i' := { i with scr := i.scr || decide (s.scratchUsed c + i.accBytes b g.rank ≤ cap) }
        let s := s.setInst i'
        if !i'.scr then s
        else
          ((othersOf g).filter fun r => !s.rankFenced g c r && decide (0 < i'.contrib b r g.rank)).foldl (fun (s : State) r =>
            if decide (s.scratchUsed c + segSize ≤ cap) then s.openFlow g k r (blocksOf segSize) else s) s
    | _, _ => s) s

/-! Reports and destination writes -/

/-- Every range that this member owes its peers, fenced ones apart, has been sent, with its SEGENDs; a segment that holds a
byte of a failing source word is never whole (R158). -/
def State.outsSent (s : State) (g : CGroup) (i : Inst) (b : CollBody) : Bool :=
  i.outs.all fun o => s.rankFenced g i.key.ctx o.rank ||
    (o.todo.isEmpty && (List.range (segsOf (i.contrib b g.rank o.rank) + (if i.result.isSome then segsOf (i.resultPart b g.rank o.rank) else 0))).all fun j => o.ended.contains j)

/-! Progress -/

/-- The instance's work on this member is complete, or its deadline or a fence ends it: it takes its status, DETAIL and
writes. `poison` ends it with data missing (R288). -/
def State.instConclude (s : State) (g : CGroup) (i : Inst) (b : CollBody) (poison : Bool) : State :=
  let c := i.key.ctx
  let n := g.members.length
  let me := g.rank
  let own := match i.result with | some (_, d) => d.toNat | none => 0
  let s := if poison then s.setFlag c true else s
  let stOf := fun (ds : List Nat) => if poison then Status.poisoned else if ds.any fun d => decide (nbits d 0 15 < n) || nbit d 15 then .late else .ok
  match b.op with
  | .reducescatter =>
    let ws := match i.result with | some (bs, _) => ownWrites b (i.len me) 0 (i.len me) bs | none => []
    s.instEnd i (stOf [own]) (BitVec.ofNat 32 own) (ws ++ lensReport b me own)
  | .allreduce | .reduce =>
    if b.op = .reduce && me ≠ b.root then s.instEnd i (stOf [own]) (BitVec.ofNat 32 own) (lensReport b me own)
    else
      let from_ := (othersOf g).filter fun r => i.len r != 0 && i.resultIn b me r
      let ds := own :: from_.map fun r => i.resultDetail b me r
      let inc := ds.foldl (fun m d => min m (nbits d 0 15)) n
      let ws := (match i.result with | some (bs, _) => ownWrites b b.count (i.off me) (i.len me) bs | none => [])
        ++ (from_.flatMap fun r => i.partWrites b me r b.count (i.off r) (i.len r) true)
        ++ lensReport b me own ++ from_.flatMap fun r => lensReport b r (i.resultDetail b me r)
      s.instEnd i (stOf ds) (BitVec.ofNat 32 (own - nbits own 0 15 + inc)) ws
  | .allgather =>
    let got := (othersOf g).filter fun r => i.len r = 0 || i.contribIn b me r
    let ws := ownWrites b b.count (i.off me) (i.len me) i.src
      ++ (othersOf g).flatMap fun r => i.partWrites b me r b.count (i.off r) (i.len r) false
    s.instEnd i (if poison then .poisoned else .ok) (BitVec.ofNat 32 (got.length + 1)) ws
  | .xfer =>
    let ok := b.opr = 0 || i.contribIn b me b.root
    s.instEnd i (if poison then .poisoned else .ok) (BitVec.ofNat 32 (b2n (ok && !poison)))
      (if b.opr = 1 then i.partWrites b me b.root b.count 0 b.count false else [])
  | .permute =>
    let got := (othersOf g).filter fun r => i.contribIn b me r
    let ws := i.permuteEnd b me s.free poison
    let s := { s with free := s.free + i.bufBytes b me }
    s.instEnd i (if poison then .poisoned else .ok) (BitVec.ofNat 32 (got.length + 1)) ws
  | _ => s

/-- Fold what the late buffer holds for this reduction; drop what can no longer be folded (R286). Answers the segments
folded. -/
def State.takeLate (s : State) (i : Inst) (b : CollBody) (me : Nat) : State × List LateSeg :=
  let mine := s.fab.late.filter fun l => l.key.ctx = i.key.ctx && l.key.cgrp = i.key.cgrp && l.key.tensor = i.key.tensor
  let age := fun (l : LateSeg) => (i.key.step - l.key.step).toNat
  let older := mine.filter fun l => decide (1 ≤ age l) && decide (age l < 2 ^ 31)
  let fold := older.filter fun l => decide (age l ≤ b.lateAge) && decide (l.time < b.deadline) && l.shard = allBytes b.f (i.len me)
  let drop := older.filter fun l => !fold.contains l && !(decide (age l < b.lateAge) && decide (l.time ≥ b.deadline))
  let s := { s with fab := { s.fab with late := s.fab.late.filter fun l => !fold.contains l && !drop.contains l } }
  let s := s.dropLate drop
  let x := s.fab.ctx i.key.ctx
  let f := s.fab.setCtx i.key.ctx { x with folds := satAdd x.folds fold.length }
  ({ s with fab := { f with lateFolds := f.lateFolds + BitVec.ofNat 32 fold.length } }, fold)

/-- Segments of rank `r` that have come and were not included when the owner reduced: those whole and correct are held for
the next reduction; those still bad at the deadline are dropped (R285, R286). They have then been dealt with. -/
def State.putAside (s : State) (i : Inst) (b : CollBody) (n r : Nat) : State × Inst :=
  let x := i.inFrom r
  let s := x.good.foldl (fun (s : State) gd =>
    if x.inTime i b gd.1 then s
    else match segRange n 0 gd.1 with
      | some (lo, m) => s.holdLate ⟨i.key, r, gd.1, n, x.data.rdN lo m, gd.2⟩
      | none => s) s
  let bad := x.resends.eraseDups.filter fun j => decide (j < segsOf n) && !(x.good.any fun gd => gd.1 = j)
  let s := s.dropLate (bad.map fun j => (⟨i.key, r, j, n, [], s.now⟩ : LateSeg))
  (s, i.setIn { x with good := x.good ++ bad.map fun j => (j, max s.now b.deadline) })

/-- This owner reduces its shard (R282, R283, R286, R287). PARTIAL tells that a contribution was included in part, or that
a segment of a member not fenced was late: one not here at the deadline is, whether it has begun to come or not, which is
a reading (log entry 188). -/
def State.reduceOwn (s : State) (g : CGroup) (i : Inst) (b : CollBody) : State × Inst :=
  let me := g.rank
  let k := i.len me
  let n := allBytes b.f k
  let others := othersOf g
  let (s, fold) := s.takeLate i b me
  let dropped := s.fab.dropped.filter fun d => d.1.ctx = i.key.ctx && d.1.cgrp = i.key.cgrp && d.1.tensor = i.key.tensor
  let s := { s with fab := { s.fab with dropped := s.fab.dropped.filter fun d => !dropped.contains d } }
  let own := sliceOf b.f i.src b.count (i.off me) k
  let ownC : Contribution := ⟨Mem.wrN [] 0 (own.map (·.1)), [(0, n)]⟩
  let cs := others.map fun r =>
    let x := i.inFrom r
    (⟨x.data, (List.range (segsOf n)).filterMap fun j => if x.inTime i b j then segRange n 0 j else none⟩ : Contribution)
  let ls := fold.map fun l => (⟨Mem.wrN [] (l.seg * segSize) l.data, [(l.seg * segSize, l.data.length)]⟩ : Contribution)
  let (bytes, ovf) := reduceShard b.f b.opr k (ownC :: cs ++ ls)
  let inc := 1 + (others.filter fun r => i.whole b me r).length
  let part := others.any fun r => i.partial_ b me r || (!s.rankFenced g i.key.ctx r && !i.whole b me r)
  let folded := ((fold.map fun l => (l.key, l.rank)).eraseDups).length
  let d := collDetail dropped.length folded part inc
  let s := if ovf then s.setFlag i.key.ctx false else s
  let a := others.foldl (fun (a : State × Inst) r => a.1.putAside a.2 b n r) (s, i)
  let outs := i.outs.map fun o =>
    let r := i.resultPart b me o.rank
    if r = 0 then o else { o with todo := o.todo ++ [(i.contrib b me o.rank, r)] }
  let i := { a.2 with result := some (bytes.zip (shardMarks b.f k own), d), outs := outs }
  let s := a.1.setInst i
  -- the scratch is free again: flows that it held back may send
  let s := (others.filter fun r => !s.rankFenced g i.key.ctx r && decide (0 < i.contrib b r me + i.resultPart b r me)).foldl
    (fun (s : State) r => s.openFlow g i.key r (blocksOf segSize)) s
  (s, (s.inst? i.key).getD i)

/-- A whole segment that has come on a flow of `c` bytes, its results from `r`: taken when its CRC holds, asked for again
otherwise (R285). Contributions of a reduction are credited here, as their staging segment is free again (R283); of other
data, blocks that have not come are. -/
def State.judgeSeg (g : CGroup) (i : Inst) (b : CollBody) (rank c r : Nat) (a : State × InFlow) (p : Nat × Nat × Nat) : State × InFlow :=
  if a.2.good.any fun y => y.1 = p.1 then a
  else
    match segRange c r p.1 with
    | none => a
    | some (lo, n) =>
      let lost := ((List.range (blocksOf n)).filter fun j => !ivCovers a.2.got (lo + 256 * j) (min 256 (n - 256 * j))).length
      let staged := b.op.isRed && decide (lo < c)
      if a.2.holds lo n p.2.1 then
        (if staged then a.1.sendCredit g i b.fo rank (blocksOf n) else a.1, { a.2 with good := a.2.good ++ [(p.1, p.2.2)] })
      else
        let back := if staged then blocksOf n else lost
        let s := a.1.sendCredit g i b.fo rank back
        if (a.2.resends.filter (· = p.1)).length < 3 then
          (s.sendColl g i.cls i.key b.fo rank 3 0 [BitVec.ofNat 32 p.1],
            { a.2 with resends := a.2.resends ++ [p.1], got := ivCut a.2.got lo n })
        else (s, a.2)

/-- The segments that have come on one flow are looked at, in order; what a permute's failing segment wrote is not
filled. -/
def State.judgeFlow (g : CGroup) (i : Inst) (b : CollBody) (a : State × Inst) (x : InFlow) : State × Inst :=
  let r := x.pend.foldl (State.judgeSeg g i b x.rank (i.contrib b x.rank g.rank) (i.resultPart b x.rank g.rank)) (a.1, { x with pend := [] })
  let y := { r.2 with pend := [] }
  let p := i.permFlow x.rank g.rank
  let lost := (y.resends.drop x.resends.length).map fun j => (p.1 + j * segSize * 8 / fmtBits b.f, segSize * 8 / fmtBits b.f)
  let j := a.2.setIn y
  (r.1, if b.op = .permute then { j with filled := lost.foldl (fun l z => ivDiff l ((ivMeet z p.1 p.2).toList)) j.filled } else j)

/-- Judge the SEGENDs that have come (R282, R285): a segment whole and correct is taken, any other is asked again up to three
times. -/
def State.judge (s : State) (g : CGroup) (i : Inst) (b : CollBody) : State × Inst :=
  i.inn.foldl (State.judgeFlow g i b) (s, i)

/-- Grants of a permute: every new element whose position is free (R294). -/
def State.grantAll (s : State) (g : CGroup) (i : Inst) (b : CollBody) : State × Inst :=
  let me := g.rank
  let d : Int := (i.newOff me : Int) - (i.off me : Int)
  let free := ivDiff i.ungranted (i.unread.map fun x => ivShift x d)
  let u := if fmtScaled b.f then 32 else if fmtBits b.f = 4 then 2 else 1
  let whole := free.filterMap fun x => let a := ceilDiv x.1 u * u; let e := (x.1 + x.2) / u * u; if a < e then some (a, e - a) else none
  let s := (othersOf g).foldl (fun s r =>
    whole.foldl (fun s x =>
      match ivMeet x (i.off r) (i.len r) with
      | some m => s.sendColl g i.cls i.key b.fo r 4 0 [BitVec.ofNat 32 m.1, BitVec.ofNat 32 (m.1 / 2 ^ 32), BitVec.ofNat 32 m.2, BitVec.ofNat 32 (m.2 / 2 ^ 32)]
      | none => s) s) s
  (s, { i with ungranted := ivDiff i.ungranted whole })

/-- A barrier or vote ends on this member; a vote takes its result first, and its record is to be written (R178, R183). -/
def State.voteEnd (s : State) (i : Inst) (op : CollOp) (result : Nat) (st : Status) (detail : W32) : State :=
  let s := if op = .vote then s.voteDone i.key.ctx result i.key.step else s
  let s := match i.desc, s.ctx? i.key.ctx with
    | some id, some x => if op = CollOp.vote then s.modDesc id fun d =>
        match d.body with
        | .coll b r => { d with body := .coll b { r with record := numRecord x.voteStep x.lsExp x.lastResult.toNat x.clean } }
        | _ => d
      else s
    | _, _ => s
  s.instEnd i st detail []

/-- A barrier or vote (R178, R281, R289, R290): rank 0 decides when every member not fenced has arrived, or at the deadline;
any other rank adopts its decision. A reissue after an instance that did not end well is POISONED at once. -/
def State.lightCheck (s : State) (g : CGroup) (i : Inst) (b : CollBody) : State :=
  let c := i.key.ctx
  let n := g.members.length
  let alive := (othersOf g).filter fun r => !s.rankFenced g c r
  if i.reissue then (s.setFlag c true).voteEnd i b.op 3 .poisoned 0
  else if g.rank ≠ 0 then
    match i.decided with
    | some w => s.voteEnd i b.op (fld w 0 2) (Status.ofCode (fld w 8 8)) (BitVec.ofNat 32 (fld w 16 16))
    | none => if s.rankFenced g c 0 then s.voteEnd i b.op 3 .poisoned 0 else s
  else
    let have_ := i.arrived
    if (alive.all fun r => have_.any fun a => a.1 = r) || i.late then
      let late := have_.length < n
      let res := if b.op = .vote then (if late then 3 else voteResult (have_.map (·.2))) else 0
      let st : Status := if late then .late else .ok
      let s := alive.foldl (fun (s : State) r =>
        s.sendColl g i.cls i.key b.fo r 7 0 [BitVec.ofNat 32 (res + st.code * 2 ^ 8 + have_.length * 2 ^ 16)]) s
      s.voteEnd i b.op res st (BitVec.ofNat 32 have_.length)
    else s

/-- Bring a data collective up to date: SEGENDs, grants, this owner's reduction, and its end. It ends when it has what it
needs and has sent what it owes; at its deadline it ends with what it has, and goes on sending what its peers still take
(R281, R282, R287, R288). -/
def State.dataCheck (s : State) (g : CGroup) (i : Inst) (b : CollBody) : State :=
  let me := g.rank
  let c := i.key.ctx
  let alive := (othersOf g).filter fun r => !s.rankFenced g c r
  let (s, i) := s.judge g i b
  let (s, i) := if b.op = .permute then s.grantAll g (i.keepMove b me) b else (s, i)
  let (s, i) := if b.op.isRed && i.result.isNone && !i.reissue && (i.late || alive.all fun r => i.whole b me r) then s.reduceOwn g i b else (s, i)
  let s := s.setInst i
  let free := s.outsSent g i b || i.late
  if i.reissue then (if free then (s.setFlag c true).instEnd i .poisoned 0 [] else s)
  else if ((othersOf g).any fun r => s.rankFenced g c r && i.needs b me r) && (!b.op.isRed || i.result.isSome) then s.instConclude g i b true
  else
    let ready := (!b.op.isRed || i.result.isSome) && (b.op ≠ .permute || (i.kept && i.ungranted.isEmpty && i.ring.isEmpty))
      && alive.all fun r => !i.lacks b me r
    if ready && free then s.instConclude g i b false
    else if i.late && !b.op.isRed && !ready then s.instConclude g i b true
    else s

/-! Blocks that leave -/

end Sys2Proof.Machine

namespace Sys2Proof

/-- Block of a DATA packet in bytes. -/
def collBlock : Nat := 256

/-- The instance after a block of `m` bytes at `lo` of a flow has left, within the segment `sg` of `sn` bytes at `slo`; a
permute's elements are read as they are sent, and the scales of a flow follow its elements (R282, R294). -/
def Inst.blockSent (i : Inst) (g : CGroup) (b : CollBody) (o : OutFlow) (rest : List (Nat × Nat)) (lo n m slo sn : Nat) : Inst :=
  let c := i.contrib b g.rank o.rank
  let sent := ivAdd o.sent lo m
  let i := { i with lastOut := o.rank }.modOut o.rank fun x =>
    { x with todo := (if m < n then [(lo + m, n - m)] else []) ++ rest, sent := sent, credit := x.credit - 1,
             ended := if ivCovers sent slo sn && !o.ended.contains (segAt c lo) then x.ended ++ [segAt c lo] else x.ended }
  let p := i.permFlow g.rank o.rank
  let el := elBytes b.f p.2
  let i := if b.op = .permute && decide (lo < el) then
    { i with unread := ivCut i.unread (p.1 + lo * 8 / fmtBits b.f) (min m (el - lo) * 8 / fmtBits b.f) } else i
  if b.op = .permute && decide (el < c) && ivCovers sent 0 el && !ivCovers sent el (c - el)
      && ((i.outs.find? fun x => x.rank = o.rank).map fun x => x.todo.isEmpty) = some true then
    i.modOut o.rank fun o => { o with todo := [(el, c - el)] }
  else i

/-- The outflow to serve next: those with credit and something to send, in rank order from the one after the last served
(R294). -/
def Inst.nextOut (i : Inst) (dead : Nat → Bool) : Option OutFlow :=
  let l := i.outs.filter fun o => !dead o.rank && decide (o.credit > 0) && !o.todo.isEmpty
  (l.find? fun o => decide (o.rank > i.lastOut)).orElse fun _ => l.head?

end Sys2Proof

namespace Sys2Proof.Machine

/-- The packets of a block: its DATA, and SEGEND once the segment has all been sent (R282, R294). A block that holds a byte
of a failing source word is not sent, and its segment is not ended (R158, R222). -/
def State.sendBlock (s : State) (g : CGroup) (i : Inst) (b : CollBody) (o : OutFlow) (lo m slo sn : Nat) : State :=
  let flow := i.flowOut b g.rank o.rank
  let sg := segAt (i.contrib b g.rank o.rank) lo
  let blk := (flow.drop lo).take m
  let seg := (flow.drop slo).take sn
  let s := if blk.any (·.2) then s
    else s.sendColl g i.cls i.key b.fo o.rank 1 (lo * 8 / fmtBits b.f) (bytesToWords (ceilDiv m 4) (blk.map (·.1)))
  if ivCovers (ivAdd o.sent lo m) slo sn && !o.ended.contains sg && !seg.any (·.2) then
    s.sendColl g i.cls i.key b.fo o.rank 2 0 [crc32c (seg.map (·.1)), BitVec.ofNat 32 sg]
  else s

/-- A block of `m` bytes at `lo` leaves: its packets, and the instance after it (R282, R294). -/
def State.sendPart (s : State) (g : CGroup) (i : Inst) (b : CollBody) (o : OutFlow) (lo n : Nat) (rest : List (Nat × Nat)) (m slo sn : Nat) : State :=
  (s.sendBlock g i b o lo m slo sn).setInst (i.blockSent g b o rest lo n m slo sn)

/-- The next block of a flow: `n` bytes to send from `lo`, then `rest`, within the segment `r` (R282, R294). -/
def State.sendWithin (s : State) (g : CGroup) (i : Inst) (b : CollBody) (o : OutFlow) (lo n : Nat) (rest : List (Nat × Nat)) (r : Option (Nat × Nat)) : State :=
  match r with
  | none => s.setInst (i.modOut o.rank fun o => { o with todo := rest })
  | some x => s.sendPart g i b o lo n rest (min collBlock (min n (x.1 + x.2 - lo))) x.1 x.2

/-- Send the next block of an instance: at most 256 bytes of one segment of one flow with credit, then its SEGEND when the
segment is whole (R282, R294). -/
def State.sendNext (s : State) (g : CGroup) (i : Inst) (b : CollBody) : State :=
  match i.nextOut (s.rankFenced g i.key.ctx) with
  | none => s
  | some o =>
    match o.todo with
    | [] => s
    | (lo, n) :: rest =>
      s.sendWithin g i b o lo n rest (segRange (i.contrib b g.rank o.rank) (i.resultPart b g.rank o.rank) (segAt (i.contrib b g.rank o.rank) lo))

/-- What an instance that is over still owes leaves as far as its credits go (R282, R286). -/
def State.sendLeft (s : State) (k : InstKey) : State :=
  match s.inst? k, s.group? k.cgrp with
  | some i, some g =>
    match i.body with
    | some b =>
      if i.phase ≠ .past then s
      else (List.range (i.outs.map fun o => o.credit).sum).foldl (fun (s : State) _ => (s.inst? k).elim s fun i => s.sendNext g i b) s
    | none => s
  | _, _ => s

/-- Bring an instance in its exchange up to date (R282, R287 to R290, R294), and let its context's scratch accept more
(R283). -/
def State.instCheck (s : State) (k : InstKey) : State :=
  match s.inst? k, s.group? k.cgrp with
  | some i, some g =>
    match i.body with
    | some b =>
      if i.phase ≠ .run then s
      else ((if b.op = .barrier || b.op = .vote then s.lightCheck g i b else s.dataCheck g i b).openScratch k.ctx).sendLeft k
    | none => s
  | _, _ => s

/-- First credit of a sender of data that passes no scratch: the blocks of one swap page, divided among a permute's senders,
which may share a port (R294): DESIGN CHOICE (log entry 189). -/
def State.openDirect (s : State) (g : CGroup) (i : Inst) (b : CollBody) : State :=
  let senders := (othersOf g).filter fun r => decide (0 < i.contrib b r g.rank) && !s.rankFenced g i.key.ctx r
  if b.op.isRed || i.reissue then s
  else senders.foldl (fun (s : State) r =>
    s.openFlow g i.key r (if b.op = .permute then max 1 (blocksOf segSize / senders.length) else blocksOf segSize)) s

/-- SRC has been read: the exchange begins. -/
def State.instRun (s : State) (g : CGroup) (i : Inst) (b : CollBody) : State :=
  let me := g.rank
  let old := fun (r : Nat) => i.outs.find? fun o => o.rank = r
  let outs := (othersOf g).filterMap fun r =>
    let c := i.contrib b me r
    let sends := match b.op with | .xfer => b.opr = 0 && r = b.root | .barrier | .vote => false | _ => true
    if sends && (c != 0 || i.resultPart b me r != 0) then
      let todo := if b.op = .permute then ((old r).map fun o => o.todo.flatMap fun y => i.grantBytes b me r y).getD []
        else if c = 0 then [] else [(0, c)]
      some (⟨r, todo, [], [], ((old r).map (·.credit)).getD 0⟩ : OutFlow)
    else none
  let x := s.ctx? i.key.ctx
  let sample := (me, (match x with | some x => x.ovf | none => false), (match x with | some x => x.psn | none => false))
  let i := { i with
    phase := .run, outs := outs, late := decide (s.now ≥ b.deadline)
    unread := if b.op = .permute && i.len me != 0 then [(i.off me, i.len me)] else []
    ungranted := if b.op = .permute then ivDiff (if i.newLen me = 0 then [] else [(i.newOff me, i.newLen me)]) (if i.len me = 0 then [] else [(i.off me, i.len me)]) else []
    arrived := if (b.op = .barrier || b.op = .vote) && me = 0 then i.arrived ++ [sample] else i.arrived }
  let s := s.setInst i
  let s := if (b.op = .barrier || b.op = .vote) && me ≠ 0 && !s.rankFenced g i.key.ctx 0 then
    s.sendColl g i.cls i.key b.fo 0 6 0 [BitVec.ofNat 32 (b2n sample.2.1 + 2 * b2n sample.2.2)] else s
  (s.openDirect g i b).instCheck i.key

/-! Operations of a COLL (R158, R277) -/

/-- Change what a COLL has done. -/
def State.modColl (s : State) (id : Nat) (f : CollRun → CollRun) : State :=
  s.modDesc id fun d => match d.body with | .coll b r => { d with body := .coll b (f r) } | _ => d

/-- An operation of a COLL fails with a status that ends it (R158). -/
def State.collFail (s : State) (id : Nat) (st : Status) : State :=
  match s.instOf id with
  | some i => s.instClose i st
  | none =>
    (s.dropCollOp id).modDesc id fun d => { d with st := .finished, status := d.status.worse st }

/-- The next access of a COLL to storage: space, address, length and whether it writes. -/
def State.collNext (s : State) (id : Nat) (d : Desc) : Option (Nat × Nat × Nat × Bool) :=
  match d.body with
  | .coll b r =>
    let wr := fun (sp a : Nat) (bs : List MByte) => some (sp, a, min bs.length (blockRoom a), true)
    (match s.instOf id with
    | none => some (0, b.lens + 8 * r.lens.length, 8, false)
    | some i =>
      match i.phase, s.group? i.key.cgrp with
      | .load, some g =>
        let a := b.src + i.src.length
        some (b.ssp, a, min (i.srcBytes b g.rank - i.src.length) (blockRoom a), false)
      | .run, _ => (match i.ring with | x :: _ => wr b.dsp x.addr x.bytes | [] => none)
      | .write, _ => (match i.writes with | (sp, a, bs) :: _ => wr sp a bs | [] => none)
      | _, _ => none)
  | _ => none

/-- The descriptor is a COLL. -/
def State.isColl (s : State) (id : Nat) : Bool :=
  match s.desc? id with | some d => (match d.body with | .coll _ _ => true | _ => false) | none => false

/-- A COLL has a block to send now. -/
def State.collSends (s : State) (id : Nat) : Bool :=
  match s.instOf id with
  | some i =>
    (match i.body, s.group? i.key.cgrp with
    | some _, some g => i.phase = .run && (i.nextOut (s.rankFenced g i.key.ctx)).isSome
    | _, _ => false)
  | none => false

/-- A COLL has an operation to issue now; it has one in flight at a time. -/
def State.collWants (s : State) (id : Nat) (d : Desc) : Bool :=
  match d.body with
  | .coll _ r => r.op.isNone && ((s.collNext id d).isSome || s.collSends id)
  | _ => false

/-- The next operation of a COLL: an access to storage goes in flight; else a block is sent (R158, R277). -/
def State.collIssue (s : State) (id : Nat) : State :=
  match s.desc? id with
  | none => s
  | some d =>
    match s.collNext id d with
    | some (sp, a, n, write) =>
      let go := fun (s : State) (v : OpVia) => s.modColl id fun r => { r with op := some ⟨v, sp, a⟩ }
      (match s.loc sp a with
      | .tile _ _ => go s (.local none)
      | .win x => (match s.viaFor (s.classOf d) d.hdr.ctx x write with
        | (s, some v) => go s v
        | (s, none) => s.collFail id .range)
      | .t3 x =>
        if s.t3Denied then s.collFail id .denied
        else if write then go s (.local none)
        else let (s, tag) := s.t3Read (some (id, 0)) (t3Addr x) n; go s (.t3 tag)
      | .remote _ _ => s.collFail id .range)
    | none =>
      match s.instOf id with
      | some i =>
        (match i.body, s.group? i.key.cgrp with
        | some b, some g => (s.sendNext g i b).instCheck i.key
        | _, _ => s)
      | none => s

end Sys2Proof.Machine

namespace Sys2Proof.Machine

/-! Checks and start -/

/-- The collective takes its lengths from a length table that can be read: its group is known and LENS lies in a tier. -/
def State.lensTable (s : State) (b : CollBody) : Option Nat :=
  let uses := b.op ≠ .barrier && b.op ≠ .vote && b.op ≠ .xfer
  if uses && b.lens != 0 && b.lens % 8 = 0 && (localRange b.lens = .t1 || localRange b.lens = .t2) then
    (s.group? b.cgrp).map fun g => g.members.length
  else none

/-- Order 1 of Table 8.11, without the length table. -/
def State.collReserved (s : State) (b : CollBody) : Bool :=
  let light := b.op = .barrier || b.op = .vote
  let root := match s.group? b.cgrp with | some g => g.rank = b.root | none => true
  (b.op.isRed && b.opr = 3) || (b.op = .xfer && decide (b.opr ≥ 2)) || (!light && (fmtOf b.fmt).isNone) || decide (b.lateAge ≥ 5)
    || (b.op = .reduce && !root && (b.dst != 0 || b.dsp != 0)) || (b.op = .xfer && b.lens != 0)

/-- Table 8.11 (R279): `table` holds the entries of the length table, where LENS gives one. -/
def State.collRefused (s : State) (h : DescHdr) (b : CollBody) (step : W32) (table : List (Nat × Nat)) : Option Status :=
  let light := b.op = .barrier || b.op = .vote
  if s.collReserved b || (b.op = .allgather && table.any fun e => e.2 != 0) then some .rsvdSet
  else
    match s.group? b.cgrp with
    | none => some .range
    | some g =>
      let n := g.members.length
      let fmtBad := if light then false
        else if b.op.isRed then (if b.opr = 0 then b.f ≠ .h16 else b.f ≠ .w16 && b.f ≠ .h16 && b.f ≠ .q8e5)
        else b.fmt = 0
      let k : InstKey := ⟨h.ctx, b.cgrp, b.tensor, step⟩
      let i : Inst := { newInst k 0 with lens := b.lengths n table }
      if fmtBad || b.ssp = spGlobal || b.dsp = spGlobal || (!light && (!collAlign b.f b.src || !collAlign b.f b.dst))
          || b.lens % 8 != 0 || (b.lens != 0 && localRange b.lens ≠ .t1 && localRange b.lens ≠ .t2)
          || ((b.op = .reduce || b.op = .xfer) && decide (b.root ≥ n)) || (!light && fmtScaled b.f && b.count % 32 != 0)
          || s.stepless h.ctx || (b.op = .permute && (b.dst ≠ b.src || b.dsp ≠ b.ssp || b.lens = 0))
          || (!light && lensBad i b g.rank) then some .range
      else if g.ctx ≠ h.ctx then some .denied
      else if s.fab.insts.any fun j => j.isOpen && j.key = k then some .busy
      else if (s.fab.ctx h.ctx).fenced then some .fenced
      else none

/-- The checks of a COLL after Table 5.5 (Table 8.11, R266 and R267): where a length table is to be read first, the checks
behind order 1 wait for it. -/
def State.checkColl (s : State) (bs : List Byte) : Option Status :=
  let h := DescHdr.ofBytes bs
  match collOpOf h.op with
  | none =>
    let present := (s.fab.ctx h.ctx).epoch
    if h.op = 9 then (if BitVec.ofNat 32 (dn bs 0x18 4) = present then none else some .range)
    else
      let d := (BitVec.ofNat 32 (dn bs 0x14 4) - present).toNat
      if 1 ≤ d ∧ d ≤ 2 ^ 31 - 1 then none else some .range
  | some op =>
    let b := CollBody.ofBytes op bs
    if (s.lensTable b).isSome then (if s.collReserved b then some .rsvdSet else none)
    else s.collRefused h b (match s.ctx? h.ctx with | some x => x.step | none => 0) []

/-- A COLL that has passed its checks and has nothing to do ends. -/
def State.collAtOnce (s : State) (id : Nat) (st : Status) (detail : W32) : State :=
  s.modDesc id fun d => { d with st := .finished, status := d.status.worse st, detail := detail }

/-- An instance opens (R281): a no-op and a finished instance end at once. -/
def State.collOpen (s : State) (id : Nat) (d : Desc) (b : CollBody) (step : W32) (table : List (Nat × Nat)) : State :=
  let c := d.hdr.ctx
  let k : InstKey := ⟨c, b.cgrp, b.tensor, step⟩
  let light := b.op = .barrier || b.op = .vote
  let done := s.fab.done.find? fun d => d.key = k
  match s.group? b.cgrp with
  | none => s
  | some g =>
    if !light && b.count = 0 then s.collAtOnce id .ok 0
    else if b.op = .vote && (s.ctxIs c fun x => x.voted && x.voteStep = step) then
      s.collAtOnce id ((done.map (·.status)).getD .ok) ((done.map (·.detail)).getD 0)
    else
      match done.filter (·.good) with
      | some x => s.collAtOnce id x.status x.detail
      | none =>
        let i := { ((s.inst? k).filter fun i => i.phase = .early).getD (newInst k s.now) with
          desc := some id, body := some b, issueAt := s.now, reissue := done.isSome, cls := s.classOf d
          lens := b.lengths g.members.length table }
        if i.srcBytes b g.rank = 0 then s.instRun g i b else s.setInst { i with phase := .load }

/-- A collective's descriptor turns out to fail its checks once its length table has been read: it completes as R141
has it, or faults the tile program. -/
def State.rejectColl (s : State) (id : Nat) (d : Desc) (st : Status) : State :=
  let s := { s with descs := SMap.erase s.descs id }
  match d.src with
  | .queue q n => (((s.entryDone q n st).queueErr q st).ev 0x04FF 8 q (st.code + q * 256) 0).queueIrq q
  | .exec l pc => s.faultTile l st pc

/-- The length table has been read: the checks that need it, and the start (R279). With an entry that no re-read recovers
the collective ends with its data error before it is an instance. -/
def State.collTable (s : State) (id : Nat) : State :=
  match s.desc? id with
  | none => s
  | some d =>
    match d.body with
    | .coll b r =>
      if r.lensErr then s.collAtOnce id .parity 0
      else
        (match s.collRefused d.hdr b r.step r.lens with
        | some st => s.rejectColl id d st
        | none => s.collOpen id d b r.step r.lens)
    | _ => s

/-- Start a collective on an engine (R279, R281): its length table is read first. -/
def State.startCollOp (s : State) (src : DescSrc) (h : DescHdr) (b : CollBody) (die eng : Nat) : State :=
  let step := match s.ctx? h.ctx with | some x => x.step | none => 0
  let (s', id) := s.addDesc src h (.coll b ⟨die, eng, step, [], false, none, []⟩) .running .ok 0
  if (s.lensTable b).isSome then s' else (s'.desc? id).elim s' fun d => s'.collOpen id d b step []

/-! Operations that complete -/

/-- Bytes that an operation of a COLL has read: an entry of its length table, or SRC; `bad` are the offsets of those taken
from a failing word. Whatever they are, the next operations are issued (R158). -/
def State.collGot (s : State) (id : Nat) (bs : List Byte) (bad : List Nat) : State :=
  let s := s.modColl id fun r => { r with op := none }
  match s.instOf id with
  | none =>
    let s := s.modColl id fun r =>
      { r with lens := r.lens ++ [(leNat (bs.take 4), leNat (bs.drop 4))], lensErr := r.lensErr || !bad.isEmpty }
    match s.desc? id with
    | some d => (match d.body with
      | .coll b r => if some r.lens.length = s.lensTable b then s.collTable id else s
      | _ => s)
    | none => s
  | some i =>
    match i.body, s.group? i.key.cgrp with
    | some b, some g =>
      if i.phase ≠ .load then s
      else
        let i := { i with src := i.src ++ bs.mapIdx (fun j x => (x, bad.contains j)), err := i.err || !bad.isEmpty }
        if i.src.length < i.srcBytes b g.rank then s.setInst i else s.instRun g i b
    | _, _ => s

/-- Bytes have been written for a COLL: at its destination, or a permute's elements at their final place, which frees a
block of the ring (R294). -/
def State.collPut (s : State) (id n : Nat) : State :=
  let s := s.modColl id fun r => { r with op := none }
  match s.instOf id with
  | none => s
  | some i =>
    match i.phase, i.ring, i.writes with
    | .run, x :: rest, _ =>
      if n < x.bytes.length then s.setInst { i with ring := { x with addr := x.addr + n, bytes := x.bytes.drop n } :: rest }
      else
        let s := s.setInst { i with ring := rest, filled := ivAdd i.filled x.first x.count }
        let s := match x.rank, i.body, s.group? i.key.cgrp with
          | some r, some b, some g => s.sendCredit g i b.fo r 1
          | _, _, _ => s
        s.instCheck i.key
    | .write, _, (sp, a, bs) :: rest =>
      let left := (if n < bs.length then [(sp, a + n, bs.drop n)] else []) ++ rest
      if left.isEmpty then (s.instOver i).sendLeft i.key else s.setInst { i with writes := left }
    | _, _, _ => s

/-- What a COLL writes next. -/
def State.collBytes (s : State) (id : Nat) : List MByte :=
  match s.instOf id with
  | some i => (match i.phase with
    | .run => (i.ring.head?.map (·.bytes)).getD []
    | _ => (i.writes.head?.map fun w => w.2.2).getD [])
  | none => []

/-- The errors a write of a COLL meets at a place, and the byte offsets that they poison. -/
def State.collPutErrs (s : State) (c sp a n die : Nat) (res : OpRes) : State × List Nat :=
  match s.loc sp a with
  | .win x => s.winErrs c x n res
  | _ => (s.pathErr res die, match res with | .path _ ws => pathBad n ws | _ => [])

/-- The write of a COLL at a place. -/
def State.collStore (s : State) (o : AccFor) (c sp a : Nat) (bs : List Byte) (bad : List Nat) : State × WrRes :=
  match s.loc sp a with
  | .tile l x => s.spdWrite l x bs bad
  | .win x => s.winWrite o c x bs bad
  | .t3 x => if s.t3Denied then (s, .fail .denied) else (s.t3Out (.t3Write (t3Addr x) bs !bad.isEmpty), .done)
  | .remote _ _ => (s, .fail .range)

/-- The read of a COLL at a place. -/
def State.collLoad (s : State) (o : AccFor) (c sp a n die : Nat) (res : OpRes) : State × RdRes :=
  match s.loc sp a with
  | .tile l x => (s.pathErr res die).spdRead l x n (match res with | .spd hw => hw | _ => [])
  | .win x => s.winReadErr o c x n res
  | _ => (s, .fail .range)

/-- The operation in flight of a COLL is over, or waits for a page. -/
def State.collOp (s : State) (id : Nat) (op : Option CollOpn) : State := s.modColl id fun r => { r with op := op }

/-- An operation of a COLL has ended with a status. -/
def State.collOpFail (s : State) (id : Nat) (st : Status) : State := (s.collOp id none).collFail id st

/-- A write of a COLL completes. -/
def State.collWrote (s : State) (id : Nat) (o : AccFor) (c sp a n die : Nat) (res : OpRes) : State :=
  let bs := (s.collBytes id).take n
  let bad := (List.range n).filter fun j => (bs[j]?.map (·.2)).getD false
  let e := s.collPutErrs c sp a n die res
  let w := e.1.collStore o c sp a (bs.map (·.1)) ((bad ++ e.2).eraseDups)
  match w.2 with
  | .done =>
    (match w.1.instOf id with
    | some i => if e.2.isEmpty then w.1 else w.1.setInst { i with err := true }
    | none => w.1).collPut id n
  | .wait k => w.1.collOp id (some ⟨.local (some k), sp, a⟩)
  | .fail st => w.1.collOpFail id st

/-- A read of a COLL completes. -/
def State.collRead (s : State) (id : Nat) (o : AccFor) (c sp a n die : Nat) (res : OpRes) : State :=
  let pb := match s.loc sp a, res with
    | .tile _ _, .path _ ws => pathBad n ws
    | _, _ => []
  let r := s.collLoad o c sp a n die res
  match r.2 with
  | .got bs bad => r.1.collGot id bs ((bad ++ pb).eraseDups)
  | .wait k => r.1.collOp id (some ⟨.local (some k), sp, a⟩)
  | .fail st => r.1.collOpFail id st

/-- The operation in flight of a COLL completes, its page at hand. An operation that a deadline overtook is given up. -/
def State.collLand (s : State) (id : Nat) (d : Desc) (die sp a : Nat) (res : OpRes) : State :=
  let o : AccFor := ⟨true, true, s.classOf d⟩
  match s.collNext id d with
  | some (sp', a', n, write) =>
    if (sp', a') ≠ (sp, a) then s.collOp id none
    else if write then s.collWrote id o d.hdr.ctx sp a n die res
    else s.collRead id o d.hdr.ctx sp a n die res
  | none => s.collOp id none

/-- TONGS_OPERATION_DONE of a COLL: its operation in flight completes once its page is at hand. -/
def State.collDone (s : State) (id : Nat) (res : OpRes) : State :=
  match s.desc? id with
  | some d =>
    match d.body with
    | .coll _ ⟨die, _, _, _, _, some ⟨.local w, sp, a⟩, _⟩ =>
      if d.st ≠ .running || s.downDies.contains die || !s.waitOver w then s
      else
        let st := s.waitRes w
        let s := s.dropWait? w
        if st ≠ .ok then s.collOpFail id st else s.collLand id d die sp a res
    | _ => s
  | none => s

end Sys2Proof.Machine

namespace Sys2Proof.Machine

/-! Fences and epochs -/

/-- Open collectives of a context end with a status. -/
def State.closeColls (s : State) (c : Nat) (st : Status) : State :=
  (s.fab.insts.filter fun i => i.isOpen && i.key.ctx = c).foldl (fun s i => s.instClose i st) s

/-- Remote operations of a context fail with a status, and their sequence numbers are retired (R159). -/
def State.failRemote (s : State) (c : Nat) (st : Status) (to_ : Nat → Bool) : State :=
  let hit := s.fab.txns.filter fun e => e.2.ctx = c && to_ e.2.dst
  let s := { s with fab := { s.fab with txns := s.fab.txns.filter fun e => !(e.2.ctx = c && to_ e.2.dst) } }
  hit.foldl (fun s e =>
    match e.2.who with
    | .piece id k => s.failPiece id k st
    | .push l pc => s.faultTile l st pc) s

/-- The batch step of a context ends without completing: its partition passes on as at the end of one (R270, R322, R334). -/
def State.dropStep (s : State) (c : Nat) : State :=
  match s.ctx? c with
  | none => s
  | some x =>
    let s := s.modCtx c fun x => { x with bstep := false, bstepSlot := none, overSince := none }
    if s.slotPart x.part && (s.schPart x.part).holder = .slot c then
      s.passOn x.part ((x.bstepSlot.bind Prod.fst).orElse fun _ => s.lastEntryOn x.part)
    else s

/-- This module is fenced in a context (R270): its batch step ends with its LAUNCHes (Table 10.8). -/
def State.selfFence (s : State) (c : Nat) : State :=
  let s := (s.launchesOf c).foldl (fun s id => s.modDesc id fun d => { d with st := .finished, status := .fenced }) s
  let s := { s with fab := s.fab.setCtx c { s.fab.ctx c with fenced := true } }
  let s := s.enterFaulted c .fenced 0xFFFF none
  let s := s.failRemote c .fenced fun _ => true
  let s := (s.closeColls c .fenced).dropStep c
  s.ev 0x0103 7 c s.fab.self (s.fab.ctx c).epoch.toNat

/-- Record a fence (R269 to R272). -/
def State.recordFence (s : State) (c dev : Nat) : State :=
  let ep := (s.fab.ctx c).epoch
  if s.fab.isFenced c dev then s
  else if s.fab.fences.length ≥ 16384 then s.selfFence c
  else
    let s := { s with fab := { s.fab with fences := s.fab.fences ++ [(⟨c, ep, dev⟩ : Fence)], fenceRec := satInc s.fab.fenceRec } }
    if s.fab.idValid && dev = s.fab.self then s.selfFence c
    else
      let s := s.failRemote c .fenced fun d => d = dev
      (s.fab.insts.filter fun i => i.isOpen && i.key.ctx = c).foldl (fun (s : State) (i : Inst) => s.instCheck i.key) s

/-- Send a FENCE of a device on every UP local and global port but one (R267, R268). -/
def State.sendFence (s : State) (c dev issuer hop : Nat) (ep : W32) (except : Option Nat) : State :=
  (s.fab.fencePorts except).foldl (fun s p =>
    let k := mkPacket 4 1 issuer (s.fab.port p).peerDev c ep 0 0 0 [BitVec.ofNat 32 dev, BitVec.ofNat 32 issuer]
    s.queueOn p .job (k.setF 0 24 3 hop)) s

/-- Remember a fence key among the 4,096 recent (R268). -/
def State.addFenceKey (s : State) (f : Fence) : State :=
  let l := s.fab.fenceKeys ++ [(f, s.now)]
  { s with fab := { s.fab with fenceKeys := l.drop (l.length - 4096) } }

/-- The block issues a fence in a context (R267, R369). -/
def State.issueFence (s : State) (c dev : Nat) : State :=
  let ep := (s.fab.ctx c).epoch
  let s := s.addFenceKey ⟨c, ep, dev⟩
  (s.sendFence c dev s.fab.self 0 ep none).recordFence c dev

/-- EPOCHSET's four effects (R266), and the push records of the context's queues (R263). -/
def State.setEpoch (s : State) (c : Nat) (ep : W32) : State :=
  let lost := s.fab.late.filter fun l => l.key.ctx = c
  let s := s.dropLate lost
  let f := s.fab.setCtx c { s.fab.ctx c with epoch := ep, fenced := false }
  { s with fab := { f with
      fences := f.fences.filter fun x => x.ctx ≠ c
      late := f.late.filter fun l => l.key.ctx ≠ c
      pushRecs := f.pushRecs.filter fun r => (s.queue r.queue).ctx ≠ c } }

/-- Start a COLL that has passed its checks. -/
def State.startColl (s : State) (src : DescSrc) (h : DescHdr) (bs : List Byte) (die : Nat) (eng : CollBody → Nat) : State :=
  match collOpOf h.op with
  | some op => let b := CollBody.ofBytes op bs; s.startCollOp src h b die (eng b)
  | none =>
    if h.op = 9 then (s.issueFence h.ctx (dn bs 0x14 2)).addDone src h .ok 0
    else if !(s.launchesOf h.ctx).isEmpty || (s.fab.insts.any fun i => i.isOpen && i.key.ctx = h.ctx) then s.addDone src h .busy 0
    else (s.setEpoch h.ctx (BitVec.ofNat 32 (dn bs 0x14 4))).addDone src h .ok 0

end Sys2Proof.Machine
end

