-- ==== Sys2Proof/Machine/MemctlOps.lean ====
section
/-! DEFINITION. MEMCTL descriptors: the checks of Table 7.7, what each operation starts, and when it has completed
(R205 to R211). -/
namespace Sys2Proof

/-- An object is there for MEMCTL: it exists and no RELEASE of it has begun. -/
def MemSys.live (m : MemSys) (h : Nat) : Option Obj := (SMap.get? m.objs h).filter fun o => !o.releasing

/-- First page of the HOME window and its end, in pages. -/
def homeLo (home : Nat) : Nat := windowPage home
/-- End of the HOME window. -/
def homeHi (home : Nat) : Nat := windowPage home + windowPages home

/-- Orders 1 to 7 of Table 7.7. -/
def MemctlBody.check (b : MemctlBody) (m : MemSys) (c : Nat) : Option Status :=
  let pg := b.base / pageSize
  let obj := m.live b.handle
  let place := b.op = 1
  let range := b.op = 5 || b.op = 6
  if (b.op ≠ 8 && b.handle = 0) || (place && ((decide (8 ≤ b.aff) && decide (b.aff ≤ 14)) || decide (b.spill ≥ 2) || b.home = 0)) then
    some .rsvdSet
  else if (place && (b.home = 3 || (b.spill = 1 && b.home = 2) || b.base % pageSize != 0 || decide (pg < homeLo b.home)
        || decide (pg ≥ homeHi b.home) || decide (pg + b.pages > homeHi b.home)))
      || (range && b.base % pageSize != 0)
      || (range && (match obj with | some o => decide (pg < o.base) || decide (pg + b.pages > o.base + o.pages) | none => false))
      || (b.op = 7 && b.addr % 32 != 0)
      || (b.op = 8 && (b.addr % pageSize != 0 || localRange b.addr ≠ .t3 || decide (b.addr + b.pages * pageSize > 0x500000000000)
          || (b.pages != 0 && (m.pool.any (fun r => overlaps (t3Addr b.addr / pageSize) b.pages r.1 r.2) || decide (m.pool.length ≥ 16))))) then
    some .range
  else if b.pages = 0 && (place || range || b.op = 8) then none
  else if place then
    if (SMap.get? m.objs b.handle).isSome || decide (m.objs.length ≥ 65536) then some .busy
    else if (m.objs.any fun o => o.2.ctx = c && overlaps pg b.pages o.2.base o.2.pages)
        || decide (m.committed + b.pages > m.frames 1 + m.frames 2 + m.frames 3) || (b.pin && !m.pinFits b.home b.pages) then some .range
    else none
  else if b.op = 8 then none
  else
    match obj with
    | none => some .range
    | some o => if o.ctx ≠ c then some .denied else if b.op = 3 && !(o.pin || o.pinning) && !m.pinFits o.home o.pages then some .range else none

/-- Number, within its object, of the first page that a MEMCTL names. -/
def MemctlBody.first (b : MemctlBody) (m : MemSys) : Nat :=
  match SMap.get? m.objs b.handle with | some o => b.base / pageSize - o.base | none => 0

/-- Keys of the pages that a MEMCTL names. -/
def MemctlBody.keys (b : MemctlBody) (m : MemSys) : List Nat :=
  (List.range b.pages).map fun i => pageKey b.handle (b.first m + i)

end Sys2Proof

namespace Sys2Proof.Machine

/-- Change an object. -/
def State.modObj (s : State) (h : Nat) (f : Obj → Obj) : State :=
  { s with mem := { s.mem with objs := SMap.adj s.mem.objs h f } }

/-- Bring pages of an object into its home tier, waiting without the FILL_MS timeout; answers the waits (R206, R212,
R213). -/
def State.bringIn (s : State) (cls : TCls) (keys : List Nat) : State × List Nat :=
  keys.foldl (fun (a : State × List Nat) k =>
    let s := a.1
    if s.mem.resident k && !(s.mem.demands.any fun d => d.key = k && d.kind = .evict) then
      ({ s with mem := s.mem.setPage k { s.mem.page k with age := 0 } }, a.2)
    else let (s, w) := s.pageWait cls k false; (s, a.2 ++ [w])) (s, [])

/-- DEMOTE of one page: true when it moves (R217, Table 7.9). -/
def State.demotable (s : State) (k : Nat) : Bool :=
  match s.mem.objOf k with
  | some o =>
    s.mem.resident k && (s.mem.candidates s.downDies s.busy o.home).any fun e => e.1 = k
  | none => false

/-- Move pages down where they can leave their tier; answers those that move (R217). -/
def State.demotePages (s : State) (cls : TCls) (keys : List Nat) : State × List Nat :=
  keys.foldl (fun (a : State × List Nat) k =>
    if a.1.demotable k then (a.1.memStep fun m d z => m.demand d z cls .evict k, a.2 ++ [k]) else a) (s, [])

/-- Start a MEMCTL that has passed its checks (Table 7.6). -/
def State.startMemctl (s : State) (src : DescSrc) (h : DescHdr) (bs : List Byte) : State :=
  let b := MemctlBody.ofBytes bs
  let cls := s.srcCls h.ctx src
  let run := fun (s : State) (st : DescSt) (waits keys : List Nat) (bytes : List Byte) (n : Nat) =>
    (s.addDesc src h (.memctl ⟨b.op, b.handle, b.addr, waits, keys, bytes, n⟩) st .ok n).1
  if b.pages = 0 && (b.op = 1 || b.op = 5 || b.op = 6 || b.op = 8) then s.addDone src h .ok 0
  else
    match b.op with
    | 1 =>
      let o : Obj := ⟨h.ctx, b.home, b.aff, b.spill = 1, false, b.pin, false, b.base / pageSize, b.pages⟩
      let s := { s with mem := { s.mem with objs := SMap.set s.mem.objs b.handle o } }
      if b.pin then
        let (s, ws) := s.bringIn cls ((List.range b.pages).map (pageKey b.handle))
        run s .running ws [] [] 0
      else s.addDone src h .ok b.pages
    | 2 => run (s.modObj b.handle fun o => { o with releasing := true, pin := false }) .running [] [] [] 0
    | 3 =>
      let n := match SMap.get? s.mem.objs b.handle with | some o => o.pages | none => 0
      let s := s.modObj b.handle fun o => { o with pinning := true }
      let (s, ws) := s.bringIn cls ((List.range n).map (pageKey b.handle))
      run s .running ws [] [] 0
    | 4 => ((s.modObj b.handle fun o => { o with pin := false }).memStep fun m d z => m.serve d z).addDone src h .ok 0
    | 5 =>
      let (s, ws) := s.bringIn cls (b.keys s.mem)
      run s .running ws [] [] 0
    | 6 =>
      let (s, ks) := s.demotePages cls (b.keys s.mem)
      run s .running [] ks [] ks.length
    | 7 =>
      let bytes := match SMap.get? s.mem.objs b.handle with | some o => s.mem.record b.handle o | none => []
      run s .running [] [] bytes 0
    | _ =>
      let s := ({ s with mem := { s.mem with pool := s.mem.pool ++ [(t3Addr b.addr / pageSize, b.pages)] } }).memStep fun m d z => m.serve d z
      s.addDone src h .ok s.mem.poolPages

/-- Finish a MEMCTL with its status and DETAIL. -/
def State.endMemctl (s : State) (id : Nat) (st : Status) (n : Nat) : State :=
  s.modDesc id fun d => { d with st := .finished, status := d.status.worse st, detail := BitVec.ofNat 32 n }

/-- Every wait of a list is over. -/
def State.waitsOver (s : State) (ws : List Nat) : Bool := ws.all fun w => s.waitOver (some w)

/-- Nothing of an object is in flight: no movement, no access, no wait (R210). -/
def State.objQuiet (s : State) (h : Nat) : Bool :=
  s.mem.pages.all (fun kp => keyHandle kp.1 != h || (kp.2.move.isNone && !s.busy kp.1))
    && !(s.mem.waits.any fun w => keyHandle w.2.key = h)

/-- A MEMCTL in progress whose condition of Table 7.6 holds ends. DETAIL of PREFETCH, "Pages filled", counts every named
page that it brought in or waited for, zero-filled ones among them: DESIGN CHOICE (log entry 186). -/
def State.settleMemctl (s : State) (id : Nat) : State :=
  match s.desc? id with
  | none => s
  | some d =>
    match d.body with
    | .memctl r =>
      if d.st ≠ .running then s
      else
        (match r.op with
        | 2 =>
          if s.objQuiet r.handle then
            let n := s.mem.heldPages r.handle
            let s := { s with mem := { (s.mem.dropObj r.handle) with demands := s.mem.demands.filter fun x => keyHandle x.key != r.handle } }
            (s.memStep fun m dn z => m.settle dn z).endMemctl id .ok n
          else s
        | 6 =>
          if r.keys.all fun k => (s.mem.page k).move.isNone && !(s.mem.demands.any fun x => x.key = k && x.kind = .evict) then
            s.endMemctl id .ok r.count
          else s
        | 7 =>
          if !s.waitsOver r.waits then s
          else
            let st := r.waits.foldl (fun st w => if st = .ok then s.waitRes (some w) else st) .ok
            let s := r.waits.foldl (fun s w => s.dropWait w) s
            if st ≠ .ok then s.endMemctl id st 0
            else if localRange r.addr = .t3 then
              if s.t3Denied then s.endMemctl id .denied 0 else (s.t3Out (.t3Write (t3Addr r.addr) r.bytes false)).endMemctl id .ok 0
            else
              match s.winWrite ⟨false, false, s.classOf d⟩ d.hdr.ctx r.addr r.bytes [] with
              | (s, .done) => s.endMemctl id .ok 0
              | (s, .wait w) => s.modDesc id fun d => { d with body := .memctl { r with waits := [w] } }
              | (s, .fail st) => s.endMemctl id st 0
        | _ =>
          if !s.waitsOver r.waits then s
          else
            let good := (r.waits.filter fun w => s.waitRes (some w) = .ok).length
            let st := r.waits.foldl (fun st w => if st = .ok then s.waitRes (some w) else st) .ok
            let s := r.waits.foldl (fun s w => s.dropWait w) s
            let s := if r.op = 5 then s
              else s.modObj r.handle fun o => { o with pinning := false, pin := o.pin || st = .ok }
            let n := if r.op = 1 && st = .ok then (match SMap.get? s.mem.objs r.handle with | some o => o.pages | none => 0) else good
            s.endMemctl id st n)
    | _ => s

end Sys2Proof.Machine
end

