-- ==== Sys2Proof/Machine/Rights.lean ====
section
/-! DEFINITION. Host accesses to registers: what the PCIe layer refuses, the rights of Table 13.6, and the order of the
checks of a write (R388, R399, R400, R402, R443, R444, R453). -/
namespace Sys2Proof

/-- Items of Table 13.6 that a BAR0 or BAR2 register falls under. -/
inductive RegItem where
  | hif | hrt | fab
  /-- FAB_RT_STAT, whose one W1C field the Host's r covers (R55, R402) -/
  | fabStat
  | fabCtx | memGlobal | memTier | sch | sec | dev | devCtx | devFlt | tileUnit | brm | tileHealth | bist | queue
  /-- power, temperature, voltage and coolant sensors -/
  | sens
deriving DecidableEq, Repr

/-- States of Table 13.1, by value. -/
def SecSt.code : SecSt → Nat
  | .unowned => 0 | .ownedIdle => 1 | .tenanted => 2 | .handover => 3 | .maintenance => 4

/-- The Host may read the item (Table 13.6). -/
def RegItem.hostRead (i : RegItem) (s : SecSt) : Bool :=
  match i with
  | .fabCtx | .devCtx | .queue => s = .ownedIdle || s = .tenanted
  | .memGlobal | .sch => s = .ownedIdle || s = .tenanted || s = .maintenance
  | .tileUnit => s = .ownedIdle || s = .tenanted || s = .maintenance
  | .bist => s ≠ .handover
  | _ => true

/-- The Host may write the item (Table 13.6). The Host's r of the FAB global registers covers the clearing of STEPPED
(R402). BIST is open to any requester but in HANDOVER. -/
def RegItem.hostWrite (i : RegItem) (s : SecSt) : Bool :=
  match i with
  | .hif | .fabStat => true
  | .hrt | .sens | .dev | .brm | .bist => s ≠ .handover
  | .memGlobal | .sch | .queue => s = .ownedIdle || s = .tenanted
  | .memTier | .devFlt | .tileUnit => s = .ownedIdle || s = .tenanted || s = .maintenance
  | .fab | .fabCtx | .devCtx | .sec | .tileHealth => false

/-- The Owner may read the item in OWNED_IDLE and TENANTED (Table 13.6). -/
def RegItem.ownerRead (i : RegItem) : Bool :=
  match i with
  | .fab | .fabStat | .memTier | .sec | .dev | .devFlt | .brm | .tileHealth | .sens | .bist => true
  | .hif | .hrt | .fabCtx | .memGlobal | .sch | .devCtx | .tileUnit | .queue => false

/-- The Owner may write the item: Table 13.6 gives the Owner no w in any row, but opens BIST to any requester. -/
def RegItem.ownerWrite (i : RegItem) : Bool := i = .bist

/-- What a write to a register comes to: the block after it, and the status recorded when it is refused. -/
abbrev RegRes := Machine.State × Option Status

end Sys2Proof

namespace Sys2Proof.Machine

/-- A BAR request does not reach the block: the link is down, the endpoint has no power, the interface is in ERROR, or it
is in RUN and the request comes outside the stream or with T clear (R399, R400). -/
def State.barShut (s : State) (tee : Bool) : Bool :=
  !s.hif.linkUp || s.pwr.dom ≠ .on || s.sec.tdi = .error || (s.sec.tdi = .run && !tee)

/-- Take a register write's outcome. -/
def State.recordRes (bar off : Nat) (r : RegRes) : State :=
  match r.2 with
  | none => r.1
  | some st => r.1.record bar off true st

/-- A write that the checks of R444 have brought as far as the rights: orders 2 and 3, then `f` for the rest. -/
def State.regWrite (s : State) (bar off : Nat) (item : RegItem) (f : State → RegRes) : State :=
  if !item.hostWrite s.sec.st then s.record bar off true .denied
  else if s.sec.st = .handover && item ≠ .hif then s.record bar off true .busy
  else State.recordRes bar off (f s)

/-- A host write command to one register. -/
def State.hostWrite (s : State) (bar off : Nat) (item : RegItem) (tee : Bool) (f : State → RegRes) : State :=
  if s.barShut tee then s else s.regWrite bar off item f

/-- Offsets of the blocks in BAR0 (Table 15.3). -/
def hifBase : Nat := 0
/-- HRT block. -/
def hrtBase : Nat := 0x100000
/-- FAB block. -/
def fabBase : Nat := 0x200000
/-- MEM block. -/
def memBase : Nat := 0x600000
/-- SCH block. -/
def schBase : Nat := 0xA00000
/-- SEC block. -/
def secBase : Nat := 0xB00000
/-- DEV block. -/
def devBase : Nat := 0xC00000
/-- TILE window. -/
def tileBase : Nat := 0x1000000

/-! What a load in its apply phase touches (Table 11.10) -/

/-- The load in its apply phase. -/
def State.applying (s : State) : Option Staged := if s.load.st = .apply then s.load.staged else none

/-- A load in its apply phase touches a partition. -/
def State.loadPart (s : State) (p : Nat) : Bool :=
  match s.applying with
  | some g => g.full || (g.images.any fun x => x.1 = p) || (g.tiles.any fun x => s.partOf x.1 = some p)
  | none => false

/-- A load in its apply phase touches a context. -/
def State.loadCtx (s : State) (c : Nat) : Bool :=
  match s.applying with
  | some g => g.full || (g.nums.any fun x => x.1 = c) || (g.serv.any fun x => x.1 = c) || g.named.contains c
      || (match s.ctx? c with | some x => s.loadPart x.part | none => false)
  | none => false

/-- A load in its apply phase touches a physical tile. -/
def State.loadTile (s : State) (p : Nat) : Bool :=
  match s.logOf p with
  | some l => (match s.applying with | some g => g.full | none => false) || (match s.partOf l with | some q => s.loadPart q | none => false)
      || (match s.applying with | some g => g.tiles.any fun x => x.1 = l | none => false)
  | none => match s.applying with | some g => g.full | none => false

/-- A load in its apply phase touches the SCH block. -/
def State.loadSch (s : State) : Bool :=
  match s.applying with | some g => g.full || g.hasSched | none => false

end Sys2Proof.Machine
end

