-- ==== Sys2Proof/Machine/QueueCmds.lean ====
section
/-! DEFINITION. Queue commands: doorbell pages, the descriptor rows, Tongs commands of tile programs and CTL.QPOP
(R133 to R136, R139 to R147, R151 to R158, R330). -/
namespace Sys2Proof

/-- A list of bytes with some replaced from an offset. -/
def putBytes (bs : List Byte) (off : Nat) (v : List Byte) : List Byte := bs.take off ++ v ++ bs.drop (off + v.length)

/-- An address with a register added to its address part; none when the sum leaves that part (R133). -/
def addAddr (sp a x : Nat) : Option Nat :=
  if sp = spTile then (if a % 2 ^ 18 + x < 2 ^ 18 then some (a + x) else none)
  else if sp = spLocal || sp = spGlobal then (if a % 2 ^ 48 + x < 2 ^ 48 then some (a + x) else none)
  else some a

/-- Add the registers of TNG.EXEC to the source and destination address fields of a descriptor (R133). -/
def patchDesc (bs : List Byte) (sx dx : Option Nat) : Except Status (List Byte) :=
  let put := fun (bs : List Byte) (off sp : Nat) (x : Option Nat) =>
    match x with
    | none => some bs
    | some x => (addAddr sp (dn bs off 8) x).map fun a => putBytes bs off (leBytes 8 a)
  let both := fun (so do_ ssp dsp : Nat) =>
    match (put bs so ssp sx).bind fun bs => put bs do_ dsp dx with
    | some bs => .ok bs
    | none => .error .range
  let cls := descCls bs
  if cls = 2 then let w := dn bs 0x28 4; both 0x14 0x1C (nbits w 20 4) (nbits w 24 4)
  else if cls = 5 && (collOpOf (descOp bs)).isSome then
    let w := dn bs 0x14 4
    both 0x18 0x20 (nbits w 10 4) (nbits w 14 4)
  else if (cls = 0 || cls = 3 || (cls = 5 && (descOp bs = 9 || descOp bs = 10))) && (sx.isSome || dx.isSome) then .error .range
  else .ok bs

end Sys2Proof

namespace Sys2Proof.Machine

/-! Doorbell pages (R151, R153, R156, R157) -/

/-- A refused write to a queue's page: its status stands in Q_STAT as well. -/
def State.queueRefuse (s : State) (q : Nat) (st : Status) : RegRes := (s.queueErr q st, some st)

/-- A write of Q_TAIL. -/
def State.doorbell (s : State) (q : Nat) (tail : W32) : RegRes :=
  let x := s.queue q
  let old := (x.tail - x.head).toNat
  let new := (tail - x.head).toNat
  if x.bound && s.loadCtx x.ctx then s.queueRefuse q .busy
  else if s.hif.agreed = 0 then s.queueRefuse q .version
  else if !x.bound || !x.enable || x.tileProd then s.queueRefuse q .denied
  else if new = old then (s, none)
  else if old < new && new ≤ 2 ^ x.rsz then (s.modQueue q fun x => { x with tail := tail }, none)
  else s.queueRefuse q .range

/-- A queue is enabled: HEAD, FETCH and DONE take TAIL, its push records go (R153, R263); on a replacement queue the
place in the switch follows (R331). -/
def State.enableQueue (s : State) (q : Nat) : State :=
  let s := s.dropWait? (s.queue q).wait
  let s := s.modQueue q fun x => { x with enable := true, head := x.tail, fetch := x.tail, done := x.tail, fin := [], wait := none }
  let s := { s with fab := { s.fab with
    pushRecs := s.fab.pushRecs.filter fun r => r.queue ≠ q
    serialSave := s.fab.serialSave.filter fun e => e.1 / 2 ^ 47 ≠ q } }
  let x := s.queue q
  match s.ctx? x.ctx with
  | some c => if c.rq = some q && !c.switching then
      s.modCtx x.ctx fun c => { c with rqBase := x.tail - BitVec.ofNat 32 (s.rcntReleased c) } else s
  | none => s

/-- A write of Q_CTL. -/
def State.queueCtl (s : State) (q : Nat) (en irqen : Bool) : RegRes :=
  let x := s.queue q
  if x.bound && s.loadCtx x.ctx then s.queueRefuse q .busy
  else if !x.bound || x.tileProd then s.queueRefuse q .denied
  else if en && !x.ringOk then s.queueRefuse q .range
  else
    let s := s.modQueue q fun x => { x with irqen := irqen }
    if en && !x.enable then (s.enableQueue q, none)
    else (s.modQueue q fun x => { x with enable := en }, none)

/-- Descriptors of a queue started and not completed: ACTIVE. -/
def State.queueActive (s : State) (q : Nat) : Bool := !(s.startedOf q).isEmpty

/-- A write of Q_BASE_LO, Q_BASE_HI or Q_CFG, which would give BASE, RSZ and VEC these values; `rsvd` tells that it sets a
reserved bit. -/
def State.queueShape (s : State) (q : Nat) (rsvd : Bool) (base rsz vec : Nat) : RegRes :=
  let x := s.queue q
  if x.bound && s.loadCtx x.ctx then s.queueRefuse q .busy
  else if (x.enable || s.queueActive q) && (base ≠ x.base || rsz ≠ x.rsz || vec ≠ x.vec) then s.queueRefuse q .busy
  else if rsvd then s.queueRefuse q .rsvdSet
  else if decide (rsz < 4) || decide (rsz > 16) then s.queueRefuse q .range
  else if !x.bound then s.queueRefuse q .denied
  else if x.enable || s.queueActive q then (s, none)
  else (s.modQueue q fun x => { x with base := base, rsz := rsz, vec := vec }, none)

/-- DOORBELL_WRITE (R151, R156, R451). -/
def execDoorbellWrite (q : Nat) (tail : W32) (tee : Bool) (s : State) : Host.Outcome State Fault Refusal :=
  guardWf (queueOk q) s <| s.hostWrite 1 (64 * q) .queue tee fun s => s.doorbell q tail

/-- Q_ENABLE (R153, R156, R157). -/
def execQEnable (q : Nat) (irqen tee : Bool) (s : State) : Host.Outcome State Fault Refusal :=
  guardWf (queueOk q) s <| s.hostWrite 1 (64 * q + 0x20) .queue tee fun s => s.queueCtl q true irqen

/-- Q_DISABLE (R156, R157). -/
def execQDisable (q : Nat) (irqen tee : Bool) (s : State) : Host.Outcome State Fault Refusal :=
  guardWf (queueOk q) s <| s.hostWrite 1 (64 * q + 0x20) .queue tee fun s => s.queueCtl q false irqen

/-! Dispatch queues -/

/-- The queue is its context's replacement queue. -/
def State.isRq (s : State) (q : Nat) : Bool := s.ctxIs (s.queue q).ctx fun x => x.rq = some q

/-- Classes that a dispatch queue accepts (Table 5.11, R330). -/
def State.accepts (s : State) (q cls _op : Nat) : Bool :=
  if s.isRq q then cls = 0 || cls = 2 || cls = 3
  else cls = 0 || cls = 1 || cls = 2 || cls = 3 || cls = 5 || cls = 6

/-- The entry at FETCH is not held back by a layer still to be released (R331). -/
def State.rqMay (s : State) (q : Nat) : Bool :=
  match s.ctx? (s.queue q).ctx with
  | some x =>
    if x.rq = some q then
      match x.rqPlace (s.queue q).fetch with
      | some n => decide (n < s.rcntReleased x)
      | none => true
    else true
  | none => true

/-- A dispatch queue with something to fetch wakes its die (R460, R461). -/
def State.wakeForQueue (s : State) (q : Nat) : State :=
  let x := s.queue q
  if x.bound && !x.tileKind && x.enable && x.fetch ≠ x.tail && s.ctxFetches x.ctx then s.wakeDie x.die else s

/-- A descriptor row of a class and operation. -/
def State.qRow (s : State) (q : Nat) (host : Fetched) (mine : List Byte → Bool) (class5 : State → List Byte → Option Status)
    (start : State → DescSrc → DescHdr → List Byte → State) : State :=
  let s := s.wakeForQueue q
  if s.rqMay q then s.descRow q host mine (fun s => s.accepts q) class5 start else s

/-- The entry has this class and operation. -/
def isDesc (cls op : Nat) (bs : List Byte) : Bool := descCls bs = cls && descOp bs = op

/-- No check of the class. -/
def noClass5 (_ : State) (_ : List Byte) : Option Status := none

/-- Start a MOVE of a dispatch queue on an engine of its die. -/
def State.startQueueMove (s : State) (q : Nat) (src : DescSrc) (h : DescHdr) (bs : List Byte) : State :=
  let b := MoveBody.ofBytes h.op (bs.drop 0x14)
  let die := (s.queue q).die
  s.startMove src h b die (s.pickEngine die b.ssp b.src b.dsp b.dst)

/-- Start a COLL of a dispatch queue on an engine of its die. -/
def State.startQueueColl (s : State) (q : Nat) (src : DescSrc) (h : DescHdr) (bs : List Byte) : State :=
  let die := (s.queue q).die
  s.startColl src h bs die fun b => s.pickEngine die b.ssp b.src b.dsp b.dst

/-- Checks of MEMCTL (Table 7.7). -/
def memctlClass5 (s : State) (bs : List Byte) : Option Status := (MemctlBody.ofBytes bs).check s.mem (DescHdr.ofBytes bs).ctx

/-- Checks of COLL (Table 8.11). -/
def collClass5 (s : State) (bs : List Byte) : Option Status := s.checkColl bs

/-- A MOVE row. -/
def State.moveRow (s : State) (q : Nat) (host : Fetched) (op : Nat) : State :=
  s.qRow q host (isDesc 2 op) noClass5 fun s src h bs => s.startQueueMove q src h bs
/-- A SYNC row. -/
def State.syncRow (s : State) (q : Nat) (host : Fetched) (op : Nat) : State :=
  s.qRow q host (isDesc 3 op) noClass5 fun s src h bs => s.startSync src h bs
/-- A MEMCTL row. -/
def State.memctlRow (s : State) (q : Nat) (host : Fetched) (op : Nat) : State :=
  s.qRow q host (isDesc 6 op) memctlClass5 fun s src h bs => s.startMemctl src h bs
/-- A COLL row. -/
def State.collRow (s : State) (q : Nat) (host : Fetched) (op : Nat) : State :=
  s.qRow q host (isDesc 5 op) collClass5 fun s src h bs => s.startQueueColl q src h bs

/-- DESC_NOP (Table 5.6). -/
def execDescNop (q : Nat) (host : Fetched) (s : State) : Host.Outcome State Fault Refusal :=
  guardWf (queueOk q && entryBytesOk host) s <| s.qRow q host (isDesc 0 0) noClass5 fun s src h _ => s.addDone src h .ok 0

/-- DESC_LAUNCH (R142). -/
def execDescLaunch (q : Nat) (host : Fetched) (s : State) : Host.Outcome State Fault Refusal :=
  guardWf (queueOk q && entryBytesOk host) s <|
    s.qRow q host (isDesc 1 1) noClass5 fun s src h bs => (s.startLaunch src h bs none).1

/-- MOVE_COPY (R144, R145). -/
def execMoveCopy (q : Nat) (host : Fetched) (s : State) : Host.Outcome State Fault Refusal :=
  guardWf (queueOk q && entryBytesOk host) s <| s.moveRow q host 1
/-- MOVE_FILL (R145). -/
def execMoveFill (q : Nat) (host : Fetched) (s : State) : Host.Outcome State Fault Refusal :=
  guardWf (queueOk q && entryBytesOk host) s <| s.moveRow q host 2
/-- MOVE_SKEW16 (R146). -/
def execMoveSkew16 (q : Nat) (host : Fetched) (s : State) : Host.Outcome State Fault Refusal :=
  guardWf (queueOk q && entryBytesOk host) s <| s.moveRow q host 3
/-- MOVE_ACCSTORE (R228). -/
def execMoveAccstore (q : Nat) (host : Fetched) (s : State) : Host.Outcome State Fault Refusal :=
  guardWf (queueOk q && entryBytesOk host) s <| s.moveRow q host 4

/-- SYNC_SIGNAL (R147). -/
def execSyncSignal (q : Nat) (host : Fetched) (s : State) : Host.Outcome State Fault Refusal :=
  guardWf (queueOk q && entryBytesOk host) s <| s.syncRow q host 1
/-- SYNC_AT_TIME (R147). -/
def execSyncAtTime (q : Nat) (host : Fetched) (s : State) : Host.Outcome State Fault Refusal :=
  guardWf (queueOk q && entryBytesOk host) s <| s.syncRow q host 2
/-- SYNC_STEPSET (R132, R147). -/
def execSyncStepset (q : Nat) (host : Fetched) (s : State) : Host.Outcome State Fault Refusal :=
  guardWf (queueOk q && entryBytesOk host) s <| s.syncRow q host 3

/-- MEMCTL_PLACE (R206). -/
def execMemctlPlace (q : Nat) (host : Fetched) (s : State) : Host.Outcome State Fault Refusal :=
  guardWf (queueOk q && entryBytesOk host) s <| s.memctlRow q host 1
/-- MEMCTL_RELEASE (R206, R210). -/
def execMemctlRelease (q : Nat) (host : Fetched) (s : State) : Host.Outcome State Fault Refusal :=
  guardWf (queueOk q && entryBytesOk host) s <| s.memctlRow q host 2
/-- MEMCTL_PIN (R206, R209). -/
def execMemctlPin (q : Nat) (host : Fetched) (s : State) : Host.Outcome State Fault Refusal :=
  guardWf (queueOk q && entryBytesOk host) s <| s.memctlRow q host 3
/-- MEMCTL_UNPIN (R206). -/
def execMemctlUnpin (q : Nat) (host : Fetched) (s : State) : Host.Outcome State Fault Refusal :=
  guardWf (queueOk q && entryBytesOk host) s <| s.memctlRow q host 4
/-- MEMCTL_PREFETCH (R206). -/
def execMemctlPrefetch (q : Nat) (host : Fetched) (s : State) : Host.Outcome State Fault Refusal :=
  guardWf (queueOk q && entryBytesOk host) s <| s.memctlRow q host 5
/-- MEMCTL_DEMOTE (R206). -/
def execMemctlDemote (q : Nat) (host : Fetched) (s : State) : Host.Outcome State Fault Refusal :=
  guardWf (queueOk q && entryBytesOk host) s <| s.memctlRow q host 6
/-- MEMCTL_QUERY (R206). -/
def execMemctlQuery (q : Nat) (host : Fetched) (s : State) : Host.Outcome State Fault Refusal :=
  guardWf (queueOk q && entryBytesOk host) s <| s.memctlRow q host 7
/-- MEMCTL_BACKING (R211). -/
def execMemctlBacking (q : Nat) (host : Fetched) (s : State) : Host.Outcome State Fault Refusal :=
  guardWf (queueOk q && entryBytesOk host) s <| s.memctlRow q host 8

/-- COLL_REDUCE (R277 to R288). -/
def execCollReduce (q : Nat) (host : Fetched) (s : State) : Host.Outcome State Fault Refusal :=
  guardWf (queueOk q && entryBytesOk host) s <| s.collRow q host 1
/-- COLL_ALLREDUCE. -/
def execCollAllreduce (q : Nat) (host : Fetched) (s : State) : Host.Outcome State Fault Refusal :=
  guardWf (queueOk q && entryBytesOk host) s <| s.collRow q host 2
/-- COLL_REDUCESCATTER. -/
def execCollReducescatter (q : Nat) (host : Fetched) (s : State) : Host.Outcome State Fault Refusal :=
  guardWf (queueOk q && entryBytesOk host) s <| s.collRow q host 3
/-- COLL_ALLGATHER. -/
def execCollAllgather (q : Nat) (host : Fetched) (s : State) : Host.Outcome State Fault Refusal :=
  guardWf (queueOk q && entryBytesOk host) s <| s.collRow q host 4
/-- COLL_BARRIER (R289). -/
def execCollBarrier (q : Nat) (host : Fetched) (s : State) : Host.Outcome State Fault Refusal :=
  guardWf (queueOk q && entryBytesOk host) s <| s.collRow q host 5
/-- COLL_VOTE (R178, R290). -/
def execCollVote (q : Nat) (host : Fetched) (s : State) : Host.Outcome State Fault Refusal :=
  guardWf (queueOk q && entryBytesOk host) s <| s.collRow q host 6
/-- COLL_PERMUTE (R293). -/
def execCollPermute (q : Nat) (host : Fetched) (s : State) : Host.Outcome State Fault Refusal :=
  guardWf (queueOk q && entryBytesOk host) s <| s.collRow q host 7
/-- COLL_XFER. -/
def execCollXfer (q : Nat) (host : Fetched) (s : State) : Host.Outcome State Fault Refusal :=
  guardWf (queueOk q && entryBytesOk host) s <| s.collRow q host 8
/-- COLL_FENCE (R267). -/
def execCollFence (q : Nat) (host : Fetched) (s : State) : Host.Outcome State Fault Refusal :=
  guardWf (queueOk q && entryBytesOk host) s <| s.collRow q host 9
/-- COLL_EPOCHSET (R266). -/
def execCollEpochset (q : Nat) (host : Fetched) (s : State) : Host.Outcome State Fault Refusal :=
  guardWf (queueOk q && entryBytesOk host) s <| s.collRow q host 10

/-- RESERVED_DESCRIPTOR_CLASS (R10, R140, R141): a class or operation that the tables do not list, or a DATA entry in a
dispatch queue. -/
def execReservedDescriptorClass (q : Nat) (host : Fetched) (s : State) : Host.Outcome State Fault Refusal :=
  guardWf (queueOk q && entryBytesOk host) s <|
    s.qRow q host (fun bs => !knownOp (descCls bs) (descOp bs) || descCls bs = 4) noClass5 fun s _ _ _ => s

/-! AT_TIME and the Tongs engines -/

/-- A comparison with reference time before `t` has not fired yet: that of an AT_TIME, or a collective's DEADLINE. They fire in
the order of the times they wait for, also where a step carries the counter past several (R54). -/
def State.earlier (s : State) (t : Nat) : Bool :=
  (s.descs.any fun e => e.2.st = .running && (match e.2.body with | .atTime u => decide (u < t) | _ => false))
    || s.fab.insts.any fun i => i.phase = .run && !i.late && i.body.any fun b => decide (b.deadline < t)

/-- AT_TIME_EXPIRE (R54, R147). -/
def execAtTimeExpire (id : Nat) (s : State) : Host.Outcome State Fault Refusal :=
  .next <|
    match s.desc? id with
    | some d =>
      (match d.body with
       | .atTime t => if d.st = .running && decide (s.now ≥ t) && !s.earlier t then s.modDesc id fun d => { d with st := .finished } else s
       | _ => s)
    | none => s

/-- The descriptor has an operation to issue now. -/
def State.opWants (s : State) (id : Nat) (d : Desc) : Bool :=
  d.st = .running && (match d.body with | .move _ _ => s.moveWants d | .coll _ _ => s.collWants id d | _ => false)

/-- Grants of an engine. -/
def State.engine (s : State) (e : Nat × Nat) : Engine := SMap.getD s.engines (e.1 * 64 + e.2) ⟨[], []⟩

/-- The descriptors that wait for a grant of an engine: of the first 16 that it runs, those with an operation to issue,
while fewer than 256 operations are in flight (R158); BACKFILL work waits on a die where it pauses (R50). -/
def State.engineWaits (s : State) (e : Nat × Nat) : List (Nat × Desc) :=
  if s.downDies.contains e.1 || decide (s.engineOps e.1 e.2 ≥ 256) then []
  else s.descs.filter fun x => decide (x.2.engine? = some e) && s.engineRuns x.1 e.1 e.2 && s.opWants x.1 x.2
    && !(s.classOf x.2 = .backfill && s.hrt.bfPause.contains e.1)

/-- The descriptor that an engine grants next: the class that R30 takes, and round-robin within it (R158). -/
def State.engineGrant (s : State) (e : Nat × Nat) : Option (Nat × TCls) :=
  let l := s.engineWaits e
  let of_ := fun (c : Nat) => l.filter fun x => (s.classOf x.2).num = c
  (grantOf (s.engine e).passed ((List.range 3).filter fun c => !(of_ c).isEmpty)).bind fun c =>
    let last := SMap.getD (s.engine e).last c 0
    (((of_ c).find? fun x => decide (x.1 > last)).orElse fun _ => (of_ c).head?).map fun x => (x.1, s.classOf x.2)

/-- An engine has granted a descriptor. -/
def State.engineGranted (s : State) (e : Nat × Nat) (id : Nat) (c : TCls) : State :=
  let x := s.engine e
  let waits := (List.range 3).filter fun c => (s.engineWaits e).any fun y => (s.classOf y.2).num = c
  { s with engines := SMap.set s.engines (e.1 * 64 + e.2) ⟨passOver x.passed waits c.num, SMap.set x.last c.num id⟩ }

/-- TONGS_OPERATION_ISSUE (R158, R30): the next operation of a MOVE or of a collective, when its engine grants it. -/
def execTongsOperationIssue (id : Nat) (s : State) : Host.Outcome State Fault Refusal :=
  .next <|
    match (s.desc? id).bind Desc.engine? with
    | none => s
    | some e =>
      match s.engineGrant e with
      | none => s
      | some (g, c) =>
        if g ≠ id then s
        else
          let s := s.engineGranted e id c
          if s.isColl id then s.collIssue id else s.moveIssue id

/-- TONGS_OPERATION_DONE (R158, R220 to R223). -/
def execTongsOperationDone (id k : Nat) (res : OpRes) (s : State) : Host.Outcome State Fault Refusal :=
  .next <| if s.isColl id then s.collDone id res else s.tongsDone id k res

/-! Tile programs -/

/-- TNG.EXEC accepts this class and operation (R133). -/
def execAccepts (cls op : Nat) : Bool := cls = 0 || cls = 2 || (cls = 3 && op ≠ 3) || cls = 5

/-- Start a descriptor of TNG.EXEC that has passed its checks. -/
def State.startExec (s : State) (tile pc eng : Nat) (bs : List Byte) : State :=
  let h := DescHdr.ofBytes bs
  let src := DescSrc.exec tile pc
  if h.cls = 2 then s.startMove src h (MoveBody.ofBytes h.op (bs.drop 0x14)) (logDie tile) eng
  else if h.cls = 3 then s.startSync src h bs
  else if h.cls = 5 then s.startColl src h bs (logDie tile) fun _ => eng
  else s.addDone src h .ok 0

/-- TNG_EXEC (R133, R136). -/
def execTngExec (tile : Nat) (hw : List StoreErr) (s : State) : Host.Outcome State Fault Refusal :=
  guardWf (tileOk tile) s <| s.issue tile (fun o => o = 0x30) fun s t w len =>
    match execCheck w with
    | .error e => s.faultTile tile e t.pc
    | .ok (d, sx, dx) =>
      if s.execCount tile ≥ 8 then s.onTile tile fun t => (t.waitFor .unit, [])
      else
        match s.spdRead tile d 64 hw with
        | (s, .got raw bad) =>
          if !bad.isEmpty then s.faultTile tile .parity t.pc
          else
            let reg := fun (r : Option Nat) => r.map fun r => (t.xr r).toNat
            (match patchDesc raw (reg sx) (reg dx) with
             | .error e => s.faultTile tile e t.pc
             | .ok bs =>
               match (s.checkDesc execAccepts (t.ctx.getD 0) bs).orElse fun _ => if descCls bs = 5 then s.checkColl bs else none with
               | some e => s.faultTile tile e t.pc
               | none => (s.onTile tile fun t => (t.advance len, [])).startExec tile t.pc (s.engineOf tile) bs)
        | (s, .fail e) => s.faultTile tile e t.pc
        | (s, .wait _) => s

/-- The 64 bytes of the DATA descriptor of a push (R134). -/
def pushBytes (c : Nat) (xs : List W32) : List Byte :=
  leBytes 4 (0x100 + 4 * 16 + 1) ++ leBytes 4 c ++ leBytes 4 0 ++ leBytes 8 0 ++ xs.flatMap (fun x => leBytes 4 x.toNat) ++ leBytes 12 0

/-- Write an entry at TAIL and advance it: answers whether it is done, waits, or failed (R134). -/
def State.appendEntry (s : State) (cls : TCls) (q : Nat) (bs : List Byte) : State × WrRes :=
  let x := s.queue q
  let a := x.entryAddr x.tail
  let done := fun (s : State) => (s.modQueue q fun x => { x with tail := x.tail + 1 }, WrRes.done)
  if localRange a = .t3 then
    (if s.t3Denied then (s, .fail .denied) else done (s.t3Out (.t3Write (t3Addr a) bs false)))
  else if !s.waitOver x.pushWait then (s, .wait (x.pushWait.getD 0))
  else
    let st := s.waitRes x.pushWait
    let s := (s.dropWait? x.pushWait).modQueue q fun x => { x with pushWait := none }
    if st ≠ .ok then (s, .fail st)
    else
      match s.winWrite ⟨false, true, cls⟩ x.ctx a bs [] with
      | (s, .done) => done s
      | (s, .wait w) => (s.modQueue q fun x => { x with pushWait := some w }, .wait w)
      | (s, .fail st) => (s, .fail st)

/-- What a push to a queue of this module by a context is refused with (R134). -/
def State.pushRefused (s : State) (q c : Nat) : Option Status :=
  let x := s.queue q
  if !x.bound then some .denied
  else if !x.tileKind then some .range
  else if !x.enable || x.ctx ≠ c || !x.tileProd then some .denied
  else none

/-- The words 8 and 9 of a remote push, with the counts after it; none past the last ordinal of the step (R249, R262,
R263). -/
def State.pushWords (s : State) (c tile : Nat) : Option (W32 × W32 × Fab) :=
  let k := c * 2 ^ 15 + tile
  if s.stepless c then
    let n := SMap.getD s.fab.pushSerial k 0
    some (BitVec.ofNat 32 (n / 2 ^ 16), BitVec.ofNat 32 (n % 2 ^ 16 * 2 ^ 16 + tile),
      { s.fab with pushSerial := SMap.setD s.fab.pushSerial k ((n + 1) % 2 ^ 48) 0 })
  else
    let step := match s.ctx? c with | some x => x.step | none => 0
    let n := match SMap.get? s.fab.pushOrd k with | some (t, n) => if t = step then n else 0 | none => 0
    if n ≥ 65536 then none
    else some (step, BitVec.ofNat 32 (n * 2 ^ 16 + tile), { s.fab with pushOrd := SMap.set s.fab.pushOrd k (step, n + 1) })

/-- Since when a tile's remote push waits for its port's transaction limit. -/
def State.pushSince (s : State) (l : Nat) : Option Nat :=
  if (s.tile l).wait = some .port then (s.phys l).bind fun p => SMap.get? s.flt.waitAt p else none

/-- TNG_PUSH (R134, R136, R259, R262, R263). -/
def execTngPush (tile : Nat) (s : State) : Host.Outcome State Fault Refusal :=
  guardWf (tileOk tile) s <| s.issue tile (fun o => o = 0x31) fun s t w len =>
    match pushCheck w with
    | .error e => s.faultTile tile e t.pc
    | .ok (q, dev) =>
      let c := t.ctx.getD 0
      let xs := (List.range 8).map t.xr
      let hold := fun (s : State) (k : TileWait) => s.onTile tile fun t => (t.waitFor k, [])
      if s.execCount tile ≥ 8 then hold s .unit
      else
        match dev.filter fun d => d ≠ s.selfDev with
        | none =>
          (match s.pushRefused q c with
           | some e => s.faultTile tile e t.pc
           | none =>
             if (s.queue q).full then hold s (.qFull q)
             else
               match s.appendEntry (s.tileCls tile) q (pushBytes c xs) with
               | (s, .done) => (s.supplied (c, .queue q) tile).onTile tile fun t => (t.advance len, [])
               | (s, .wait _) => hold s .unit
               | (s, .fail e) => s.faultTile tile e t.pc)
        | some d =>
          if s.fab.isFenced c d then s.faultTile tile .fenced t.pc
          else
            match s.pushWords c tile with
            | none => s.faultTile tile .range t.pc
            | some (w8, w9, f) =>
              match s.request (s.tileCls tile) (.push tile t.pc) d c 3 q 0 (xs ++ [w8, w9]) ((s.pushSince tile).getD s.now) with
              | (s, some _) =>
                let s := { s with fab := { s.fab with pushOrd := f.pushOrd, pushSerial := f.pushSerial } }
                s.onTile tile fun t => (t.advance len, [])
              | (s, none) => hold s .port

/-- CTL_QPOP (R135): an entry that fails its checks completes under R141 and the next one is taken instead. -/
def execCtlQpop (tile : Nat) (host : Fetched) (s : State) : Host.Outcome State Fault Refusal :=
  guardWf (tileOk tile && entryBytesOk host) s <| s.issue tile (fun o => o = 0x0C) fun s t w len =>
    match qpopCheck w with
    | .error e => s.faultTile tile e t.pc
    | .ok q =>
      let x := s.queue q
      let hold := fun (s : State) (k : TileWait) => s.onTile tile fun t => (t.waitFor k, [])
      if !x.bound || !x.tileKind || x.tile ≠ tile || t.ctx ≠ some x.ctx then s.faultTile tile .denied t.pc
      else if !x.enable || x.fetch = x.tail then hold s (.qEmpty q)
      else
        match s.readEntry q host with
        | (s, .waiting) => hold s .unit
        | (s, .failed st) => hold (s.rejectEntry q st) .unit
        | (s, .got bs) =>
          match (if x.tileProd then none else s.checkDesc (fun cls _ => cls = 4) x.ctx bs) with
          | some st => hold (s.rejectEntry q st) .unit
          | none =>
            if s.ordWaits q bs then hold s .unit
            else
            let s := s.modQueue q fun x => { x with fetch := x.fetch + 1 }
            let s := s.addDone (.queue q x.fetch) (DescHdr.ofBytes bs) .ok 0
            s.onTile tile fun t =>
              (((List.range 8).foldl (fun t i => t.xw i (BitVec.ofNat 32 (dn bs (0x14 + 4 * i) 4))) t).advance len, [])

end Sys2Proof.Machine
end

