-- ==== Sys2Proof/Machine/SchedOps.lean ====
section
/-! DEFINITION. The schedule block on partitions: the table in effect, pre-emption and replay, slot openings, admission of
batch steps and the hand-over to backfill (R154, R313 to R323, R332, R334, R335, R337). -/
namespace Sys2Proof

/-- A tile of a context that is pre-empted: its units discard the work and its program's state goes as at a context
switch (R81, R105, R115, R334); a FAULTED tile stays so (R366). -/
def Tile.stopWork (t : Tile) : Tile := t.keepFault t.clearCtx

end Sys2Proof

namespace Sys2Proof.Machine

/-- Change the tiles that satisfy `f`; the waits that end so are known to the detector. -/
def State.dropWork (s : State) (f : Nat → Tile → Bool) (g : Tile → Tile) : State :=
  let hit := s.tiles.filter fun e => f e.1 e.2 && e.2.wait.isSome
  let s := { s with flt := { s.flt with
    waitAt := s.flt.waitAt.filter fun e => !(hit.any fun h => h.1 = e.1)
    ended := s.flt.ended ++ hit.filterMap fun (h : Nat × Tile) => (s.logOf h.1).map Vtx.tile } }
  s.mapTiles f g

/-- The next opening on a partition, with its GUARD in µs, as the bank in effect and a pending commit give it (R322). -/
def State.nextOpening (s : State) (p : Nat) : Option (Nat × Nat) :=
  let cyc := bankCycle s.bankNow
  let here := s.slotsNow.filter fun e => e.2.part = p
  let limit := fun (t : Nat) => match s.sch.pend with | some e => decide (t < e) | none => true
  let a := (here.filter fun e => !s.sch.opened.contains e.1 && limit (s.sch.cycT + e.2.off)).map fun e => (s.sch.cycT + e.2.off, e.2.guardUs)
  let b := (here.filter fun e => limit (s.sch.cycT + cyc + e.2.off)).map fun e => (s.sch.cycT + cyc + e.2.off, e.2.guardUs)
  let c := match s.sch.pend with
    | some t => ((bankSlots s.bankShadow).filter fun e => e.2.part = p).map fun e => (t + e.2.off, e.2.guardUs)
    | none => []
  (a ++ b ++ c).foldl (fun (m : Option (Nat × Nat)) x => match m with | some y => if x.1 < y.1 then some x else some y | none => some x) none

/-- No BACKFILL LAUNCH starts on the partition now (R322). -/
def State.guarded (s : State) (p : Nat) : Bool :=
  match s.nextOpening p with | some (t, g) => decide (s.now + g * 1000 > t) | none => false

/-! Pre-emption and replay -/

/-- Abandon everything a context has in progress, without completion actions (R154, R159, R291, R334). -/
def State.abandonCtx (s : State) (c : Nat) : State :=
  let s := s.closeColls c .abandoned
  let s := ((s.ctxDescs c).foldl (fun (s : State) e => s.forget e.1) s).dropSigs c
  let s := { s with
    fab := { s.fab with txns := s.fab.txns.filter fun e => e.2.ctx ≠ c }
    stages := s.stages.mapV fun _ g => if g.ctx = c then { g with run := none } else g }
  (s.queues.filter fun e => e.2.ctx = c && e.2.bound).foldl (fun (s : State) e =>
    ((s.dropWait? e.2.wait).dropWait? e.2.pushWait).modQueue e.1 fun x => { x with wait := none, pushWait := none }) s

/-- A launch group lies on a partition. -/
def State.lgrpOn (s : State) (p g : Nat) : Bool := s.load.lrects.any fun r => r.id = g && s.partOf (mkLog r.die r.row0 r.col0) = some p

/-- Contexts other than `c` with a BACKFILL LAUNCH running on a partition: one of a BACKFILL queue, or one of the backfill
context that holds the partition (R321 step 2). -/
def State.backfilling (s : State) (p c : Nat) : List Nat :=
  let holder := match (s.schPart p).holder with | .backfill j => some (bankEntry s.bankNow j).bfctx | _ => none
  ((s.descs.filter fun e => e.2.st = .running && e.2.hdr.ctx ≠ c && (s.isBackfill e.2 || holder = some e.2.hdr.ctx)
    && (match e.2.body with | .launch _ g _ _ _ => s.lgrpOn p g | _ => false)).map fun e => e.2.hdr.ctx).eraseDups

/-- Pre-emption begins (R334): PREEMPTING, and steps 1 to 5. -/
def State.preemptStart (s : State) (c : Nat) (who : Preempter) : State :=
  if !(s.ctxIs c fun x => x.preempted.isNone && x.preempting.isNone) then s
  else
    let s := s.modCtx c fun x => { x with preempting := some who }
    let s := s.dropWork (fun _ t => t.ctx = some c) Tile.stopWork
    (s.abandonCtx c).dropStep c

/-! Openings -/

/-- A die of a partition is not running. -/
def State.partAwake (s : State) (p : Nat) : Bool :=
  (s.load.prects.filter fun r => r.id = p).all fun r => (s.die r.die).park = .run && !s.downDies.contains r.die

/-- The partition's state lets SCH open on it (R374, R375, Table 10.8). -/
def State.partOpen (s : State) (p : Nat) : Bool :=
  s.computeOn && s.partAwake p && (match SMap.get? s.flt.parts p with | some x => x.st = .run | none => true)

/-- A batch step of another serving context holds the partition (R321). -/
def State.heldByOther (s : State) (p c : Nat) : Bool :=
  s.ctxs.any fun e => e.1 ≠ c && e.2.part = p && e.2.bstep

/-- A ring in T1 or T2 holds an entry not yet fetched that is a LAUNCH for a group of the partition; its pages' bytes count
wherever the pages lie. -/
def State.ringLaunch (s : State) (p : Nat) (q : Queue) : Bool :=
  (List.range (q.tail - q.fetch).toNat).any fun i =>
    let a := q.entryAddr (q.fetch + BitVec.ofNat 32 i)
    match s.mem.find false q.ctx a with
    | some k =>
      let bs := (s.mem.page k).read (a % pageSize) 64
      descVer bs = 1 && descCls bs = 1 && s.lgrpCtx (dn bs 0x18 2) = some q.ctx && s.lgrpOn p (dn bs 0x18 2)
    | none => false

/-- One of the context's dispatch queues holds a LAUNCH not yet started (R321 step 5). What a ring in host memory holds is
outside the block: with entries in one that nobody has fetched, the answer is a free value. -/
def State.launchWaits (s : State) (p c : Nat) : State × Bool :=
  let qs := (s.queues.filter fun e => e.2.bound && e.2.ctx = c && !e.2.tileKind && e.2.enable && e.2.fetch ≠ e.2.tail).map Prod.snd
  let (mine, host) := (qs.filter fun q => localRange q.base ≠ .t3, qs.filter fun q => localRange q.base = .t3)
  if ((s.ctxDescs c).any fun e => e.2.st = .waiting && (match e.2.body with | .launch _ g _ _ _ => s.lgrpOn p g | _ => false))
      || mine.any (s.ringLaunch p) then (s, true)
  else if host.isEmpty then (s, false)
  else let (v, s) := s.draw; (s, v.getLsbD 0)

/-- Admit a batch step (R314, R332). -/
def State.admitStep (s : State) (c : Nat) (slot : Option (Option Nat × Nat)) : State :=
  match s.ctx? c with
  | none => s
  | some x =>
    let s := s.modCtx c fun x => { x with bstep := true, bstepVer := x.admVer, bstepSlot := slot, overSince := none }
    (List.range x.lcount).foldl (fun (s : State) l =>
      let s := s.modLayer x l fun y => { y with exited := false }
      let y := s.layer x l
      if y.lv = x.admVer then s.signalEntry c y else s) s

/-- Count a skipped opening for the slot and its context. -/
def State.countSkip (s : State) (i c : Nat) : State :=
  (s.modSlot i fun t => { t with skips := satInc t.skips }).modCtx c fun x => { x with skips := satInc x.skips }

/-- Steps 2 to 6 of R321 for entry `i`. -/
def State.openGo (s : State) (i close : Nat) : State :=
  let e := bankEntry s.bankNow i
  let c := e.ctx
  let p := e.part
  let bfs := s.backfilling p c
  let stopping := s.ctxs.any fun x => x.1 ≠ c && x.2.preempting = some .sch && (x.2.part = p || x.1 = e.bfctx)
  if !bfs.isEmpty || stopping then
    let s := s.modSlot i fun t => { t with bfpre := satAdd t.bfpre bfs.length }
    bfs.foldl (fun (s : State) b => s.preemptStart b .sch) (s.modSchPart p fun x => { x with opening := some (i, s.now, close) })
  else
    let s := s.modSchPart p fun x => { x with opening := none }
    let s := (s.setHolder p (.slot c)).modSlot i fun t => { t with open_ := s.now, used := 0xFFFFFFFF }
    let s := s.schResume c
    if s.ctxIs c (·.bstep) then s.countSkip i c
    else
      let may := (s.ctxIs c fun x => x.preempted.isNone && x.preempting.isNone && (x.flt = .run || x.flt = .suspect)) && !(s.fab.ctx c).fenced
      let (s, l) := if may then s.launchWaits p c else (s, false)
      if l then s.admitStep c (some (some i, s.now))
      else (s.modSlot i fun t => { t with empty := satInc t.empty }).passOn p (some i)

/-- An opening that waits on a partition goes on, when nothing holds it up any more (R321 steps 1 and 2); it is skipped at
its close, and when the partition meets a reset (Table 10.8). -/
def State.schAdvance (s : State) (p : Nat) : State :=
  match (s.schPart p).opening with
  | none => s
  | some (i, _, close) =>
    let c := (bankEntry s.bankNow i).ctx
    if decide (s.now ≥ close) || !s.partOpen p then (s.modSchPart p fun x => { x with opening := none }).countSkip i c
    else if s.heldByOther p c then s
    else s.openGo i close

/-- SLOT_OPEN of an entry (R321). At the time a commit takes effect the old table's entries do not open (Table 10.8). -/
def State.slotOpen (s : State) (i : Nat) : State :=
  let e := bankEntry s.bankNow i
  let t := s.sch.cycT + e.off
  if !s.tableOn || decide (i ≥ bankCount s.bankNow) || e.len = 0 || s.sch.opened.contains i || decide (s.now < t)
      || (match s.sch.pend with | some x => decide (x ≤ t) | none => false) then s
  else
    let s := { s with sch := { s.sch with opened := s.sch.opened ++ [i] } }
    let close := t + e.len
    if !s.partOpen e.part || decide (s.now ≥ close) then s.countSkip i e.ctx
    else if s.heldByOther e.part e.ctx then s.modSchPart e.part fun x => { x with opening := some (i, t, close) }
    else s.openGo i close

/-- Events come in order of reference time (R337): the openings whose time lies before `t` have happened. -/
def State.openDue (s : State) (t : Nat) : State :=
  s.slotsNow.foldl (fun (s : State) e => if s.sch.cycT + e.2.off < t then s.slotOpen e.1 else s) s

/-- A batch step that its slot admitted has not completed when the slot closes (R323). -/
def State.overrun (s : State) (i c close : Nat) : State :=
  if s.ctxIs c fun x => x.bstep && x.bstepSlot.bind Prod.fst = some i && x.overSince.isNone then
    (s.modSlot i fun t => { t with overruns := satInc t.overruns }).modCtx c fun x =>
      { x with overSince := some close, overruns := satInc x.overruns }
  else s

/-- SLOT_CLOSE of an entry (R317, R321, R323). -/
def State.slotClose (s : State) (i : Nat) : State :=
  let e := bankEntry s.bankNow i
  let close := s.sch.cycT + e.off + e.len
  if !s.sch.opened.contains i || decide (s.now < close) then s
  else
    let s := s.overrun i e.ctx close
    match (s.schPart e.part).opening with
    | some (j, _, _) => if j = i then (s.modSchPart e.part fun x => { x with opening := none }).countSkip i e.ctx else s
    | none => s

/-- A context's batch step completes (R322, R323, R332). -/
def State.batchStepDone (s : State) (c : Nat) : State :=
  match s.ctx? c with
  | none => s
  | some x =>
    if !x.bstep then s
    else
      let left := (List.range x.lcount).filter fun l => !(s.layer x l).exited
      let s := left.foldl (fun (s : State) l => s.modLayer x l fun y => { y with exited := true }) s
      let s := if left.isEmpty then s else s.barrierErr c
      let excess := match x.overSince with | some t => s.now - t | none => 0
      let s := s.modCtx c fun x => { x with
        bstep := false, bstepSlot := none, overSince := none, bsteps := x.bsteps + 1
        maxOvr := if excess > x.maxOvr.toNat then BitVec.ofNat 32 (min excess 0xFFFFFFFF) else x.maxOvr }
      let s := if x.overSince.isSome then s.ev 0x04FF 7 c Status.late.code excess else s
      let s := match x.bstepSlot with
        | some (some i, t) => s.modSlot i fun y =>
          if y.open_ = t then { y with used := BitVec.ofNat 32 (min (s.now - t) 0xFFFFFFFE) } else y
        | _ => s
      if s.slotPart x.part && (s.schPart x.part).holder = .slot c then
        (s.passOn x.part ((x.bstepSlot.bind Prod.fst).orElse fun _ => s.lastEntryOn x.part)).schAdvance x.part
      else s.schAdvance x.part

/-- Pre-emption ends: PREEMPTED (R334). -/
def State.preemptDone (s : State) (c : Nat) : State :=
  match s.ctx? c with
  | none => s
  | some x =>
    match x.preempting with
    | none => s
    | some who =>
      let s := s.modCtx c fun x => { x with preempting := none, preempted := some who, preempts := satInc x.preempts }
      (s.ev 0x04FF 7 c Status.abandoned.code 0).schAdvance x.part

/-! Commits (R318 to R320) -/

/-- Reserved bits of the header and entries (order 1 of Table 10.2). -/
def bankRsvd (m : Mem) : Bool :=
  nbits (bankWord m 4) 10 22 != 0 || (List.range (min (bankCount m) 512)).any fun i =>
    let w2 := bankWord m (0x100 + 16 * i + 8)
    let w3 := bankWord m (0x100 + 16 * i + 12)
    nbits w2 26 6 != 0 || nbits w2 12 4 != 0 || nbits w2 10 2 != 0 || nbits w3 28 3 != 0
      || (!nbit w3 31 && nbits w3 0 28 != 0) || nbits w3 10 2 != 0

/-- Order 2 of Table 10.2. -/
def bankRange (m : Mem) : Bool :=
  let n := bankCount m
  let cyc := bankCycle m
  decide (n > 512) || (decide (1 ≤ cyc) && decide (cyc < 10000)) || (cyc = 0 && n != 0) || (cyc != 0 && n = 0)
    || (List.range (min n 512)).any fun i =>
      let e := bankEntry m i
      decide (e.off + e.len > cyc) || (i != 0 && decide (e.off < (bankEntry m (i - 1)).off))

/-- Order 3 of Table 10.2. -/
def State.bankBad (s : State) (m : Mem) : Bool :=
  let es := (List.range (min (bankCount m) 512)).map fun i => (i, bankEntry m i)
  es.any fun (i, e) =>
    (es.any fun (j, f) => i < j && e.part = f.part && overlaps e.off e.len f.off f.len)
      || !(s.ctxIs e.ctx fun x => x.serve && x.part = e.part)
      || (e.bfen && (!(s.queues.any fun q => q.2.bound && q.2.ctx = e.bfctx && !q.2.tileKind && q.2.tcls = 2)
          || !(s.load.lrects.any fun r => r.ctx = e.bfctx && s.partOf (mkLog r.die r.row0 r.col0) = some e.part)))

/-- The checks of Table 10.2 on a bank. -/
def State.bankCheck (s : State) (m : Mem) : Option Status :=
  if bankRsvd m then some .rsvdSet
  else if bankRange m || s.bankBad m then some .range
  else none

/-- A commit that has passed sets PEND with its time E (R319). -/
def State.commitAt (s : State) : Nat :=
  let t := s.now + 20000
  if s.tableOn then
    let cyc := bankCycle s.bankNow
    if t ≤ s.sch.cycT then s.sch.cycT else s.sch.cycT + ceilDiv (t - s.sch.cycT) cyc * cyc
  else max s.sch.start.toNat t

/-- COMMIT (R319): a failing commit is recorded in SCH_STAT. -/
def State.schCommitGo (s : State) : RegRes :=
  let bad := fun (st : Status) =>
    (({ s with sch := { s.sch with lastErr := st, err := true } }).ev 0x04FF 0 0 st.code 0, none)
  match s.bankCheck s.bankShadow with
  | some st => bad st
  | none =>
    if s.sch.pend.isSome then bad .busy
    else ({ s with sch := { s.sch with pend := some s.commitAt } }, none)

/-- A pending commit takes effect: the banks swap, slot status clears, partitions pass to the new table's holders, parked
dies of its partitions wake (R319, R322, R462). -/
def State.commitEffect (s : State) (e : Nat) : State :=
  let s := s.slotsNow.foldl (fun (s : State) x =>
    let close := s.sch.cycT + x.2.off + x.2.len
    if s.now ≥ close then s.overrun x.1 x.2.ctx close else s) s
  let s := { s with
    sch := { s.sch with bank := !s.sch.bank, pend := none, cycT := e, cycles := 1, slots := [], parts := [], opened := [] }
    ctxs := s.ctxs.mapV fun _ (x : Ctx) => { x with bstepSlot := x.bstepSlot.map fun (b : Option Nat × Nat) => (none, b.2) } }
  let s := if s.tableOn then s else { s with sch := { s.sch with cycles := 0 } }
  let ps := (s.slotsNow.map fun x => x.2.part).eraseDups
  let s := ps.foldl (fun (s : State) p =>
    let s := (s.load.prects.filter fun r => r.id = p).foldl (fun (s : State) r => s.wakeDie r.die) s
    match s.ctxs.find? fun x => x.2.part = p && x.2.serve && x.2.bstep with
    | some x => s.setHolder p (.slot x.1)
    | none => s.passOn p (s.lastEntryOn p)) s
  -- contexts that SCH pre-empted on partitions that the new table leaves alone may start a LAUNCH again (R335)
  (s.ctxs.filter fun x => x.2.preempted = some .sch).foldl (fun (s : State) x => s.schResume x.1) s

end Sys2Proof.Machine
end

