-- ==== Sys2Proof/Machine/QuenchOps.lean ====
section
/-! DEFINITION. Reset records, installation of retirements, quenches, and the handling of hangs (R25, R26, R87, R114,
R161, R363 to R365, R374, R375, R377, R464, R465). -/
namespace Sys2Proof

/-- Groups of Table 16.2 that a reset kind returns to defaults (R464, R466). -/
def resetGroups (kind : Nat) : Nat :=
  match kind with
  | 1 => 0x45420 | 2 => 0x44000 | 3 => 0x6C000 | 4 => 0x6C000 | 5 => 0x6FFE1 | 6 => 0x6FFF9 | 7 => 0x6FFFB | _ => 0

/-- The spare that takes a retired tile's place (R87, R114, R161, R365 step 2). -/
def Tile.asSpare (t : Tile) : Tile := { t.toDefaults with spd := t.spd, spdUe := t.spdUe }

/-- Partition state codes of Table 12.12. -/
def PartSt.code : PartSt → Nat
  | .run => 1 | .quench => 2 | .hang => 3 | .maint => 4 | .degraded => 5

/-- Context fault state codes of Table 12.13. -/
def CtxFlt.code : CtxFlt → Nat
  | .run => 1 | .faulted => 2 | .suspect => 3 | .held => 4

end Sys2Proof

namespace Sys2Proof.Machine

/-- A reset of Table 16.3 has completed (R465). -/
def State.resetRecord (s : State) (kind source arg : Nat) : State :=
  let p := s.pwr
  let s := { s with pwr := { p with
    new := true, widest := max p.widest kind, kind := kind, source := source, arg := arg, time := s.now
    groups := p.groups ||| resetGroups kind } }
  match kind with
  | 4 => s.ev 0x0501 2 arg arg 0
  | 5 => s.ev 0x0502 0 0 source 0
  | _ => s.ev 0x05FF 0 0 (0x0100 * 256) 0

/-! Partitions -/

/-- Change a partition. -/
def State.modPart (s : State) (p : Nat) (f : Part → Part) : State := { s with flt := { s.flt with parts := SMap.adj s.flt.parts p f } }
/-- A defined partition. -/
def State.part? (s : State) (p : Nat) : Option Part := SMap.get? s.flt.parts p
/-- Dies of a partition. -/
def State.partDies (s : State) (p : Nat) : List Nat := ((s.load.prects.filter fun r => r.id = p).map fun r => r.die).eraseDups
/-- Logical tiles of a partition. -/
def State.partTiles (s : State) (p : Nat) : List Nat := (s.load.prects.filter fun r => r.id = p).flatMap Rect.tiles
/-- A physical tile stands for a logical tile of the partition. -/
def State.inPart (s : State) (p pt : Nat) : Bool := match s.logOf pt with | some l => s.partOf l == some p | none => false
/-- Some logical tile of the partition is unmapped (R26). -/
def State.partHole (s : State) (p : Nat) : Bool :=
  s.remap.any fun e => e.2 = none && s.partOf e.1 == some p
/-- Tiles of a partition due for retirement: PEND (R363). -/
def State.pendOf (s : State) (p : Nat) : List Due := s.flt.due.filter fun d => s.inPart p d.ptile
/-- Contexts that hold tiles of a partition. -/
def State.holdersOf (s : State) (p : Nat) : List Nat :=
  (s.partCtxs p).filter fun c => s.tiles.any fun e => e.2.ctx = some c

/-- Contexts that a quench of a partition pre-empts: those that hold tiles of it (R365), and on a slot partition every
context on it (Table 10.8). -/
def State.quenched (s : State) (p : Nat) : List Nat := if s.slotPart p then s.partCtxs p else s.holdersOf p
/-- Contexts active on a partition: they hold tiles of it or have work in progress (R26). -/
def State.activeOn (s : State) (p : Nat) : List Nat :=
  (s.partCtxs p).filter fun c =>
    (s.tiles.any fun e => e.2.ctx = some c) || !(s.ctxDescs c).isEmpty || s.fab.insts.any fun i => i.isOpen && i.key.ctx = c
/-- A die of the partition is in a die reset: a quench of the partition is treated as already done (R35). -/
def State.partInReset (s : State) (p : Nat) : Bool := (s.partDies p).any fun d => (s.die d).rst.isSome

/-! Installing retirements -/

/-- The lowest free spare of a die, row 50 before row 51 (R25); a spare that is itself due is not taken. -/
def State.spareOf (s : State) (d : Nat) : Option Nat :=
  ((List.range 128).map fun i => d * 4096 + 3200 + i).find? fun q => s.freeSpare q && !s.isDue q

/-- Install the retirement of a physical tile (R25, R26, R364, R365 step 2). -/
def State.installTile (s : State) (p : Nat) : State :=
  let s := { s with flt := { s.flt with due := s.flt.due.filter fun d => d.ptile ≠ p } }
  let note := fun (s : State) (q : Option Nat) => { s with flt := { s.flt with retired := s.flt.retired ++ [(p, q)] } }
  match s.logOf p with
  | none => note s none
  | some l =>
    let t := s.ptile p
    let s := { s with flt := { s.flt with waitAt := SMap.erase s.flt.waitAt p } }
    match s.spareOf (physDie p) with
    | some q =>
      let s := (s.setPtile q t.asSpare).setPtile p { t with ctx := none, launch := none }
      let s := note { s with remap := SMap.setD s.remap l (some q) (some (identPhys l)) } (some q)
      s.ev 0x0304 1 p q 0
    | none =>
      let s := s.setPtile p { t with ctx := none, launch := none }
      let s := note { s with remap := SMap.set s.remap l none } none
      s.ev 0x03FF 1 p Status.degraded.code 0

/-- Install tiles in the order in which they fell due, ties to the lower ID (R364). -/
def State.installAll (s : State) (ds : List Due) : State :=
  (sortBy (fun (a b : Due) => decide (a.since < b.since) || (a.since = b.since && decide (a.ptile ≤ b.ptile))) ds).foldl
    (fun (s : State) d => s.installTile d.ptile) s

/-- A load in progress does not stand in the way of the retirement: the tile fell due before its START (R354). -/
def State.ripe (s : State) (d : Due) : Bool := s.load.st = .idle || decide (d.since ≤ s.load.since)

/-- What a quench of a partition installs: its own pending retirements, and those of tiles of its dies that belong to no
partition (R363). -/
def State.quenchDues (s : State) (p : Nat) : List Due :=
  s.flt.due.filter fun d => s.ripe d && (s.inPart p d.ptile
    || ((s.partDies p).contains (physDie d.ptile) && (match s.logOf d.ptile with | some l => s.partOf l == none | none => true)))

/-- Tiles due on a die (R363). -/
def State.dieDues (s : State) (d : Nat) : List Due := s.flt.due.filter fun x => s.ripe x && physDie x.ptile = d

/-! Quench -/

/-- SCH stops a context at once and keeps the descriptors that have ended already: used where they still complete. -/
def State.preemptKeep (s : State) (c : Nat) : State :=
  let fin := (s.ctxDescs c).filter fun e => e.2.st = .finished
  let s := (s.preemptStart c .sch).preemptDone c
  { s with descs := fin.foldl (fun m e => SMap.set m e.1 e.2) s.descs }

/-- What a context that a quench leaves on a DEGRADED partition has in progress completes with DEGRADED (R26). -/
def State.degradeCtx (s : State) (c : Nat) : State :=
  let s := s.closeColls c .degraded
  ((s.ctxDescs c).foldl (fun (s : State) e => s.cutShort e.1 .degraded) s).preemptKeep c

/-- Steps 1 to 3 of R365: `src` is the SOURCE of Table 16.3; the descriptors of context `keep` that have ended still
complete. -/
def State.quenchStart (s : State) (p src : Nat) (keep : Option Nat) : State :=
  let cs := s.quenched p
  let s := (s.modPart p fun x => { x with st := .quench, quench := some (src, cs) }).schAdvance p
  let s := if (s.installAll (s.quenchDues p)).partHole p then (s.activeOn p).foldl (fun (s : State) c => s.degradeCtx c) s else s
  let s := cs.foldl (fun (s : State) c =>
    if keep = some c then s.preemptKeep c
    else (s.preemptStart c .sch).preemptDone c) s
  let s := s.installAll (s.quenchDues p)
  s.dropWork (fun pt _ => s.inPart p pt) fun t => { t.keepFault t.unitReset with ctx := t.ctx }

/-- The partition is left DEGRADED (R26); handling of a hang on it ends (R374). -/
def State.leaveDegraded (s : State) (p : Nat) : State :=
  let was := match s.part? p with | some x => x.hang.isSome | none => false
  let s := s.modPart p fun x => { x with st := .degraded, hang := none }
  let s := { s with ctxs := s.ctxs.mapV fun _ x => if x.part = p && (x.flt = .held || x.flt = .suspect) then { x with flt := .run } else x }
  if was then s.ev 0x0404 6 p p 0 else s

/-! Handling a hang (R374, R375) -/

/-- Let the tiles of a context that stand at the instruction after CTL.STEP go on. -/
def State.unhold (s : State) (c : Nat) : State :=
  s.dropWork (fun _ t => t.ctx = some c && t.wait = some .hold) fun t => { t with wait := none, cpState := .running }

/-- A context still counts as a suspect: neither faulted nor pre-empted by the host (R377). -/
def State.suspectStays (s : State) (c : Nat) : Bool :=
  s.ctxIs c fun x => (x.flt = .held || x.flt = .suspect) && x.preempted ≠ some .host && x.preempting ≠ some .host

/-- The bits of HANG's ARG1: faulted contexts among the lowest 64. -/
def hangBits (cs : List Nat) : Nat := cs.foldl (fun a c => if c < 64 then setBits a c 1 1 else a) 0

/-- The last suspect has been taken: an unexplained hang, the second within an hour, leads to MAINT; otherwise the held
contexts go on (R374 step 5, R375). -/
def State.hangEnd (s : State) (p : Nat) : State :=
  match s.part? p with
  | none => s
  | some x =>
    match x.hang with
    | none => s
    | some h =>
      let left := h.all.filter s.suspectStays
      let un := h.guilty.isEmpty
      let soon := un && (match x.lastHang with | some t => decide (s.now < t + 3600000000000) | none => false)
      let s := if un then s.modPart p fun x => { x with unexpl := satInc x.unexpl, lastHang := some s.now } else s
      let s := if un then { s with flt := { s.flt with unexpl := satInc s.flt.unexpl } } else s
      if soon then
        let s := left.foldl (fun (s : State) c =>
          ((s.preemptStart c .host).preemptDone c).modCtx c fun x => { x with flt := .run, preempted := some .host }) s
        s.modPart p fun x => { x with st := .maint, hang := none, bistOk := [] }
      else
        let s := s.modPart p fun x => { x with st := .run, hang := none }
        let s := left.foldl (fun (s : State) c => ((s.modCtx c fun x => { x with flt := .run }).unhold c).schResume c) s
        let s := (s.partCtxs p).foldl (fun (s : State) c => s.schResume c) s
        s.ev 0x0404 6 p p (hangBits h.guilty)

/-- The next suspect is replayed alone (R374 step 2). -/
def State.hangNext (s : State) (p : Nat) : State :=
  match (s.part? p).bind (·.hang) with
  | none => s
  | some h =>
    match h.todo.filter s.suspectStays with
    | [] => (s.modPart p fun x => { x with hang := some { h with todo := [], cur := none } }).hangEnd p
    | c :: rest =>
      let s := s.modPart p fun x => { x with hang := some { h with todo := rest, cur := some (c, s.now), ending := false } }
      let s := s.modCtx c fun x => { x with flt := .suspect, preempted := none, replaying := true }
      s.replayQueues c

/-- The suspect passes: it is HELD where it stands (R374 step 3). -/
def State.suspectPass (s : State) (p c : Nat) : State :=
  let s := s.modCtx c fun x => if x.flt = .suspect then { x with flt := .held } else x
  s.hangNext p

/-- The suspect has ceased to be one: handling moves on (R377). -/
def State.hangCheck (s : State) (p : Nat) : State :=
  match (s.part? p).bind (·.hang) with
  | some h =>
    match h.cur with
    | some (c, _) => if h.ending || s.suspectStays c then s else s.hangNext p
    | none => s
  | none => s

/-- A hang is confirmed on a partition (R373, R374 step 1). -/
def State.hangStart (s : State) (p : Nat) : State :=
  let sus := (s.holdersOf p).filter fun c =>
    s.ctxIs c fun x => x.flt ≠ .faulted && x.preempted ≠ some .host && x.preempting ≠ some .host
  let s := s.modPart p fun x => { x with hangs := satInc x.hangs, hang := some ⟨sus, sus, none, [], false⟩ }
  let s := { s with flt := { s.flt with confirmed := satInc s.flt.confirmed } }
  let s := s.ev 0x0404 6 p p 0
  let s := sus.foldl (fun (s : State) c => s.modCtx c fun x => { x with flt := .held, suspected := satInc x.suspected }) s
  s.quenchStart p 7 none

/-- The suspect hangs alone: it faults with ABANDONED and its replay is quenched (R374 step 4). -/
def State.suspectGuilty (s : State) (p c : Nat) : State :=
  let s := s.enterFaulted c .abandoned 0xFFFF none
  let s := s.modCtx c fun x => { x with guilty := satInc x.guilty }
  let s := { s with flt := { s.flt with guilty := satInc s.flt.guilty } }
  let s := s.modPart p fun x => { x with hang := x.hang.map fun h => { h with guilty := h.guilty ++ [c], ending := true, cur := none } }
  (s.quenchStart p 7 (some c)).modCtx c fun x => { x with preempted := none }

/-- A quench of a partition that the host or AUTOQ asks for (R363, R365); beside a die reset it counts as done already (R35),
and a RESUME from MAINT then returns STATE to RUN (R375). -/
def State.quenchAsk (s : State) (p src : Nat) : State :=
  if s.partInReset p then s.modPart p fun x => { x with st := if x.st = .maint then .run else x.st }
  else s.quenchStart p src none

/-- Steps 1 to 3 of a quench are over: step 4 (R365). -/
def State.quenchDone (s : State) (p : Nat) : State :=
  match s.part? p with
  | none => s
  | some x =>
    match x.quench with
    | none => s
    | some (src, cs) =>
      let s := s.modPart p fun x => { x with quench := none, quenches := x.quenches + 1 }
      let s := s.resetRecord 2 src p
      if s.partHole p then s.leaveDegraded p
      else if x.hang.isSome then (s.modPart p fun x => { x with st := .hang }).hangNext p
      else
        let s := s.modPart p fun x => { x with st := .run }
        let s := cs.foldl (fun (s : State) c => (s.unhold c).schResume c) s
        s

/-- A LAUNCH of the context runs. -/
def State.launching (s : State) (c : Nat) : Bool := (s.ctxDescs c).any fun e => e.2.isLaunch && e.2.st = .running

/-- AUTOQ may quench the partition now: every context holding tiles of it stands at a boundary (R363). -/
def State.atBoundary (s : State) (p : Nat) : Bool :=
  (s.holdersOf p).all fun c =>
    !s.launching c || ((s.stepTiles c).any fun l => (s.tile l).wait = some .hold)

/-- A step completion on the partition holds its tiles: a retirement pends and AUTOQ is on (R363). -/
def State.stepHolds (s : State) (p : Nat) : Bool := s.flt.autoq && (s.pendOf p).any s.ripe

end Sys2Proof.Machine
end

