-- ==== Sys2Proof/Machine/LaunchCmds.lean ====
section
/-! DEFINITION. Launches, steps, signals, completions and the stage arbiter (R125 to R127, R130, R142, R143, R148, R153,
R177, R183, R184, R300 to R307, R315, R324, R332, R363, R371). -/
namespace Sys2Proof

/-- Group, entry and arguments of a LAUNCH. -/
def Desc.launchOf (d : Desc) : Option (Nat × Nat × List W32) :=
  match d.body with | .launch e g args _ _ => some (g, e, args) | _ => none

/-- Two lists of tiles share one. -/
def sharesTile (a b : List Nat) : Bool := a.any fun l => b.contains l

/-- `U` = 4, `W` = 3, `B` = 2, `F` = 1: role codes of DEV_STG_STAT.ROLE, with their queues, in the order of R301. -/
def Stage.roles (g : Stage) : List (Nat × Option Nat) := [(2, g.qb), (1, g.qf), (3, g.qw), (4, g.qu)]

/-- Key of a stage in the record of when waits began, past the physical tiles. -/
def stageKey (n : Nat) : Nat := 2 ^ 16 + n

/-- The next context in round robin: the lowest ID above `last`, or the lowest of all (R143). -/
def nextRound (last : Option Nat) (cs : List Nat) : Option Nat :=
  let low := fun (l : List Nat) => l.foldl (fun (m : Option Nat) c => match m with | some x => some (min x c) | none => some c) none
  match last with
  | some k => (low (cs.filter fun c => decide (k < c))).orElse fun _ => low cs
  | none => low cs

end Sys2Proof

namespace Sys2Proof.Machine

/-! Launches -/

/-- Some tile of the group lies on a die on which BACKFILL work pauses (R50). -/
def State.bfPaused (s : State) (tiles : List Nat) : Bool := tiles.any fun l => s.hrt.bfPause.contains (logDie l)

/-- The context of a waiting LAUNCH may start it now: the state of the context and its partition, the holder of a slot
partition, the guard before an opening, and the pause of R50 (R315, R322, R374). -/
def State.mayLaunch (s : State) (d : Desc) : Bool :=
  let c := d.hdr.ctx
  match s.ctx? c, d.launchOf with
  | some x, some (g, _, _) =>
    let hang := match s.part? x.part with | some p => p.st = .hang | none => false
    let bf := s.isBackfill d || (s.slotPart x.part && (match (s.schPart x.part).holder with | .backfill _ => true | _ => false))
    d.st = .waiting && s.ctxFetches c && !(s.fab.ctx c).fenced && (hang || s.holds c)
      && !(bf && !hang && (s.guarded x.part || s.bfPaused (s.lgrpTiles g)))
  | _, _ => false

/-- A tile is free (R143): it is idle, and the context that holds it, if any, has no LAUNCH started on it and not
completed. -/
def State.tileFree (s : State) (l : Nat) : Bool :=
  let t := s.tile l
  t.cpState = .idle &&
    match t.ctx with
    | none => true
    | some d => !((s.ctxDescs d).any fun e => e.2.st ≠ .waiting && (match e.2.launchOf with | some (g, _, _) => s.inLgrp g l | none => false))

/-- The die of a tile runs (R460, R461). -/
def State.dieRuns (s : State) (d : Nat) : Bool := (s.die d).park = .run && !s.downDies.contains d

/-- Waiting LAUNCHes that could start and whose groups overlap these tiles. -/
def State.rivals (s : State) (tiles : List Nat) : List (Nat × Desc) :=
  s.descs.filter fun e => s.mayLaunch e.2
    && (match e.2.launchOf with | some (g, _, _) => sharesTile tiles (s.lgrpTiles g) | none => false)

/-- Of the LAUNCHes of several contexts that wait for overlapping tiles one is chosen, in round-robin order of context ID from
the context whose LAUNCH last started on any of those tiles; one already chosen keeps its turn (R143). -/
def State.chooseOn (s : State) (tiles : List Nat) : State :=
  let w := s.rivals tiles
  let cs := (w.map fun e => e.2.hdr.ctx).eraseDups
  if w.any (fun e => e.2.chosen) || decide (cs.length < 2) then s
  else
    let all := tiles ++ w.flatMap fun e => match e.2.launchOf with | some (g, _, _) => s.lgrpTiles g | none => []
    let last := (s.lastStart.filter fun e => all.contains e.1).foldl
      (fun (m : Option (Nat × Nat)) e => match m with | some x => if x.2 < e.2.2 then some e.2 else some x | none => some e.2) none
    match (nextRound (last.map Prod.fst) cs).bind fun k => w.find? fun e => e.2.hdr.ctx = k with
    | some e => s.modDesc e.1 fun d => { d with chosen := true }
    | none => s

/-- A chosen LAUNCH of another context reserves a tile that is free (R143). -/
def State.reserved (s : State) (c l : Nat) : Bool :=
  s.tileFree l && (s.rivals [l]).any fun e => e.2.chosen && e.2.hdr.ctx ≠ c

/-- A LAUNCH starts on one of its tiles (R115, R142, R143). The tile's push serial is saved, or restored when the LAUNCH is
replayed (R263). -/
def State.startTile (s : State) (c id entry : Nat) (args : List W32) (l : Nat) : State :=
  let k := c * 2 ^ 15 + l
  let s := s.onTile l fun t =>
    let t := if t.ctx = some c then t else t.clearCtx
    let t := (List.range 8).foldl (fun (t : Tile) i => t.xw i (args.getD i 0)) t
    ({ t with ctx := some c, launch := some id, pc := entry, cpState := .running, patches := [], wait := none }, [])
  let s := { s with lastStart := SMap.set s.lastStart l (c, s.starts) }
  match (s.desc? id).map fun (d : Desc) => d.src with
  | some (.queue q i) =>
    let e := (q * 2 ^ 32 + i.toNat) * 2 ^ 15 + l
    (match SMap.get? s.fab.serialSave e with
    | some n => { s with fab := { s.fab with pushSerial := SMap.setD s.fab.pushSerial k n 0 } }
    | none => { s with fab := { s.fab with serialSave := SMap.set s.fab.serialSave e (SMap.getD s.fab.pushSerial k 0) } })
  | _ => s

/-- LAUNCH_START of a waiting LAUNCH (R142, R143, R315, R460). -/
def State.launchGo (s : State) (id : Nat) : State :=
  match s.desc? id with
  | none => s
  | some d =>
    match d.launchOf with
    | none => s
    | some (g, entry, args) =>
      let c := d.hdr.ctx
      let tiles := s.lgrpTiles g
      if !s.mayLaunch d then s
      else if tiles.any fun l => (s.phys l).isNone then s.modDesc id fun d => { d with st := .finished, status := d.status.worse .degraded }
      else
        let dies := (tiles.map logDie).eraseDups
        if !(dies.all s.dieRuns) then dies.foldl (fun (s : State) e => s.wakeDie e) s
        else
          if !(tiles.all fun l => s.tileFree l && !s.reserved c l) then s.chooseOn tiles
          else
            let s := s.modDesc id fun d => { d with st := .running, chosen := false }
            let s := if s.ctxIs c fun x => x.serve && !x.bstep && !s.slotPart x.part then s.admitStep c none else s
            let s := tiles.foldl (fun (s : State) l => s.startTile c id entry args l) s
            { s with starts := s.starts + 1 }

/-- LAUNCH_START (R142, R143). -/
def execLaunchStart (id : Nat) (s : State) : Host.Outcome State Fault Refusal := .next <| s.launchGo id

/-! Steps -/

/-- The context's step completes (R130, R153, R177, R306). -/
def State.stepDone (s : State) (c : Nat) : State :=
  match s.ctx? c with
  | none => s
  | some x =>
    let tiles := s.stepTiles c
    let us := min ((s.now - x.stepAt) / 1000) 0xFFFFFFFF
    let suspect := x.flt = .suspect
    let hold := suspect || s.stepHolds x.part
    let s := { s with
      queues := s.queues.mapV fun _ q => if q.bound && q.ctx = c then { q with head := q.done } else q
      stages := s.stages.mapV fun _ g => if g.ctx = c then
        { g with lastStep := BitVec.ofNat 32 us, minCap := g.curMin, curMin := 0xFFFF } else g }
    let s := if x.serve && x.psn then (s.ctxDescs c).foldl (fun (s : State) e =>
        s.modDesc e.1 fun d => { d with psn := d.psn || (d.isLaunch && d.st ≠ .waiting) }) s else s
    let s := s.modCtx c fun x => { x with
      step := x.step + 1, stepAt := s.now, ovf := false, psn := false, voted := false, replaying := false }
    let s := s.batchStepDone c
    let s := tiles.foldl (fun (s : State) l => s.onTile l fun t =>
      (if hold then { t.advance 16 with cpState := .waiting, wait := some .hold } else t.advance 16, [])) s
    if suspect then s.suspectPass x.part c else s

/-- STEP_COMPLETE (R130): every tile of the step group waits in CTL.STEP and its work has completed. -/
def execStepComplete (ctx : Nat) (s : State) : Host.Outcome State Fault Refusal :=
  guardWf (ctxOk ctx) s <|
    if s.ctxIs ctx (fun x => x.flt = .run || x.flt = .suspect) && !s.stepless ctx
        && (s.stepTiles ctx).all fun l =>
          let t := s.tile l
          t.ctx = some ctx && t.wait = some .step && t.unitsIdle && s.execCount l = 0 then s.stepDone ctx
    else s

/-! Signals -/

/-- The increment meets the ceiling (R125, R127). -/
def State.semOver (s : State) (g : Signal) (t : Tile) : State :=
  match g.semsig with
  | some (src, pc) => if (s.tile src).ctx = some g.ctx then s.faultTile src .range pc else s
  | none =>
    s.faultTile g.tile .range (match g.own with
      | some pc => pc
      | none => if t.cpState = .idle then 0 else t.pc)

/-- A signal reaches a tile that its context holds (R125 to R127, R332, R371). -/
def State.signalLand (s : State) (g : Signal) : State :=
  let s := match g.supplier with | some l => s.supplied (g.ctx, .sem g.tile g.sem) l | none => s
  if s.isExitSem g.ctx g.tile g.sem then (List.range g.count).foldl (fun (s : State) _ => s.takeExit g.ctx g.tile g.sem) s
  else
    let t := s.tile g.tile
    let n := (t.sem g.sem).toNat + g.count
    let v := BitVec.ofNat 16 (min n 65535)
    let s := s.onTile g.tile fun t => (t.semW g.sem v, [])
    if n > 65535 then s.semOver g t
    else
      match t.wait with
      | some (.sem k need) =>
        if k = g.sem && decide (need ≤ n) && s.mayIssue g.tile t then
          s.onTile g.tile fun t => ((t.semW g.sem (v - BitVec.ofNat 16 need)).advance 16, [])
        else s
      | _ => s

/-- SEM_SIGNAL_DELIVER of the `i`-th signal on its way. To an unmapped tile no signal is delivered (R148); one for a tile
that its context does not hold stays on its way. -/
def execSemSignalDeliver (i : Nat) (s : State) : Host.Outcome State Fault Refusal :=
  .next <|
    match s.sigs[i]? with
    | none => s
    | some g =>
      let rest := { s with sigs := s.sigs.eraseIdx i }
      match s.phys g.tile with
      | none => rest.sigIrq g
      | some p => if (s.ptile p).ctx = some g.ctx then (rest.signalLand g).sigIrq g else s

/-- Every signal of a context on its way lands where the context holds the tile; the others are given up. -/
def State.landSigs (s : State) (c : Nat) : State :=
  (s.sigs.filter fun g => g.ctx = c).foldl (fun (s : State) g =>
    (if (match s.phys g.tile with | some p => decide ((s.ptile p).ctx = some c) | none => false) then s.signalLand g else s).sigIrq g)
    { s with sigs := s.sigs.filter fun g => g.ctx ≠ c }

/-! Completion -/

/-- A record that the block writes; when the page wait that held it has failed, a page not at hand is given up. -/
def State.recordTry (s : State) (gaveUp : Bool) (cls : TCls) (c a : Nat) (bs : List Byte) : State × Option Nat :=
  if gaveUp && localRange a ≠ .t3 && (match s.mem.find false c a with | some k => !s.mem.resident k | none => false) then (s, none)
  else s.recordWrite cls c a bs

/-- A LAUNCH of a serving context completes POISONED: the PSN flag is set, or it was when the batch step that the LAUNCH
carried completed (R324). -/
def State.launchPsn (s : State) (d : Desc) : Bool := d.isLaunch && s.ctxIs d.hdr.ctx fun x => x.serve && (x.psn || d.psn)

/-- The status a descriptor completes with (R148, R150, R184, R324). -/
def State.finalStatus (s : State) (d : Desc) : Status :=
  let st := if d.hdr.semsig && (s.phys d.hdr.cplTile).isNone then d.status.worse .degraded else d.status
  let st := match d.skip with | some k => st.worse k | none => st
  if s.launchPsn d then st.worse .poisoned else st

/-- The numerics record of a vote (R178 step 3, R183). -/
def State.voteRecord (s : State) (gaveUp : Bool) (d : Desc) : State × Option Nat :=
  match d.body, s.ctx? d.hdr.ctx with
  | .coll _ r, some x => if r.record.isEmpty then (s, none) else s.recordTry gaveUp (s.classOf d) d.hdr.ctx x.nrec r.record
  | _, _ => (s, none)

/-- The actions after the completion record (R148), and what a finished LAUNCH leaves (R143, R306, R324). The queue's message
waits until the signal has been made. -/
def State.completeRest (s : State) (id : Nat) (d : Desc) (st : Status) : State :=
  let h := d.hdr
  let s := { s with descs := SMap.erase s.descs id }
  let s := if s.launchPsn d then s.modCtx h.ctx fun x => { x with poisoned := satInc x.poisoned } else s
  let s := match d.stage with
    | some (g, _) => { s with stages := SMap.adj s.stages g fun y =>
        if (y.run.map Prod.snd) = some id then { y with run := none, launches := y.launches + 1 } else y }
    | none => s
  let irq := match d.src with | .queue q _ => if h.irq && (s.queue q).irqen then some (s.queue q).vec else none | .exec _ _ => none
  let s := if h.semsig then
      s.signal ⟨h.cplTile, h.cplSem, 1, none,
        (match d.src with | .exec l pc => if l = h.cplTile then some pc else none | _ => none),
        (match d.src with | .exec l _ => some l | _ => none), h.ctx, irq⟩
    else s
  let s := match d.src with | .queue q i => s.entryDone q i st | .exec _ _ => s
  let s := if h.semsig then s else match irq with | some v => s.msix v | none => s
  match d.launchOf with | some (g, _, _) => s.chooseOn (s.lgrpTiles g) | none => s

/-- A descriptor that has ended performs its completion actions; a record whose page is not at hand makes it wait (R148,
R149, R231). -/
def State.complete (s : State) (id : Nat) : State :=
  let s := s.settleMemctl id
  match s.desc? id with
  | none => s
  | some d =>
    if d.st ≠ .finished || !s.waitOver d.crecWait then s
    else
      let r := s.waitRes d.crecWait
      let gaveUp := r ≠ .ok && r ≠ .abandoned
      let s := (s.dropWait? d.crecWait).modDesc id fun d => { d with crecWait := none }
      let hold := fun (s : State) (w : Nat) => s.modDesc id fun d => { d with crecWait := some w }
      match (if gaveUp then (s, none) else s.countStat id) with
      | (s, some w) => hold s w
      | (s, none) =>
        match s.voteRecord gaveUp d with
        | (s, some w) => hold s w
        | (s, none) =>
          let st := s.finalStatus d
          let (exec, source) := match d.src with | .exec l _ => (true, l) | .queue q _ => (false, q)
          match (if d.hdr.crec then s.recordTry gaveUp (s.classOf d) d.hdr.ctx d.hdr.cplAddr (crecBytes d.hdr st exec source d.detail.toNat s.now) else (s, none)) with
          | (s, some w) => hold s w
          | (s, none) => s.completeRest id d st

/-- DESCRIPTOR_COMPLETE (R148 to R150). -/
def execDescriptorComplete (id : Nat) (s : State) : Host.Outcome State Fault Refusal := .next <| s.complete id

/-! The stage arbiter -/

/-- appended(q), started(q) and done(q) (R300). -/
def State.counts (s : State) (q : Nat) : Nat × Nat × Nat :=
  let x := s.queue q
  ((x.tail - x.head).toNat, (x.fetch - x.head).toNat, (x.done - x.head).toNat)

/-- A gate of F or B lets the next launch of role queue `q` start (Table 9.2). -/
def State.gateOpen (s : State) (gate : Option (Nat × Nat)) (q : Nat) : Bool :=
  match gate with
  | none => true
  | some (gq, per) => decide ((s.counts gq).1 ≥ per * ((s.counts q).2.1 + 1))

/-- F is held by its quota. -/
def State.quotaHeld (s : State) (g : Stage) : Bool :=
  match g.qf, g.qb with
  | some f, some b => decide ((s.counts f).2.1 ≥ (s.counts b).2.2 + g.quota)
  | _, _ => false

/-- The role's conditions of Table 9.2 hold. -/
def State.roleReady (s : State) (g : Stage) (role q : Nat) : Bool :=
  match role with
  | 2 => s.gateOpen g.gb q
  | 1 => s.gateOpen g.gf q && !s.quotaHeld g
  | 3 => (match g.qb with | some b => decide ((s.counts q).2.1 < (s.counts b).2.2) | none => true)
  | _ => (match g.gu with
    | some (t, n) => (s.tile t).ctx = some g.ctx && decide (1 ≤ ((s.tile t).sem n).toNat)
    | none => true)

/-- The role queue holds a descriptor not yet started. -/
def State.roleHas (s : State) (q : Nat) : Bool := (s.queue q).fetch ≠ (s.queue q).tail && (s.queue q).enable

/-- The first ready role with its queue (R301). -/
def State.readyRole (s : State) (g : Stage) : Option (Nat × Nat) :=
  g.roles.findSome? fun r => match r.2 with
    | some q => if s.roleHas q && s.roleReady g r.1 q then some (r.1, q) else none
    | none => none

/-- The status with which a stage queue rejects an entry (R300, R140). -/
def State.stageCheck (s : State) (g : Stage) (q : Nat) (bs : List Byte) : Option Status :=
  match s.checkDesc (fun cls _ => cls = 1) (s.queue q).ctx bs with
  | some .denied => some (if dn bs 0x18 2 = g.lgrp then .denied else .range)
  | some st => some st
  | none => if dn bs 0x18 2 = g.lgrp then none else some .range

/-- Starting a U launch takes its gate unit (Table 9.2, Table 9.3). -/
def State.takeGate (s : State) (g : Stage) (role : Nat) : State :=
  match role, g.gu with
  | 4, some (t, n) => s.onTile t fun x => (x.semW n (x.sem n - 1), [])
  | _, _ => s

/-- Another stage could start a U launch that takes the same gate unit now. -/
def State.wantsGate (s : State) (g h : Stage) : Bool :=
  h.run.isNone && !(s.fab.ctx h.ctx).fenced && h.gu = g.gu
    && (match s.readyRole h with | some (4, q) => s.canFetch q | _ => false)

/-- A U launch finds its gate unit: stages of lower numbers that are ready on the semaphore take theirs first (Table 9.3). -/
def State.gateLeft (s : State) (n : Nat) (g : Stage) (role : Nat) : Bool :=
  match role, g.gu with
  | 4, some (t, k) => decide ((s.stages.filter fun e => decide (e.1 < n) && s.wantsGate g e.2).length < ((s.tile t).sem k).toNat)
  | _, _ => true

/-- One decision of a stage's arbiter (R301). -/
def State.stageDecide (s : State) (n : Nat) (host : Fetched) : State :=
  match SMap.get? s.stages n with
  | none => s
  | some g =>
    if g.run.isSome || (s.fab.ctx g.ctx).fenced then s
    else
      match s.readyRole g with
      | none => s
      | some (role, q) =>
        let s := s.wakeForQueue q
        if !s.canFetch q || !s.gateLeft n g role then s
        else
          match s.readEntry q host with
          | (s, .waiting) => s
          | (s, .failed st) => (s.takeGate g role).rejectEntry q st
          | (s, .got bs) =>
            if s.ordWaits q bs then s
            else
              let s := s.takeGate g role
              match s.stageCheck g q bs with
              | some st => s.rejectEntry q st
              | none =>
                let i := (s.queue q).fetch
                let s := s.modQueue q fun x => { x with fetch := x.fetch + 1 }
                let (s, id) := s.startLaunch (.queue q i) (DescHdr.ofBytes bs) bs (some (n, role))
                { s with
                  stages := SMap.adj s.stages n fun y => { y with run := some (role, id) }
                  flt := { s.flt with ended := s.flt.ended ++ [.stage n], waitAt := SMap.erase s.flt.waitAt (stageKey n) } }

/-- STAGE_ARBITER_DECIDE (R300 to R304). -/
def execStageArbiterDecide (stage : Nat) (host : Fetched) (s : State) : Host.Outcome State Fault Refusal :=
  guardWf (stageOk stage && entryBytesOk host) s <| s.stageDecide stage host

/-- A µs of a stage whose context holds its launch group (R307). -/
def State.stageUs (s : State) (g : Stage) : Stage :=
  let tiles := s.lgrpTiles g.lgrp
  if tiles.isEmpty || !(tiles.all fun l => (s.tile l).ctx = some g.ctx) then g
  else
    match g.run with
    | some (1, _) => { g with tF := g.tF + 1 }
    | some (2, _) => { g with tB := g.tB + 1 }
    | some (3, _) => { g with tW := g.tW + 1 }
    | some (_, _) => { g with tU := g.tU + 1 }
    | none =>
      let ready := fun (role : Nat) (q : Option Nat) => match q with | some q => s.roleHas q && s.roleReady g role q | none => false
      let fOnly := match g.qf with | some f => s.roleHas f && s.gateOpen g.gf f && s.quotaHeld g | none => false
      if fOnly && !ready 3 g.qw && !ready 4 g.qu then { g with tCredit := g.tCredit + 1 } else { g with tInput := g.tInput + 1 }

end Sys2Proof.Machine
end

