-- ==== Sys2Proof/Machine/SchCmds.lean ====
section
/-! DEFINITION. The schedule block's commands: commits, openings and closes, cycle boundaries, pre-emption, resumption,
switches and layer releases (R317 to R323, R330 to R335, R339). -/
namespace Sys2Proof.Machine

/-- A refused command of SCH_CTX_CMD: its status stands in LAST_ERR as well (R339). -/
def State.schRefuse (s : State) (c : Nat) (st : Status) : RegRes := (s.modCtx c fun x => { x with schErr := st }, some st)

/-- A slot of the context that opens at this very moment admits nothing and counts EMPTY (Table 10.8). -/
def State.emptyNow (s : State) (c : Nat) : State :=
  match (s.ctx? c).bind (·.bstepSlot) with
  | some (some i, t) => if t = s.now then s.modSlot i fun y => { y with empty := satInc y.empty } else s
  | _ => s

/-- The host pre-empts a context (R334); during the handling of a hang it ceases to be a suspect (R377). Openings before
this moment have happened (R337). -/
def State.hostPreempt (s : State) (c : Nat) : State :=
  let s := (s.openDue s.now).emptyNow c
  match s.ctx? c with
  | none => s
  | some x =>
    let s := if x.preempted = some .sch && (x.flt = .held || x.flt = .suspect) then s.modCtx c fun x => { x with preempted := some .host }
      else s.preemptStart c .host
    s.hangCheck x.part

/-- RESUME of a context (R335). SCH ends a pre-emption of its own itself, but for a context in the faulted state. -/
def State.hostResume (s : State) (c : Nat) : RegRes :=
  match s.ctx? c with
  | none => (s, none)
  | some x =>
    let part := match s.part? x.part with | some p => p.st = .quench || p.st = .hang || p.st = .maint | none => false
    if x.preempting.isSome || part then s.schRefuse c .busy
    else if x.flt = .faulted then (s.modCtx c fun x => { x with preempted := none }, none)
    else if x.preempted ≠ some .host then (s, none)
    else
      let s := s.modCtx c fun x => { x with preempted := none }
      ((s.replayQueues c).modCtx c fun x => { x with replaying := true }, none)

/-- SWITCH of a context to a version (R330). Openings up to this moment have happened (R337, Table 10.8). -/
def State.hostSwitch (s : State) (c : Nat) (ver : W16) : RegRes :=
  let s := s.openDue (s.now + 1)
  match s.ctx? c with
  | none => (s, none)
  | some x =>
    if !x.serve || ver ≠ x.admVer + 1 then s.schRefuse c .range
    else if x.switching then s.schRefuse c .busy
    else
      let base := x.rqBase + BitVec.ofNat 32 (s.rcntReleased x)
      let s := s.modCtx c fun x => { x with admVer := ver, switching := true, replaced := 0, released := 0, rqBase := base }
      let s := (List.range x.lcount).foldl (fun (s : State) l =>
        s.modLayer x l fun y => { y with released := false, replaced := false, bad := false }) s
      (s.switchCheck c, none)

/-- A write of SCH_CTX_CMD (R339). -/
def State.schCmd (s : State) (c : Nat) (w : W32) : RegRes :=
  let pre := w.getLsbD 31
  let res := w.getLsbD 30
  let swi := w.getLsbD 16
  if s.loadSch || s.loadCtx c then (s, some .busy)
  else if fld w 17 13 != 0 || (!swi && fld w 0 16 != 0) then s.schRefuse c .rsvdSet
  else if decide (b2n pre + b2n res + b2n swi > 1) || (s.ctx? c).isNone then s.schRefuse c .range
  else if pre then (s.hostPreempt c, none)
  else if res then s.hostResume c
  else if swi then s.hostSwitch c (w.setWidth 16)
  else (s, none)

/-- Offset of a context's SCH_CTX_CMD. -/
def schCmdOff (c : Nat) : Nat := schBase + 0x40014 + 0x40 * c

/-- SCH_PREEMPT (R334). -/
def execSchPreempt (ctx : Nat) (tee : Bool) (s : State) : Host.Outcome State Fault Refusal :=
  guardWf (ctxOk ctx) s <| s.hostWrite 0 (schCmdOff ctx) .sch tee fun s => s.schCmd ctx 0x80000000

/-- PREEMPT_COMPLETE (R334). -/
def execPreemptComplete (ctx : Nat) (s : State) : Host.Outcome State Fault Refusal := guardWf (ctxOk ctx) s <| s.preemptDone ctx

/-- SCH_RESUME (R335). -/
def execSchResume (ctx : Nat) (tee : Bool) (s : State) : Host.Outcome State Fault Refusal :=
  guardWf (ctxOk ctx) s <| s.hostWrite 0 (schCmdOff ctx) .sch tee fun s => s.schCmd ctx 0x40000000

/-- SCH_SWITCH (R330). -/
def execSchSwitch (ctx : Nat) (ver : W16) (tee : Bool) (s : State) : Host.Outcome State Fault Refusal :=
  guardWf (ctxOk ctx) s <| s.hostWrite 0 (schCmdOff ctx) .sch tee fun s => s.schCmd ctx (0x10000#32 ||| ver.setWidth 32)

/-- LAYER_RELEASE (R331). -/
def execLayerRelease (ctx : Nat) (s : State) : Host.Outcome State Fault Refusal := guardWf (ctxOk ctx) s <| s.layerRelease ctx

/-- A write of SCH_CTL. -/
def State.schCtl (s : State) (w : W32) : RegRes :=
  if s.loadSch then (s, some .busy)
  else if fld w 3 28 != 0 then (s, some .rsvdSet)
  else if w.getLsbD 31 then s.schCommitGo
  else (s, none)

/-- SCH_COMMIT (R319, R320). -/
def execSchCommit (tee : Bool) (s : State) : Host.Outcome State Fault Refusal :=
  .next <| s.hostWrite 0 schBase .sch tee fun s => s.schCtl 0x80000000

/-- SCH_COMMIT_EFFECT (R319). -/
def execSchCommitEffect (s : State) : Host.Outcome State Fault Refusal :=
  .next <| match s.sch.pend with | some e => if s.now ≥ e then s.commitEffect e else s | none => s

/-- SLOT_OPEN (R321). -/
def execSlotOpen (entry : Nat) (s : State) : Host.Outcome State Fault Refusal := guardWf (entryOk entry) s <| s.slotOpen entry

/-- SLOT_CLOSE (R317, R323). -/
def execSlotClose (entry : Nat) (s : State) : Host.Outcome State Fault Refusal := guardWf (entryOk entry) s <| s.slotClose entry

/-- The next cycle of the table in effect begins; every slot of the last one has closed. -/
def State.cycleNext (s : State) : State :=
  let t := s.sch.cycT + bankCycle s.bankNow
  if !s.tableOn || decide (s.now < t) || (match s.sch.pend with | some e => decide (e ≤ t) | none => false) then s
  else
    let s := s.sch.opened.foldl (fun (s : State) i => s.slotClose i) s
    { s with sch := { s.sch with cycT := t, cycles := s.sch.cycles + 1, opened := [] } }

/-- CYCLE_BOUNDARY (R317, R319). -/
def execCycleBoundary (s : State) : Host.Outcome State Fault Refusal := .next <| s.cycleNext

end Sys2Proof.Machine
end

