-- ==== Sys2Proof/Machine/ServeOps.lean ====
section
/-! DEFINITION. Requests served on this module: fabric REQs in a context's windows, pushes from other modules, and host
accesses through the BAR4 window, each of which may wait for a fill (R134, R215, R261 to R264, R358, R446 to R448). -/
namespace Sys2Proof

/-- How a request served here ends or waits. -/
inductive ServeRes where
  /-- the status, and the bytes of a read -/
  | reply (st : Status) (data : Option (List Byte))
  | hold (wait tag : Option Nat)
deriving DecidableEq, Repr

/-- The push `(hi, lo)` is newer than the recorded one (R262, R263): by step and ordinal, or by serial. -/
def pushNewer (serial : Bool) (hi lo : Nat) (r : PushRec) : Bool :=
  if serial then
    let d := (hi * 2 ^ 16 + lo + 2 ^ 48 - (r.hi * 2 ^ 16 + r.lo)) % 2 ^ 48
    d != 0 && decide (d < 2 ^ 47)
  else
    let d := (hi + 2 ^ 32 - r.hi) % 2 ^ 32
    (d != 0 && decide (d < 2 ^ 31)) || (d = 0 && decide (r.lo < lo))

/-- Runs of enabled bytes with their offsets. -/
def byteRuns : Nat → List (Option Byte) → List (Nat × List Byte) → List (Nat × List Byte)
  | _, [], acc => acc
  | i, none :: bs, acc => byteRuns (i + 1) bs acc
  | i, some b :: bs, acc =>
    match acc.getLast? with
    | some (o, r) => if o + r.length = i then byteRuns (i + 1) bs (acc.dropLast ++ [(o, r ++ [b])]) else byteRuns (i + 1) bs (acc ++ [(i, [b])])
    | none => byteRuns (i + 1) bs [(i, [b])]

end Sys2Proof

namespace Sys2Proof.Machine

/-! Fabric requests -/

/-- Answer a request: RDATA when a read has data, ACK otherwise (R261). -/
def State.reply (s : State) (k : Packet) (st : Status) (data : Option (List Byte)) : State :=
  let op := if data.isSome then 1 else 2
  let pay := match data with
    | some bs => bytesToWords (ceilDiv (k.addr % 4 + bs.length) 4) (List.replicate (k.addr % 4) 0 ++ bs)
    | none => []
  s.send .job (mkPacket 1 op s.fab.self k.src k.ctx k.epoch k.seqNo 0 st.code pay)

/-- Serve a READ (R261, R222, R223). `fly` marks an access that has waited. -/
def State.serveRead (s : State) (fly : Bool) (k : Packet) (res : OpRes) : State × ServeRes :=
  let a := k.addr
  let n := k.aux % 2 ^ 9
  if localRange a = .t1 || localRange a = .t2 then
    match s.winReadErr ⟨fly, true, .job⟩ k.ctx a n res with
    | (s, .got bs bad) => (s, .reply (if bad.isEmpty then .ok else .parity) (some bs))
    | (s, .wait w) => (s, .hold (some w) none)
    | (s, .fail st) => (s, .reply st none)
  else if localRange a = .t3 then
    if s.t3Denied then (s, .reply .denied none)
    else let (s, tag) := s.t3Read none (t3Addr a) n; (s, .hold none (some tag))
  else (s, .reply .range none)

/-- Serve a WRITE (R250, R261); words that fail on a path leave their destination poisoned (R222, R223). -/
def State.serveWrite (s : State) (fly : Bool) (k : Packet) (res : OpRes) : State × ServeRes :=
  let a := k.addr
  let bs := ((wordsToBytes k.pay).drop (a % 4)).take (k.aux % 2 ^ 9)
  if localRange a = .t1 || localRange a = .t2 then
    let (s, bad) := s.winErrs k.ctx a bs.length res
    match s.winWrite ⟨fly, true, .job⟩ k.ctx a bs bad with
    | (s, .done) => (s, .reply (if bad.isEmpty then .ok else .parity) none)
    | (s, .wait w) => (s, .hold (some w) none)
    | (s, .fail st) => (s, .reply st none)
  else if localRange a = .t3 then
    if s.t3Denied then (s, .reply .denied none) else (s.t3Out (.t3Write (t3Addr a) bs false), .reply .ok none)
  else (s, .reply .range none)

/-- Serve a PUSH: applied at most once, in the order its tile issued it (R13, R134, R262, R263). -/
def State.servePush (s : State) (k : Packet) : State × ServeRes :=
  let q := k.addr
  let tile := fld (k.pw 9) 0 16
  let lo := fld (k.pw 9) 16 16
  let hi := (k.pw 8).toNat
  let serial := s.stepless k.ctx
  if q ≥ 262144 || tile ≥ 2 ^ 15 then (s, .reply .rsvdSet none)
  else if tile ≥ 25600 then (s, .reply .range none)
  else
    match s.pushRefused q k.ctx with
    | some st => (s, .reply st none)
    | none =>
      let old := s.fab.pushRecs.find? fun r => r.queue = q && r.src = k.src && r.tile = tile
      if (match old with | some r => !pushNewer serial hi lo r | none => false) then (s, .reply .ok none)
      else if (s.fab.served.any fun x => x.pkt.op = 3 && x.pkt.addr = q) || (s.queue q).full then (s, .hold none none)
      else
        match s.appendEntry .job q (pushBytes k.ctx (k.pay.take 8)) with
        | (s, .done) =>
          let rs := s.fab.pushRecs.filter fun r => !(r.queue = q && r.src = k.src && r.tile = tile)
          ({ s with fab := { s.fab with pushRecs := rs ++ [⟨q, k.src, tile, hi, lo⟩] } }, .reply .ok none)
        | (s, .wait w) => (s, .hold (some w) none)
        | (s, .fail st) => (s, .reply st none)

/-- Perform a request by its kind. -/
def State.serveOp (s : State) (fly : Bool) (k : Packet) (res : OpRes) : State × ServeRes :=
  match k.op with
  | 1 => s.serveRead fly k res
  | 2 => s.serveWrite fly k res
  | _ => s.servePush k

/-- Answer a request that has been performed, or hold it. -/
def State.serveEnd (k : Packet) (res : OpRes) (r : State × ServeRes) : State :=
  match r.2 with
  | .reply st data => r.1.reply k st data
  | .hold w tag => { r.1 with fab := { r.1.fab with served := r.1.fab.served ++ [⟨k, w, tag, res⟩] } }

/-- Perform a request, answer it, or hold it. -/
def State.serve (s : State) (fly : Bool) (k : Packet) (res : OpRes) : State := State.serveEnd k res (s.serveOp fly k res)

/-- A held request goes on: when its page wait is over with a failure, that is its answer (R358). -/
def State.serveAgain (s : State) (x : Served) : State :=
  let back := fun (s : State) => { s with fab := { s.fab with served := s.fab.served ++ [x] } }
  if (s.ctx? x.pkt.ctx).isNone then s.dropWait? (if x.pkt.op = 3 then none else x.wait)
  else if x.tag.isSome then back s
  else if x.pkt.op = 3 then s.serve true x.pkt x.res
  else if !s.waitOver x.wait then back s
  else
    let st := s.waitRes x.wait
    let s := s.dropWait? x.wait
    if st ≠ .ok then s.reply x.pkt st none else s.serve true x.pkt x.res

/-- Every held request is looked at again, in order of arrival. -/
def State.serveHeld (s : State) : State :=
  s.fab.served.foldl (fun (s : State) x => s.serveAgain x) { s with fab := { s.fab with served := [] } }

/-! The BAR4 window -/

/-- Errors of the part of an access from its byte `pos` on, `w` 64-byte words after its first. -/
def OpRes.part (r : OpRes) (pos w : Nat) : OpRes :=
  match r with
  | .tier ce ue => .tier (if pos = 0 then ce else 0) ((ue.filter fun i => decide (i ≥ w)).map (· - w))
  | .path hop ws => .path hop ((ws.filter fun i => decide (i ≥ pos / 4)).map (· - pos / 4))
  | r => r

/-- The read of one page's part of a BAR4 access: bytes, all zero where it cannot be performed or a word is poisoned
(R447). -/
def State.bar4ReadPart (s : State) (x : Bar4Wait) (a n : Nat) (st : Status) : State × Except Nat (List Byte × Option Status) :=
  let zero := List.replicate n (0 : Byte)
  if st ≠ .ok then (s, .ok (zero, some st))
  else if localRange a ≠ .t1 && localRange a ≠ .t2 then (s, .ok (zero, some .range))
  else
    match s.winReadErr ⟨x.wait.isSome, true, .job⟩ x.ctx a n (OpRes.part x.res x.pos (a / 64 - x.addr / 64)) with
    | (s, .got bs bad) =>
      (s, .ok ((List.range n).map (fun i => if bad.contains i then 0 else bs.getD i 0), if bad.isEmpty then none else some .parity))
    | (s, .wait w) => (s, .error w)
    | (s, .fail st) => (s, .ok (zero, some st))

/-- The write of one page's part of a BAR4 access; it waits for a fill without a timeout (R447). -/
def State.bar4WritePart (s : State) (x : Bar4Wait) (a : Nat) (bs : List (Option Byte)) (st : Status) : State × Except Nat (Option Status) :=
  if st ≠ .ok then (s, .ok (some st))
  else if localRange a ≠ .t1 && localRange a ≠ .t2 then (s, .ok (some .range))
  else
    (byteRuns 0 bs []).foldl (fun (r : State × Except Nat (Option Status)) run =>
      match r.2 with
      | .ok none =>
        let (s, bad) := r.1.winErrs x.ctx (a + run.1) run.2.length
          (OpRes.part x.res (x.pos + run.1) ((a + run.1) / 64 - x.addr / 64))
        (match s.winWrite ⟨x.wait.isSome, false, .job⟩ x.ctx (a + run.1) run.2 bad with
         | (s, .done) => (s, .ok (if bad.isEmpty then none else some .parity))
         | (s, .wait w) => (s, .error w)
         | (s, .fail st) => (s, .ok (some st)))
      | _ => r) (s, .ok none)

/-- A BAR4 access is over: the read's bytes go to the host, and the first status it met is recorded once (R447). -/
def State.bar4End (s : State) (x : Bar4Wait) : State :=
  let s := if x.read then s.emit (.bar4 x.off x.got) else s
  match x.st with
  | some st => s.record 2 x.off (!x.read) st
  | none => s

/-- Bring a BAR4 access forward, page by page; `fuel` bounds the pages it may touch. -/
def State.bar4Go : Nat → State → Bar4Wait → State
  | 0, s, x => s.bar4End x
  | fuel + 1, s, x =>
    if x.pos ≥ x.n then s.bar4End x
    else
      let st := s.waitRes x.wait
      let s := s.dropWait? x.wait
      let a := x.addr + x.pos
      let n := min (x.n - x.pos) (pageSize - a % pageSize)
      let hold := fun (s : State) (w : Nat) => { s with hif := { s.hif with bar4 := s.hif.bar4 ++ [{ x with wait := some w }] } }
      let note := fun (e : Option Status) => x.st.orElse fun _ => e
      if x.read then
        match s.bar4ReadPart x a n st with
        | (s, .error w) => hold s w
        | (s, .ok (bs, e)) => State.bar4Go fuel s { x with pos := x.pos + n, got := x.got ++ bs, st := note e, wait := none }
      else
        match s.bar4WritePart x a ((x.data.drop x.pos).take n) st with
        | (s, .error w) => hold s w
        | (s, .ok e) => State.bar4Go fuel s { x with pos := x.pos + n, st := note e, wait := none }

/-- The BAR4 accesses whose waits are over go on. -/
def State.bar4Held (s : State) : State :=
  s.hif.bar4.foldl (fun (s : State) x =>
    if s.waitOver x.wait then State.bar4Go 4 s x else { s with hif := { s.hif with bar4 := s.hif.bar4 ++ [x] } })
    { s with hif := { s.hif with bar4 := [] } }

/-- What waited for a fill, for room in a queue, or for a die goes on. -/
def State.resume (s : State) : State := s.serveHeld.bar4Held

/-- An access through the BAR4 window (R446, R447, Table 15.4). -/
def State.bar4 (s : State) (read : Bool) (off n : Nat) (data : List (Option Byte)) (tee : Bool) (res : OpRes) : State :=
  let h := s.hif
  if s.barShut tee || decide (off + n > 2 ^ h.log2) then s
  else
    let x : Bar4Wait := ⟨read, off, h.winCtx, h.winBase + off, n, 0, [], data, none, none, res⟩
    if !h.winEn || s.sec.st ≠ .tenanted || (s.ctx? h.winCtx).isNone then
      s.bar4End { x with got := List.replicate n 0, st := some .denied }
    else State.bar4Go 4 s x

/-- BAR4_READ (R446, R447). -/
def execBar4Read (off n : Nat) (tee : Bool) (res : OpRes) (s : State) : Host.Outcome State Fault Refusal :=
  guardWf (bar4Ok off n) s <| s.bar4 true off n [] tee res

/-- BAR4_WRITE (R446, R447). -/
def execBar4Write (off : Nat) (bytes : List (Option Byte)) (tee : Bool) (res : OpRes) (s : State) : Host.Outcome State Fault Refusal :=
  guardWf (bar4Ok off bytes.length) s <| s.bar4 false off bytes.length bytes tee res

end Sys2Proof.Machine
end

