-- ==== Sys2Proof/Machine/HangOps.lean ====
section
/-! DEFINITION. The wait-for graph, its cycles, and long waits (R302, R370 to R373, R376). -/
namespace Sys2Proof

/-- The vertex is a node: a semaphore or a queue (R370). -/
def Vtx.isNode : Vtx → Bool
  | .sem _ _ => true
  | .queue _ => true
  | _ => false

/-- A breadth-first search for a way back to `start` along `edges`: paths grow at their heads. -/
def findCycle (edges : Vtx → List Vtx) (start : Vtx) : Nat → List (List Vtx) → List Vtx → Option (List Vtx)
  | 0, _, _ => none
  | fuel + 1, paths, seen =>
    if paths.isEmpty then none
    else
      let next := paths.flatMap fun p => match p with | v :: _ => (edges v).map fun w => w :: p | [] => []
      match next.find? fun p => p.head? = some start with
      | some p => some (p.drop 1).reverse
      | none =>
        let (new, seen) := next.foldl (fun (a : List (List Vtx) × List Vtx) p =>
          match p with
          | v :: _ => if a.2.contains v then a else (a.1 ++ [p], a.2 ++ [v])
          | [] => a) ([], seen)
        findCycle edges start fuel new seen

/-- Every edge of a cycle is there. -/
def cycleStands (edges : Vtx → List Vtx) (c : List Vtx) : Bool :=
  (c.zip (c.drop 1 ++ c.take 1)).all fun e => (edges e.1).contains e.2

end Sys2Proof

namespace Sys2Proof.Machine

/-- Nodes that a waiting stage waits on (R302); none for a stage that is not waiting. -/
def State.stageEdges (s : State) (n : Nat) : List Vtx :=
  match SMap.get? s.stages n with
  | none => []
  | some g =>
    if g.run.isSome || (s.readyRole g).isSome then []
    else
      let has := fun (q : Option Nat) => match q with | some q => s.roleHas q | none => false
      let gate := fun (x : Option (Nat × Nat)) (q : Option Nat) => match x, q with
        | some (gq, _), some q => if s.gateOpen x q then [] else [Vtx.queue gq]
        | _, _ => []
      (if has g.qb then gate g.gb g.qb else [])
        ++ (if has g.qf then gate g.gf g.qf ++ (if s.quotaHeld g then
              (match g.gb, g.qb with | some (q, _), _ => [Vtx.queue q] | none, some q => [Vtx.queue q] | none, none => []) else []) else [])
        ++ (if has g.qw then (match g.qb with | some q => [Vtx.queue q] | none => []) else [])
        ++ (if has g.qu then (match g.gu with | some (t, k) => [Vtx.sem t k] | none => []) else [])

/-- The dispatcher of a replacement queue holds descriptors back (R331). -/
def State.rqHeld (s : State) (q : Nat) : Bool :=
  let x := s.queue q
  s.isRq q && x.enable && x.fetch ≠ x.tail && !s.rqMay q

/-- Edges of a tile (Table 12.4, R372). -/
def State.tileEdges (s : State) (l : Nat) : List Vtx :=
  let t := s.tile l
  match t.wait with
  | some (.sem n _) => [.sem l n]
  | some (.qEmpty q) => [.queue q]
  | some (.qFull q) => [.queue q]
  | some .step => ((s.stepTiles (t.ctx.getD 1024)).filter fun u => (s.tile u).wait ≠ some .step).map Vtx.tile
  | _ =>
    if t.cpState ≠ .idle then []
    else
      let sts := (s.stages.filter fun e => s.inLgrp e.2.lgrp l && !(s.stageEdges e.1).isEmpty)
      let hold := (s.descs.filter fun e => e.2.st = .waiting).flatMap fun e =>
        match e.2.launchOf with
        | some (g, _, _) =>
          if s.inLgrp g l && !(sts.any fun x => x.2.lgrp = g) then
            (s.lgrpTiles g).filter fun h => match (s.tile h).ctx with | some c => c ≠ e.2.hdr.ctx | none => false
          else []
        | none => []
      (sts.map fun e => Vtx.stage e.1) ++ hold.map Vtx.tile

/-- History of a node in a context (R371). -/
def State.history (s : State) (c : Nat) (v : Vtx) : List Vtx :=
  match s.flt.suppliers.find? fun e => e.1 = (c, v) with
  | some e => e.2.map Vtx.tile
  | none => []

/-- Suppliers of a node that an agent waits on (Table 12.5). -/
def State.nodeEdges (s : State) (v : Vtx) : List Vtx :=
  match v with
  | .sem l n =>
    let c := (s.tile l).ctx.getD 1024
    let entry := match s.ctx? c with
      | some x => (match x.rq with
        | some q => if x.serve && (List.range x.lcount).any fun i => let y := s.layer x i; y.entryTile = l && y.entrySem = n then [Vtx.queue q] else []
        | none => [])
      | none => []
    s.history c v ++ entry
  | .queue q =>
    let x := s.queue q
    if x.tileKind then
      let full := s.tiles.any fun e => e.2.wait = some (.qFull q)
      let empty := s.tiles.any (fun e => e.2.wait = some (.qEmpty q)) || s.stages.any fun e => (s.stageEdges e.1).contains v
      (if empty then s.history x.ctx v else []) ++ (if full then [Vtx.tile x.tile] else [])
    else if s.rqHeld q && s.ctxIs x.ctx (·.bstep) then
      ((s.tiles.filter fun e => e.2.ctx = some x.ctx && e.2.active).filterMap fun e => s.logOf e.1).map Vtx.tile
    else []
  | _ => []

/-- Edges of the graph G (R372). -/
def State.edges (s : State) (v : Vtx) : List Vtx :=
  match v with
  | .tile l => s.tileEdges l
  | .stage n => s.stageEdges n
  | .disp q => if s.rqHeld q then [.queue q] else []
  | v => s.nodeEdges v

/-- Agents of this module that wait on something. -/
def State.waiters (s : State) : List Vtx :=
  (s.tiles.filter fun e => e.2.wait.isSome).filterMap (fun e => (s.logOf e.1).map Vtx.tile)
    ++ s.stages.map (fun e => Vtx.stage e.1) ++ (s.queues.filter fun e => s.rqHeld e.1).map fun e => Vtx.disp e.1

/-- One cycle through each node that an agent waits on. -/
def State.cycles (s : State) : List (List Vtx) :=
  let nodes := ((s.waiters.flatMap s.edges).filter Vtx.isNode).eraseDups
  let fuel := 2 * (s.tiles.length + s.stages.length + s.queues.length) + 4
  nodes.filterMap fun n => findCycle s.edges n fuel [[n]] [n]

/-- Partition of a vertex. -/
def State.vtxPart (s : State) (v : Vtx) : Option Nat :=
  let ofCtx := fun (c : Nat) => (s.ctx? c).map (·.part)
  match v with
  | .tile l => s.partOf l
  | .sem l _ => s.partOf l
  | .queue q => ofCtx (s.queue q).ctx
  | .disp q => ofCtx (s.queue q).ctx
  | .stage n => (SMap.get? s.stages n).bind fun g => ofCtx g.ctx

/-- When the present wait of an agent began. -/
def State.waitBegan (s : State) (v : Vtx) : Option Nat :=
  match v with
  | .tile l => (s.phys l).bind fun p => SMap.get? s.flt.waitAt p
  | .stage n => SMap.get? s.flt.waitAt (stageKey n)
  | _ => none

/-- DEV_PART_LONGWAIT: the longest present wait, in µs, on a node without a supplier (R376). -/
def State.longWait (s : State) (p : Nat) : Nat :=
  (s.waiters.filter fun v => s.vtxPart v = some p).foldl (fun m v =>
    if (s.edges v).any fun n => n.isNode && (s.nodeEdges n).isEmpty then
      (match s.waitBegan v with | some t => max m ((s.now - t) / 1000) | none => m)
    else m) 0

/-- The record of when each stage's present wait began, brought up to date. -/
def State.noteStages (s : State) : State :=
  s.stages.foldl (fun (s : State) e =>
    let k := stageKey e.1
    let w := if (s.stageEdges e.1).isEmpty then SMap.erase s.flt.waitAt k
      else if (SMap.get? s.flt.waitAt k).isSome then s.flt.waitAt else SMap.set s.flt.waitAt k s.now
    { s with flt := { s.flt with waitAt := w } }) s

end Sys2Proof.Machine
end

