-- ==== Sys2Proof/Machine/FaultCmds.lean ====
section
/-! DEFINITION. Timeouts, retirement, quenches, context resets, the hang detector and its replays, health scores
(R155, R290, R357 to R377, R384 to R386). -/
namespace Sys2Proof

/-- Health after an hour: a sixteenth is lost; below 2,048 the warning may come again (R384). -/
def decayScore (v : W16) (warned : Bool) : W16 × Bool :=
  let x := v - (v >>> 4)
  (x, warned && !x.ult 2048)

/-- Drift of a count from the one recorded at manufacture, in units of 0.01 %, positive when slower (R385). DESIGN CHOICE:
the fraction of a unit is cut off. -/
def driftOf (made cap : Nat) : Int := (((made : Int) - cap) * 10000).tdiv made

/-- Margins of a port's lanes in a measurement, and its corrected codewords since the last one (R384, R385). -/
def Fab.marginSample (f : Fab) (p : Nat) (ms : List (BitVec 8)) : Fab × List FEff :=
  f.onPort p fun x =>
    let low := (ms.filter fun m => decide (m.toInt < 15)).length
    let cw := x.cwNow
    let x := { x with margin := ms, cwRate := cw, cwNow := 0 }
    let (x, e1) := (List.range low).foldl (fun (a : Port × List FEff) _ => let (y, e) := a.1.addScore p 256; (y, a.2 ++ e)) (x, [])
    if cw.toNat > 1000000 then let (y, e2) := x.addScore p 64; (y, e1 ++ e2) else (x, e1)

end Sys2Proof

namespace Sys2Proof.Machine

/-! Remote operations (R357) -/

/-- REMOTE_MS have passed since a moment. -/
def State.remoteOver (s : State) (since : Nat) : Bool := decide (s.now ≥ since + s.flt.remoteMs.toNat * msNs)

/-- Count and record a remote timeout. -/
def State.countRemote (s : State) (c dst : Nat) : State :=
  ({ s with flt := { s.flt with toRemote := satInc s.flt.toRemote } }).ev 0x0402 7 c dst 0

/-- A MOVE's remote operation times out: ABANDONED, and PSN. -/
def State.pieceTimeout (s : State) (id k c : Nat) : State := (s.failPiece id k .abandoned).setFlag c true

/-- A remote transaction times out: its sequence number is retired. -/
def State.txnTimeout (s : State) (seq : Nat) : State :=
  match SMap.get? s.fab.txns seq with
  | none => s
  | some t =>
    if !s.remoteOver t.since then s
    else
      let s := ({ s with fab := { s.fab with txns := SMap.erase s.fab.txns seq } }).countRemote t.ctx t.dst
      match t.who with
      | .piece id k => s.pieceTimeout id k t.ctx
      | .push l pc => s.faultTile l .abandoned pc

/-- An operation that waits for its port's transaction limit times out. -/
def State.portTimeout (s : State) (id k : Nat) : State :=
  match s.desc? id with
  | some d =>
    match d.body with
    | .move b r =>
      (match SMap.get? r.pieces k with
       | some p =>
         let a := match p.st with
           | .reading .port => b.srcAt p.row p.off p.plane
           | .writing _ _ .port => some (b.dstAt p.row p.off)
           | _ => none
         (match a with
          | some a => if s.remoteOver p.since then (s.countRemote d.hdr.ctx (addrDev a)).pieceTimeout id k d.hdr.ctx else s
          | none => s)
       | none => s)
    | _ => s
  | none => s

/-- A remote TNG.PUSH that waits for its port's transaction limit times out. -/
def State.pushTimeout (s : State) (l : Nat) : State :=
  match s.pushSince l with
  | some since =>
    if !s.remoteOver since then s
    else
      let t := s.tile l
      let dst := match t.fetch with
        | .instr w _ => (match pushCheck w with | .ok (_, some d) => d | _ => s.selfDev)
        | _ => s.selfDev
      (s.countRemote (t.ctx.getD 0) dst).faultTile l .abandoned t.pc
  | none => s

/-- The wait of VEC.SRST for VOTED times out (R180). -/
def State.srstTimeout (s : State) (l : Nat) : State :=
  let t := s.tile l
  match t.vecJobs.find? fun j => j.vote.isNone with
  | some j =>
    match j.waitSince with
    | some since =>
      if s.remoteOver since then
        let s := s.countRemote (t.ctx.getD 0) s.selfDev
        (s.onTile l fun t => ({ t with vecJobs := t.vecJobs.erase j }, [])).faultTile l .abandoned j.pc
      else s
    | none => s
  | none => s

/-- A collective's result, or its DECIDE, has not come within REMOTE_MS of its DEADLINE (R288, R290). -/
def State.collTimeout (s : State) (id : Nat) : State :=
  match s.instOf id with
  | some i =>
    match i.body, s.group? i.key.cgrp with
    | some b, some g =>
      if i.phase ≠ .run || !s.remoteOver b.deadline then s
      else
        let dev := fun (r : Nat) => g.members.getD r 0
        if (b.op = .barrier || b.op = .vote) && g.rank ≠ 0 then
          let s := s.countRemote i.key.ctx (dev 0)
          let (n, s) := s.draw
          s.voteEnd i b.op 3 .late (BitVec.ofNat 32 (n.toNat % 2 ^ 15))
        else if (b.op = .allreduce || (b.op = .reduce && g.rank = b.root)) && i.result.isSome then
          match (othersOf g).find? fun r => !i.resultIn b g.rank r with
          | some r => (s.countRemote i.key.ctx (dev r)).instConclude g i b true
          | none => s
        else s
    | _, _ => s
  | none => s

/-- REMOTE_TIMEOUT (R357). -/
def execRemoteTimeout (op : RemoteOp) (s : State) : Host.Outcome State Fault Refusal :=
  .next <|
    match op with
    | .txn q => s.txnTimeout q
    | .piece id k => s.portTimeout id k
    | .push l => s.pushTimeout l
    | .srst l => s.srstTimeout l
    | .coll id => s.collTimeout id

/-! Fills (R358) -/

/-- The pieces of MOVEs that a page wait holds: descriptor, piece, context. -/
def State.piecesOn (s : State) (w : Nat) : List (Nat × Nat × Nat) :=
  s.descs.flatMap fun e =>
    match e.2.body with
    | .move _ r => (r.pieces.filter fun p => match p.2.st with
        | .reading (.local (some x)) => x = w
        | .writing _ _ (.local (some x)) => x = w
        | _ => false).map fun p => (e.1, p.1, e.2.hdr.ctx)
    | _ => []

/-- The collectives whose operation a page wait holds: descriptor, context. -/
def State.collsOn (s : State) (w : Nat) : List (Nat × Nat) :=
  s.descs.filterMap fun e =>
    match e.2.body with
    | .coll _ r => if (r.op.map (·.via)) = some (.local (some w)) then some (e.1, e.2.hdr.ctx) else none
    | _ => none

/-- FILL_TIMEOUT of a page wait (R358, R359): the fill itself goes on. -/
def execFillTimeout (wait : Nat) (s : State) : Host.Outcome State Fault Refusal :=
  .next <|
    match SMap.get? s.mem.waits wait with
    | none => s
    | some w =>
      if !w.timed || w.res.isSome || decide (s.now < w.since + s.flt.fillMs.toNat * msNs) then s
      else
        let o := s.mem.objOf w.key
        let s := { s with
          mem := { s.mem with waits := SMap.adj s.mem.waits wait fun w => { w with res := some .abandoned } }
          flt := { s.flt with toFill := satInc s.flt.toFill } }
        let s := match o with | some o => s.ev 0x0403 7 o.ctx o.home 0 | none => s
        let s := (s.piecesOn wait).foldl (fun (s : State) x => (s.dropWait wait).pieceTimeout x.1 x.2.1 x.2.2) s
        let s := (s.collsOn wait).foldl (fun (s : State) x => ((s.dropWait wait).collFail x.1 .abandoned).setFlag x.2 true) s
        s.resume

/-! Retirement and quenches -/

/-- A write of DEV_FLT_RETIRE (R361). -/
def State.retireReg (s : State) (w : W32) : RegRes :=
  if fld w 15 16 != 0 then (s, some .rsvdSet)
  else if !w.getLsbD 31 then (s, none)
  else
    let p := fld w 0 16
    if !ptileOk p || s.isRetired p || (decide (p % 4096 / 64 ≥ 50) && (s.logOf p).isNone) then (s, some .range)
    else (s.dueTile p 5, none)

/-- RETIRE_REQUEST (R361). -/
def execRetireRequest (ptile : W16) (tee : Bool) (s : State) : Host.Outcome State Fault Refusal :=
  .next <| s.hostWrite 0 (devBase + 0x200C) .devFlt tee fun s => s.retireReg (0x80000000#32 ||| ptile.setWidth 32)

/-- AUTOQ waits on a partition: retirements pend and it runs. -/
def State.autoqWaits (s : State) (p : Nat) : Bool :=
  s.flt.autoq && s.computeOn && (s.pendOf p).any s.ripe && (match s.part? p with | some x => x.st = .run | none => false)

/-- AUTOQ_QUENCH (R363). -/
def execAutoqQuench (part : Nat) (s : State) : Host.Outcome State Fault Refusal :=
  guardWf (partOk part) s <|
    if s.autoqWaits part && (s.flt.autoqMs = 0 || s.atBoundary part) then s.quenchAsk part 8 else s

/-- AUTOQ_TIMEOUT (R363). -/
def execAutoqTimeout (part : Nat) (s : State) : Host.Outcome State Fault Refusal :=
  guardWf (partOk part) s <|
    if s.autoqWaits part && ((s.pendOf part).any fun d => s.ripe d && decide (s.now ≥ d.since + s.flt.autoqMs.toNat * msNs)) then
      s.quenchAsk part 8
    else s

/-- Every mapped tile of a partition has passed BIST since MAINT began, or has failed it and is due for retirement, which the
quench of RESUME installs (R375). -/
def State.partTested (s : State) (p : Nat) (x : Part) : Bool :=
  (s.partTiles p).all fun l => match s.phys l with | some q => x.bistOk.contains q | none => true

/-- A write of DEV_PART_CTL (R365, R375, R386, R444). -/
def State.partCtl (s : State) (p : Nat) (w : W32) : RegRes :=
  let q := w.getLsbD 31
  let r := w.getLsbD 30
  let busy : Bool := match s.part? p with
    | some x =>
      let st : PartSt := x.st
      (q && decide (st = .quench ∨ st = .hang ∨ st = .maint)) || (r && decide (st = .maint) && !s.partTested p x)
    | none => false
  if busy then (s, some .busy)
  else if fld w 0 30 != 0 then (s, some .rsvdSet)
  else if q && r then (s, some .range)
  else if !q && !r then (s, none)
  else
    match s.part? p with
    | none => (s, some .range)
    | some (x : Part) => if r && decide (x.st ≠ PartSt.maint) then (s, some .range) else (s.quenchAsk p 1, none)

/-- Offset of DEV_PART_CTL. -/
def partCtlOff (p : Nat) : Nat := devBase + 0x20004 + 0x20 * p

/-- PARTITION_QUENCH (R365). -/
def execPartitionQuench (part : Nat) (tee : Bool) (s : State) : Host.Outcome State Fault Refusal :=
  guardWf (partOk part) s <| s.hostWrite 0 (partCtlOff part) .devFlt tee fun s => s.partCtl part 0x80000000

/-- QUENCH_COMPLETE (R365). -/
def execQuenchComplete (part : Nat) (s : State) : Host.Outcome State Fault Refusal :=
  guardWf (partOk part) s <| s.quenchDone part

/-- PARTITION_RESUME (R375). -/
def execPartitionResume (part : Nat) (tee : Bool) (s : State) : Host.Outcome State Fault Refusal :=
  guardWf (partOk part) s <| s.hostWrite 0 (partCtlOff part) .devFlt tee fun s => s.partCtl part 0x40000000

/-! Context reset -/

/-- A context reset ends a switch: every layer not yet replaced becomes FAILED, and its LV becomes ADMIT (R333). -/
def State.switchCut (s : State) (c : Nat) : State :=
  match s.ctx? c with
  | none => s
  | some x =>
    if !x.switching then s
    else
      let left := (List.range x.lcount).filter fun l => !(s.layer x l).replaced
      let s := left.foldl (fun (s : State) l =>
        (s.modLayer x l fun y => { y with lv := x.admVer, failed := true }).ev 0x04FF 7 c Status.poisoned.code 0) s
      s.modCtx c fun y => { y with switching := false, swErr := y.swErr || !left.isEmpty }

/-- The descriptors of a context in progress end ABANDONED with their completion actions (R155): the signals they make land
on tiles that the context still holds. -/
def State.endWork (s : State) (c : Nat) : State :=
  let s := ((s.landSigs c).closeColls c .abandoned).dropStep c
  let s := (s.ctxDescs c).foldl (fun (s : State) e => s.cutShort e.1 .abandoned) s
  ((s.ctxDescs c).foldl (fun (s : State) e => s.complete e.1) s).landSigs c

/-- A context reset (R155, R333, R367, R464); `src` is the SOURCE of Table 16.3. -/
def State.contextReset (s : State) (c src : Nat) : State :=
  let s := (s.endWork c).switchCut c
  let s := { s with
    fab := { s.fab with
      txns := s.fab.txns.filter fun e => e.2.ctx ≠ c
      pushOrd := s.fab.pushOrd.filter fun e => e.1 / 2 ^ 15 ≠ c }
    flt := { s.flt with suppliers := s.flt.suppliers.filter fun e => e.1.1 ≠ c } }
  let s := s.dropWork (fun _ t => t.ctx = some c) fun t => t.unitReset
  let s := (s.queues.filter fun e => e.2.bound && e.2.ctx = c).foldl (fun (s : State) e =>
    ((s.dropWait? e.2.wait).dropWait? e.2.pushWait).modQueue e.1 fun x => { x with enable := false, wait := none, pushWait := none }) s
  let part := match s.ctx? c with | some x => x.part | none => 0
  let s := s.modCtx c fun x => { x with
    flt := .run, fltStatus := .ok, fltSource := 0xFFFF, ovf := false, psn := false, voted := false
    preempted := none, preempting := none, replaying := false
    resets := satInc x.resets }
  (s.schAdvance part).resetRecord 1 src c

/-- A write of DEV_CTX_CTL (R367, R386). -/
def State.ctxCtl (s : State) (c : Nat) (w : W32) : RegRes :=
  let busy : Bool := match s.ctx? c with
    | some x => (match s.part? x.part with | some p => p.st = .quench || p.st = .hang | none => false)
    | none => false
  if w.getLsbD 31 && busy then (s, some .busy)
  else if fld w 0 31 != 0 then (s, some .rsvdSet)
  else if !w.getLsbD 31 then (s, none)
  else if (s.ctx? c).isNone then (s, some .range)
  else (s.contextReset c 1, none)

/-- CONTEXT_RESET (R155, R367). -/
def execContextReset (ctx : Nat) (tee : Bool) (s : State) : Host.Outcome State Fault Refusal :=
  guardWf (ctxOk ctx) s <| s.hostWrite 0 (devBase + 0x30004 + 0x10 * ctx) .devFlt tee fun s => s.ctxCtl ctx 0x80000000

/-! Hangs -/

/-- A confirmed cycle of a partition (R373, R374, R377). -/
def State.hangFound (s : State) (p : Nat) : State :=
  match s.part? p with
  | none => s
  | some x =>
    match x.st, x.hang.bind (·.cur) with
    | .run, _ => s.hangStart p
    | .hang, some (c, _) => s.suspectGuilty p c
    | _, _ => s

/-- One scan of the detector (R373). -/
def State.hangScan (s : State) : State :=
  let ended := s.flt.ended
  let sure := s.flt.scan.filter fun c => cycleStands s.edges c && !(c.any fun v => ended.contains v)
  let found := s.cycles
  let ps := (sure.filterMap fun c => c.findSome? s.vtxPart).eraseDups
  let s := { s with flt := { s.flt with scan := sure ++ (found.filter fun c => !sure.contains c), ended := [] } }
  let s := ps.foldl (fun (s : State) p => s.hangFound p) s
  (SMap.keys s.flt.parts).foldl (fun (s : State) p => s.hangCheck p) s

/-- HANG_SCAN (R373). -/
def execHangScan (s : State) : Host.Outcome State Fault Refusal :=
  .next <| if s.recurs .scan && s.computeOn then (s.recurred .scan).hangScan else s

/-- REPLAY_TIMEOUT: REPLAY_MS pass with no confirmed cycle (R374). -/
def execReplayTimeout (part : Nat) (s : State) : Host.Outcome State Fault Refusal :=
  guardWf (partOk part) s <|
    match (s.part? part).bind (·.hang) with
    | some h =>
      (match h.cur with
       | some (c, t) => if !h.ending && decide (s.now ≥ t + s.flt.replayMs.toNat * msNs) then s.suspectPass part c else s
       | none => s)
    | none => s

/-! Health (R384, R385) -/

/-- Every score of tiles and ports decays (R384). -/
def State.healthDecay (s : State) : State :=
  let hs := (s.flt.health.mapV fun _ h => let d := decayScore h.score h.warned; { h with score := d.1, warned := d.2 }).filter
    fun e => e.2 ≠ Health.reset
  let ps := (s.fab.ports.mapV fun _ x => let d := decayScore x.score x.warned; { x with score := d.1, warned := d.2 }).filter
    fun e => e.2 ≠ Port.reset
  { s with flt := { s.flt with health := hs }, fab := { s.fab with ports := ps } }

/-- HEALTH_DECAY (R384). -/
def execHealthDecay (s : State) : Host.Outcome State Fault Refusal :=
  .next <| if s.recurs .decay then (s.recurred .decay).healthDecay else s

/-- A tile's timing is measured (R384, R385). -/
def State.timeTile (s : State) (p : Nat) : State :=
  let d := driftOf (Sys2Proof.Config.madeCap p).toNat (s.brmOf p).cap.toNat
  let s := s.setHealth p { s.health p with marginValid := true, drift := BitVec.ofInt 16 d }
  if 200 ≤ d then s.addScore p 512 else s

/-- Physical tiles of a die whose monitors have a count. -/
def State.counted (s : State) (d : Nat) : List Nat :=
  (dieTiles d).filter fun p => (s.brmOf p).valid

/-- TIMING_MARGIN_DAILY: once per 24 h every tile of a die is measured, while the die is at 720 mV and in bin 13 (R384,
R385). -/
def execTimingMarginDaily (die : Nat) (s : State) : Host.Outcome State Fault Refusal :=
  guardWf (dieOk die) s <|
    if s.recurs (.timing die) && decide (s.dieMv die = 720) && decide (s.tbin die = 13) then
      (s.counted die).foldl (fun (s : State) p => s.timeTile p) (s.recurred (.timing die))
    else s

/-- OPTICAL_MARGIN_SAMPLE, once per second (R384, R385). -/
def execOpticalMarginSample (port : Nat) (margins : List (BitVec 8)) (s : State) : Host.Outcome State Fault Refusal :=
  guardWf (portOk port && decide (margins.length = 5)) s <|
    if s.recurs (.optical port) then (s.recurred (.optical port)).onFab fun f => f.marginSample port margins else s

end Sys2Proof.Machine
end

