-- ==== Sys2Proof/Machine/HrtOps.lean ====
section
/-! DEFINITION. The Hearth's maintenance activities: locks, BIST, margin sweeps, and what a restart or a handover makes
of them (R248, R405, R414, R417, R431 to R436). -/
namespace Sys2Proof

/-- Activities of Table 14.6. -/
def actBist : Nat := 0
/-- Margin sweep. -/
def actSweep : Nat := 1
/-- Firmware activation. -/
def actFw : Nat := 2
/-- Key rotation. -/
def actKey : Nat := 3
/-- Page scrub. -/
def actScrub : Nat := 4
/-- Link retrain. -/
def actLink : Nat := 5
/-- Laser swap. -/
def actLaser : Nat := 6

/-- Table 14.7: 2 conflicts always, 1 conflicts when scopes overlap, 0 compatible. -/
def actClash (a b : Nat) : Nat :=
  match min a b, max a b with
  | _, 2 => 2
  | 2, _ => 2
  | 0, 3 => 0
  | 0, _ => 1
  | 1, 1 => 2
  | 3, 3 => 2
  | 4, 4 => 2
  | 5, 5 => 1
  | 5, 6 => 1
  | 6, 6 => 1
  | _, _ => 0

/-- Die on which a BIST unit lies (Table 14.8); none for the references. -/
def bistDie (kind idx : Nat) : Option Nat :=
  match kind with
  | 0 => some (idx / 4096) | 1 => some (idx / 2) | 2 => some (idx / 4) | 3 => some (idx / 6) | 4 => some 0 | _ => none

/-- The unit exists (Table 14.8). -/
def bistUnitOk (kind idx : Nat) : Bool :=
  match kind with
  | 0 => ptileOk idx | 1 => decide (idx < 16) | 2 => decide (idx < 32) | 3 => portOk idx | 4 => idx = 0 | 5 => idx = 0
  | _ => false

/-- Duration of a test in ns (Table 14.8). -/
def bistNs (kind : Nat) : Nat :=
  match kind with
  | 0 => 2000000 | 1 => 1500000000 | 2 => 7000000000 | 3 => 1100000000 | 4 => 200000000 | _ => 100000000

/-- Scopes overlap, as the list under Table 14.7 has it; `a` is the lower activity. -/
def scopesMeet (a b : Lock) : Bool :=
  match a.act, b.act with
  | 0, 0 => a.unit = b.unit && a.scope = b.scope
  | 0, 1 => bistDie a.unit a.scope = some b.scope
  | 0, 4 => a.unit = 1 || a.unit = 2
  | 0, 5 => a.unit = 3 && a.scope = b.scope
  | 0, 6 => a.unit = 3 && a.scope / 6 = b.scope
  | 5, 6 => a.scope / 6 = b.scope
  | _, _ => a.scope = b.scope

/-- Two locks conflict (R431). -/
def lockClash (a b : Lock) : Bool :=
  match actClash a.act b.act with
  | 2 => true
  | 1 => if a.act ≤ b.act then scopesMeet a b else scopesMeet b a
  | _ => false

/-- The scope of a host's lock request names a unit (Table 14.6). -/
def lockScopeOk (act scope : Nat) : Bool :=
  match act with
  | 1 => decide (scope < 8) | 5 => decide (scope < 48) | 6 => decide (scope < 8) | _ => false

/-- ARG0 of a LOCK record: activity, scope, and 1 taken, 0 released, 2 refused. -/
def lockArg (l : Lock) (what : Nat) : Nat := l.act + l.scope * 2 ^ 8 + what * 2 ^ 24

end Sys2Proof

namespace Sys2Proof.Machine

/-- A record of a lock. -/
def State.lockEv (s : State) (l : Lock) (what : Nat) : State := s.ev 0x0604 0 0 (lockArg l what) 0

/-- The holder that a request conflicts with; a 65th lock meets the Hearth (R431). -/
def State.lockHeldBy (s : State) (l : Lock) : Option Lock :=
  match s.hrt.locks.find? fun h => lockClash l h with
  | some h => some h
  | none => if s.hrt.locks.length ≥ 64 then some ⟨5, 0, 7, 0, 0⟩ else none

/-- A lock is refused: HRT_LOCK_HOLDER names the holder (R431). -/
def State.lockRefuse (s : State) (l h : Lock) : State := ({ s with hrt := { s.hrt with holder := some h } }).lockEv l 2

/-- A lock is taken. -/
def State.lockGrant (s : State) (l : Lock) : State := ({ s with hrt := { s.hrt with locks := s.hrt.locks ++ [l] } }).lockEv l 1

/-- Locks are released. -/
def State.lockDrop (s : State) (f : Lock → Bool) : State :=
  let go := s.hrt.locks.filter f
  go.foldl (fun (s : State) l => s.lockEv l 0) { s with hrt := { s.hrt with locks := s.hrt.locks.filter fun l => !f l } }

/-! Margin sweeps (R433) -/

/-- Set the supply of a die. -/
def State.setDieMv (s : State) (d mv : Nat) : State := { s with hrt := { s.hrt with dieMv := SMap.setD s.hrt.dieMv d mv 0 } }

/-- A sweep of the die may not run: the die holds a tile of a partition with a context, or carries a slot (R433). -/
def State.dieBusy (s : State) (d : Nat) : Bool :=
  s.load.prects.any fun r => r.die = d && (!(s.partCtxs r.id).isEmpty || s.slotPart r.id)

/-- A sweep begins at 780 mV. -/
def State.sweepStart (s : State) (d : Nat) : State :=
  let was := s.dieMv d
  ({ s with hrt := { s.hrt with sweeps := s.hrt.sweeps ++ [(⟨d, 780, was, s.now⟩ : Sweep)] } }).setDieMv d 780

/-- A sweep ends and its lock is released; the supply goes back to what it was when `restore`. -/
def State.sweepEnd (s : State) (d : Nat) (restore : Bool) : State :=
  match s.hrt.sweeps.find? fun w => w.die = d with
  | none => s
  | some w =>
    let s := { s with hrt := { s.hrt with sweeps := s.hrt.sweeps.filter fun w => w.die ≠ d } }
    let s := if restore then s.setDieMv d w.was else s
    s.lockDrop fun l => l.act = actSweep && l.scope = d

/-- Every tile of the die reads a CAP_COUNT of 4,916 or more. -/
def State.dieFast (s : State) (d : Nat) : Bool := (dieTiles d).all fun p => decide (4916 ≤ (s.brmOf p).cap.toNat)

/-- The lowest supply of a die at which every tile made the floor is written to its margin; 0xFFFF where 780 mV did not
reach it (R433, Table 12.11). -/
def State.setMargin (s : State) (d mv : Nat) : State :=
  { s with flt := { s.flt with margins := SMap.modD s.flt.margins d DieMargin.reset fun x =>
      { x with valid := true, tbin := s.tbin d, vreq := BitVec.ofNat 16 mv } } }

/-- One step of a sweep: 10 ms at its supply are over (R433). -/
def State.sweepStep (s : State) (d : Nat) : State :=
  match s.hrt.sweeps.find? fun w => w.die = d with
  | none => s
  | some w =>
    if s.now < w.since + 10000000 then s
    else if s.dieFast d then
      if w.mv ≤ 640 then (s.setMargin d w.mv).sweepEnd d true
      else
        let s := { s with hrt := { s.hrt with sweeps := s.hrt.sweeps.map fun (x : Sweep) => if x.die = d then { x with mv := w.mv - 10, since := s.now } else x } }
        s.setDieMv d (w.mv - 10)
    else if w.mv ≥ 780 then (s.setMargin d 0xFFFF).sweepEnd d true
    else (s.setMargin d (w.mv + 10)).sweepEnd d true

/-! Locks that the host takes (R248, R432) -/

/-- A link retrain: a FAILED or MISMATCH port that no failed BIST holds trains; an UP port retrains (Table 8.4, R248). -/
def State.linkRetrain (s : State) (p : Nat) : State :=
  s.onFab fun f => f.onPort p fun x =>
    match x.state with
    | .failed | .mismatch => if x.bistBad || !x.en then (x, []) else x.goTo p .train s.now
    | .up => x.retrain p s.now
    | _ => (x, [])

/-- A write of HRT_LOCK_REQ (R431 to R433). -/
def State.lockReq (s : State) (w : W32) : RegRes :=
  let go := w.getLsbD 31
  let rel := w.getLsbD 30
  let l : Lock := ⟨1, 0, fld w 27 3, fld w 0 16, 0⟩
  let stat := fun (s : State) (st : Status) => { s with hrt := { s.hrt with lockStat := st } }
  let refuse := fun (s : State) (st : Status) => (stat s st, some st)
  let clash := if go && !rel && lockScopeOk l.act l.scope then s.lockHeldBy l else none
  match clash with
  | some h => refuse (s.lockRefuse l h) .busy
  | none =>
    if fld w 16 11 != 0 then refuse s .rsvdSet
    else if go && rel then refuse s .range
    else if !go && !rel then (s, none)
    else if !lockScopeOk l.act l.scope then refuse s .range
    else if rel then
      if !s.hrt.locks.contains l then refuse s .range
      else
        let s := if l.act = actSweep then s.sweepEnd l.scope true else s.lockDrop fun h => decide (h = l)
        (stat s .ok, none)
    else if l.act = actSweep && s.dieBusy l.scope then refuse s .denied
    else
      let s := stat (s.lockGrant l) .ok
      (if l.act = actSweep then s.sweepStart l.scope else if l.act = actLink then s.linkRetrain l.scope else s, none)

/-- A port's row: the port changes, and locks that its new state ends are released (R432). -/
def State.onPortRow (s : State) (p : Nat) (g : Port → Port × List FEff) : State :=
  let old := (s.fab.port p).state
  let s := s.onFab fun f => f.onPort p g
  let new := (s.fab.port p).state
  let s := if new = .up then s.lockDrop fun l => l.act = actLink && l.scope = p else s
  let quiet := (List.range 6).all fun i => (s.fab.port (p / 6 * 6 + i)).state ≠ .train
  if old = .train && new ≠ .train && quiet then s.lockDrop fun l => l.act = actLaser && l.scope = p / 6 else s

/-! BIST (R414, R434 to R436) -/

/-- R414: the request is accepted in this state. -/
def State.bistOpen (s : State) (kind idx : Nat) : Bool :=
  match s.sec.st with
  | .ownedIdle | .maintenance => true
  | .tenanted =>
    (kind = 0 && bistUnitOk 0 idx && (match s.logOf idx with | some l => (s.partOf l).isNone | none => true))
      || (kind = 3 && portOk idx && !(s.fab.port idx).en)
  | _ => false

/-- The preconditions of R435 that the block's own state shows. -/
def State.bistReady (s : State) (kind idx : Nat) : Bool :=
  match kind with
  | 0 =>
    let d := idx / 4096
    let mv := s.dieMv d
    decide (680 ≤ mv) && decide (mv ≤ 780) && (List.range 8).all fun i => !s.outside (8 * d + i) (-32768) (95 * 16)
  | 1 => !s.outside (64 + idx) (-32768) (85 * 16)
  | 2 => !s.outside (92 + idx / 4 / 4) (-32768) (85 * 16)
  | 3 => s.pwr.lasersOk.contains (idx / 6)
  | 4 => s.hif.linkUp && s.hif.rate = 6
  | _ => true

/-- The unit is zeroised before and after the test (R414). -/
def State.bistZero (s : State) (kind idx : Nat) : State :=
  match kind with
  | 0 => s.setPtile idx { (s.ptile idx).toDefaults with ctx := (s.ptile idx).ctx }
  | 3 => { s with fab := s.fab.setPort idx { s.fab.port idx with txBuf := [], rxPart := [], rxPkts := [] } }
  | _ => s

/-- ARG0 of a BIST record: status, kind and index. -/
def bistArg (kind idx : Nat) (st : Status) : Nat := st.code + kind * 2 ^ 8 + idx * 2 ^ 12

/-- A test's status goes to its requester, and is recorded. -/
def State.bistReport (s : State) (host : Bool) (kind idx : Nat) (st : Status) : State :=
  let s := if host then { s with hrt := { s.hrt with bistStat := st } } else s.emit (.mgmt 0x7E st [])
  s.ev 0x0605 0 0 (bistArg kind idx st) 0

/-- A running test is abandoned (R405, R417, R436). -/
def State.bistAbandon (s : State) (b : BistRun) : State :=
  let s := s.bistZero b.kind b.idx
  let s := { s with hrt := { s.hrt with bists := s.hrt.bists.filter (· ≠ b) } }
  let s := s.bistReport b.host b.kind b.idx .abandoned
  s.lockDrop fun l => l.act = actBist && l.unit = b.kind && l.scope = b.idx

/-- A request that R414 accepts, for a unit that exists, whose lock is free: the test starts, or ends with RANGE (R435,
R436, R461). -/
def State.bistGo (s : State) (host : Bool) (l : Lock) (precond : Bool) : State :=
  if !(precond && s.bistReady l.unit l.scope) then s.bistReport host l.unit l.scope .range
  else
    let s := s.lockGrant l
    let s := match bistDie l.unit l.scope with | some d => s.wakeDeep d | none => s
    let s := s.bistZero l.unit l.scope
    { s with hrt := { s.hrt with bists := s.hrt.bists ++ [(⟨l.unit, l.scope, host, s.now⟩ : BistRun)] } }

/-- A kind of test that is reserved, or a physical tile ID whose bit 15 is set (R10, R21). -/
def bistRsvd (kind idx : Nat) : Bool := decide (kind ≥ 6) || (kind = 0 && decide (2 ^ 15 ≤ idx))

/-- A write of HRT_BIST_REQ (R414, R436). `precond` is what the environment finds of the other preconditions. -/
def State.bistReq (s : State) (w : W32) (precond : Bool) : RegRes :=
  let kind := fld w 16 4
  let idx := fld w 0 16
  let l : Lock := ⟨1, 0, actBist, idx, kind⟩
  let go := w.getLsbD 31
  let clash := if go && s.bistOpen kind idx && bistUnitOk kind idx then s.lockHeldBy l else none
  if go && !s.bistOpen kind idx then (s, some .denied)
  else
    match clash with
    | some h => (s.lockRefuse l h, some .busy)
    | none =>
      if fld w 20 11 != 0 || bistRsvd kind idx then (s, some .rsvdSet)
      else if !bistUnitOk kind idx then (s, some .range)
      else if go then (s.bistGo true l precond, none)
      else (s, none)

/-- A BIST request by MCTP message (R436). -/
def State.bistMsg (s : State) (eid kind idx : Nat) (precond : Bool) : State :=
  let l : Lock := ⟨4, eid, actBist, idx, kind⟩
  let no := fun (s : State) (st : Status) => s.emit (.mgmt 0x7E st [])
  if !s.hrt.ready then s
  else if !s.bistOpen kind idx then no s .denied
  else if bistRsvd kind idx then no s .rsvdSet
  else if !bistUnitOk kind idx then no s .range
  else
    match s.lockHeldBy l with
    | some h => no (s.lockRefuse l h) .busy
    | none => s.bistGo false l precond

/-- Every frame of a die in a tier retires (R434). -/
def State.retireDie (s : State) (t d : Nat) : State :=
  let n := framesPerDie t
  let fs := ((List.range n).map (d * n + ·)).filter fun f => !(s.mem.retired t).contains f
  fs.foldl (fun (s : State) f => ({ s with mem := s.mem.retireFrame t f }).ev 0x0203 2 d (t + 4 * f) 0) s

/-- A tile of a partition in MAINT has been tested (R375). -/
def State.tileTested (s : State) (q : Nat) : State :=
  match (s.logOf q).bind s.partOf with
  | some p => s.modPart p fun x => if x.st = .maint && !x.bistOk.contains q then { x with bistOk := x.bistOk ++ [q] } else x
  | none => s

/-- What a failed unit leads to (R361, R434); RESUME installs the retirement of a failed tile (R375). -/
def State.bistFailed (s : State) (kind idx : Nat) : State :=
  match kind with
  | 0 => (s.dueTile idx 4).tileTested idx
  | 1 => s.retireDie 1 (idx / 2)
  | 2 => s.retireDie 2 (idx / 4)
  | 3 =>
    s.onFab fun f => f.onPort idx fun x =>
      let x := { x with bistBad := true }
      if x.state = .failed then (x, []) else x.goTo idx .failed s.now
  | _ => s

/-- What a passed unit leads to: a tile of a partition in MAINT has been tested (R375); a port held in FAILED is held no
longer (R434). -/
def State.bistPassed (s : State) (kind idx : Nat) : State :=
  match kind with
  | 0 => s.tileTested idx
  | 3 => { s with fab := s.fab.setPort idx { s.fab.port idx with bistBad := false } }
  | _ => s

/-- A test ends (R435, R436); a port whose laser unit has gone does not pass (Table 17.7). -/
def State.bistEnd (s : State) (kind idx : Nat) (pass : Bool) : State :=
  match s.hrt.bists.find? fun b => b.kind = kind && b.idx = idx with
  | none => s
  | some b =>
    if s.now < b.since + bistNs kind then s
    else
      let pass := pass && (kind ≠ 3 || s.pwr.lasersOk.contains (idx / 6))
      let s := { s with hrt := { s.hrt with bists := s.hrt.bists.filter (· ≠ b) } }
      let s := s.bistZero kind idx
      let s := { s with sec := { s.sec with failedUnits := s.sec.failedUnits.filter (· ≠ (kind, idx)) } }
      let s := if pass then s.bistPassed kind idx else s.bistFailed kind idx
      let s := s.bistReport b.host kind idx (if pass then .ok else .notInRange)
      s.lockDrop fun l => l.act = actBist && l.unit = kind && l.scope = idx

/-! Abandoning maintenance -/

/-- Running tests and sweeps are abandoned; a restart leaves a swept die's supply to the Bellows (R405, R417). -/
def State.abandonTests (s : State) (restore : Bool) : State :=
  let s := s.hrt.bists.foldl (fun (s : State) b => s.bistAbandon b) s
  s.hrt.sweeps.foldl (fun (s : State) w => s.sweepEnd w.die restore) s

/-- A patrol pass ends or is abandoned. -/
def State.scrubStop (s : State) : State :=
  ({ s with mem := { s.mem with scrubSince := none } }).lockDrop fun l => l.act = actScrub

end Sys2Proof.Machine
end

