-- ==== Sys2Proof/Machine/Mesh.lean ====
section
/-! DEFINITION. The mesh routes of R343: the tiles that a transfer between two logical tiles passes. No step takes time on a
route, so the routes bear on hop counts alone (R137). -/
namespace Sys2Proof

/-- Row of a physical tile on its die. -/
def meshRow (p : Nat) : Nat := p % 4096 / 64
/-- Column of a physical tile on its die. -/
def meshCol (p : Nat) : Nat := p % 64

/-- Numbers after `a` up to `b`, or down to it. -/
def stepsTo (a b : Nat) : List Nat :=
  if a ≤ b then (List.range (b - a)).map fun i => a + 1 + i else (List.range (a - b)).map fun i => a - 1 - i

/-- Within a die: along the column of `p`, then along the row of `q`. -/
def meshIn (p q : Nat) : List Nat :=
  let base := physDie p * 4096
  (stepsTo (meshRow p) (meshRow q)).map (fun r => base + r * 64 + meshCol p)
    ++ (stepsTo (meshCol p) (meshCol q)).map fun c => base + meshRow q * 64 + c

/-- The tile at which a route to `q` leaves the die of `p`, and the tile across the join: along the die row first, then the
die column. The coordinates in a die that is passed are those of `q`: DEDUCED (log entry 192). -/
def meshExit (p q : Nat) : Nat × Nat :=
  let d := physDie p
  let e := physDie q
  if d % 4 < e % 4 then (d * 4096 + meshRow q * 64 + 63, (d + 1) * 4096 + meshRow q * 64)
  else if e % 4 < d % 4 then (d * 4096 + meshRow q * 64, (d - 1) * 4096 + meshRow q * 64 + 63)
  else if d < e then (d * 4096 + 51 * 64 + meshCol q, (d + 4) * 4096 + meshCol q)
  else (d * 4096 + meshCol q, (d - 4) * 4096 + 51 * 64 + meshCol q)

/-- The physical tiles after `p` up to `q`; at most four joins lie between. -/
def meshWay : Nat → Nat → Nat → List Nat
  | 0, p, q => meshIn p q
  | n + 1, p, q =>
    if physDie p = physDie q then meshIn p q
    else
      let x := meshExit p q
      meshIn p x.1 ++ x.2 :: meshWay n x.2 q

end Sys2Proof

namespace Sys2Proof.Machine

/-- The physical tiles that a transfer from one logical tile to another passes, the last included: by the default rules, and
with a MESH entry by those rules to VIA and from there (R343). None when a tile of the route is unmapped. -/
def State.meshRoute (s : State) (src dst : Nat) : Option (List Nat) :=
  let leg := fun (a b : Nat) => match s.phys a, s.phys b with
    | some p, some q => some (meshWay 4 p q)
    | _, _ => none
  match SMap.get? s.load.mesh (src * 65536 + dst) with
  | none => leg src dst
  | some via => (leg src via).bind fun a => (leg via dst).map fun b => a ++ b

/-- Mesh hops between two logical tiles, die-edge joins included (R137). -/
def State.meshHops (s : State) (src dst : Nat) : Option Nat := (s.meshRoute src dst).map List.length

end Sys2Proof.Machine
end

