-- ==== Sys2Proof/Machine/LoadOps.lean ====
section
/-! DEFINITION. The sections of a bitstream: their entries, what each installs, and the checks of R348 (chapter 11;
R182, R253, R273, R277, R298, R299, R313, R329). -/
namespace Sys2Proof

/-- Records of `n` bytes of a section from byte `a`, with their offsets. -/
def recsFrom (bs : List Byte) (a k n : Nat) : List (Nat × List Byte) :=
  (List.range k).map fun i => (a + n * i, (bs.drop (a + n * i)).take n)

/-- Records of a section that is a plain table. -/
def recs (bs : List Byte) (n : Nat) : List (Nat × List Byte) := recsFrom bs 0 (bs.length / n) n

/-- A 32-bit word of a record. -/
def wd (r : List Byte) (o : Nat) : Nat := dn r o 4

/-- What the checks find of one entry of a section (R348): its offset, and whether it fails with RSVD_SET, RANGE or
DEGRADED. -/
structure EntChk where
  off : Nat
  rsvd : Bool
  range : Bool
  degr : Bool
deriving DecidableEq, Repr

/-- The first failure of a section: entry by entry, in the order RSVD_SET, RANGE, DEGRADED (R346, R348). -/
def sectFail (l : List EntChk) : Option (Status × Nat) :=
  l.findSome? fun e =>
    if e.rsvd then some (.rsvdSet, e.off) else if e.range then some (.range, e.off) else if e.degr then some (.degraded, e.off) else none

/-- The checks of records: each is given its index and its bytes. -/
def entChks (es : List (Nat × List Byte)) (rsvd range degr : Nat → List Byte → Bool) : List EntChk :=
  es.zipIdx.map fun e => ⟨e.1.1, rsvd e.2 e.1.2, range e.2 e.1.2, degr e.2 e.1.2⟩

/-- A check without DEGRADED. -/
def noDegr : Nat → List Byte → Bool := fun _ _ => false

/-- Key `i` stands earlier in the list (R348, duplicate keys). -/
def dupAt (ks : List Nat) (i : Nat) : Bool := (ks.take i).contains (ks.getD i 0)

/-- Key `i` does not exceed the one before (R348, ascending order). -/
def fallsAt (ks : List Nat) (i : Nat) : Bool := i != 0 && decide (ks.getD i 0 ≤ ks.getD (i - 1) 0)

/-- A table of records of `n` bytes ends within a record (R348). -/
def tailChk (bs : List Byte) (n : Nat) : List EntChk := [⟨bs.length - bs.length % n, false, bs.length % n != 0, false⟩]

/-- The 16-byte header of a section: 32-bit words from `o` on are reserved; `whole` tells that its counts agree with PLEN. -/
def headChk (bs : List Byte) (o : Nat) (whole : Bool) : List EntChk := [⟨o, !zeroBytes bs o 16, false, false⟩, ⟨0, false, !whole, false⟩]

/-! Section types (Table 11.4) -/

/-- The type is one of Table 11.4. -/
def sectKnown (t : Nat) : Bool := (decide (1 ≤ t) && decide (t ≤ 4)) || (decide (0x10 ≤ t) && decide (t ≤ 0x18))
/-- A frame section. -/
def sectFrame (t : Nat) : Bool := decide (t < 0x10)
/-- Fixed size of the content. -/
def sectSize (t : Nat) : Option Nat := match t with | 1 => some 16 | 4 => some 4608 | 0x15 => some 8192 | _ => none
/-- The section reloads without a full load. -/
def sectReload (t : Nat) : Bool := t = 4 || t = 0x12 || t = 0x14 || t = 0x15 || t = 0x16 || t = 0x17 || t = 0x18

/-! Records of Table 11.5 -/

/-- Rectangle record. -/
def rectOf (r : List Byte) : Rect where
  ctx := nbits (wd r 0) 20 12
  die := nbits (wd r 0) 16 3
  id := nbits (wd r 0) 0 16
  col0 := nbits (wd r 4) 16 8
  col1 := nbits (wd r 4) 24 8
  row0 := nbits (wd r 4) 0 8
  row1 := nbits (wd r 4) 8 8

/-- The rectangle lies within the die. -/
def Rect.ok (r : Rect) : Bool := decide (r.col0 ≤ r.col1) && decide (r.col1 ≤ 63) && decide (r.row0 ≤ r.row1) && decide (r.row1 ≤ 49)

/-- Two rectangles share a tile. -/
def Rect.meets (a b : Rect) : Bool :=
  a.die = b.die && decide (a.col0 ≤ b.col1) && decide (b.col0 ≤ a.col1) && decide (a.row0 ≤ b.row1) && decide (b.row0 ≤ a.row1)

/-- Reserved bits of a rectangle record; a partition's has CTX 0. -/
def rectRsvd (part : Bool) (r : List Byte) : Bool := nbit (wd r 0) 19 || nbits (wd r 0) 30 2 != 0 || (part && nbits (wd r 0) 20 12 != 0)

/-- A logical tile ID whose bit 15 is set (R22). -/
def tileRsvd (t : Nat) : Bool := nbit t 15

/-- A launch group is part of the rectangles' list. -/
def lgrpOf (rs : List Rect) (g : Nat) : List Rect := rs.filter fun r => r.id = g

/-- Header and tables of a CONTEXT section: contexts, launch-group rectangles, with offsets. -/
def ctxRecs (bs : List Byte) : List (Nat × List Byte) := recsFrom bs 16 (wd bs 0) 16
/-- Launch-group rectangles of a CONTEXT section. -/
def lgRecs (bs : List Byte) : List (Nat × List Byte) := recsFrom bs (16 + 16 * wd bs 0) (wd bs 4) 8
/-- Context named by a record. -/
def ctxIdOf (r : List Byte) : Nat := nbits (wd r 0) 0 12

/-- Queue that an entry binds. -/
def queueOf (r : List Byte) : Queue :=
  let w := wd r 0
  let b := dn r 8 8
  { Queue.reset with
    bound := true, ctx := nbits (wd r 4) 0 12, tileKind := nbit w 20, tileProd := nbit w 21, tcls := nbits w 22 2
    die := nbits w 24 3, tile := nbits (wd r 4) 16 16
    base := if nbit w 21 then nbits b 0 48 else 0
    rsz := if nbit w 21 then nbits b 48 5 else 4
    enable := false }

/-- The load enables the queue when it ends. -/
def queueAuto (r : List Byte) : Bool := nbit (wd r 0) 21 && nbit (dn r 8 8) 53

/-- Numerics that an entry gives. -/
def Ctx.setNumerics (x : Ctx) (r : List Byte) : Ctx :=
  { x with
    vote := nbit (wd r 0) 16, clean := BitVec.ofNat 16 (nbits (wd r 4) 16 16), grow := BitVec.ofNat 16 (nbits (wd r 4) 0 16)
    lsExp := toS 8 (nbits (wd r 8) 0 8), seed := BitVec.ofNat 64 (dn r 0x10 8), nrec := dn r 0x18 8 }

/-- DEV_NUM_FLAGS cleared (Table 11.9). -/
def Ctx.clearNumFlags (x : Ctx) : Ctx := { x with lateFlags := 0, lastResult := 0, voted := false, psn := false, ovf := false }

/-- A queue reference of a stage entry: EN and queue. -/
def stageQ (w : Nat) : Option Nat := if nbit w 31 then some (nbits w 0 20) else none
/-- A gate of a stage entry: queue and PER. -/
def stageG (w : Nat) : Option (Nat × Nat) := if nbit w 31 then some (nbits w 0 20, nbits w 20 8) else none
/-- The U gate: tile and semaphore. -/
def stageU (w : Nat) : Option (Nat × Nat) := if nbit w 31 then some (nbits w 0 16, nbits w 16 7) else none

/-- A stage as a load defines it (Tables 9.1 and 9.5). -/
def stageOf (r : List Byte) (ctx die : Nat) : Stage where
  qf := stageQ (wd r 0)
  qb := stageQ (wd r 4)
  qw := stageQ (wd r 8)
  qu := stageQ (wd r 12)
  gf := stageG (wd r 0x10)
  gb := stageG (wd r 0x14)
  gu := stageU (wd r 0x18)
  quota := nbits (wd r 0x1C) 24 8
  lgrp := nbits (wd r 0x1C) 0 16
  ctx := ctx
  die := die
  run := none
  tF := 0
  tB := 0
  tW := 0
  tU := 0
  tCredit := 0
  tInput := 0
  lastStep := 0
  minCap := 0xFFFF
  curMin := 0xFFFF
  launches := 0

/-- The configuration of a stage, without its counters and its launch. -/
def Stage.sameEntry (a b : Stage) : Bool :=
  a.qf = b.qf && a.qb = b.qb && a.qw = b.qw && a.qu = b.qu && a.gf = b.gf && a.gb = b.gb && a.gu = b.gu && a.quota = b.quota
    && a.lgrp = b.lgrp && a.ctx = b.ctx && a.die = b.die

/-- Role queues of a stage. -/
def Stage.roleQs (g : Stage) : List Nat := [g.qf, g.qb, g.qw, g.qu].filterMap id
/-- Gate queues of a stage with PER. -/
def Stage.gateQs (g : Stage) : List (Nat × Nat) := [g.gf, g.gb].filterMap id

/-- A layer as an entry of Table 10.6 gives it. -/
def layerOf (r : List Byte) : Layer :=
  { Layer.reset with
    rcnt := nbits (wd r 0) 23 8, entrySem := nbits (wd r 0) 16 7, entryTile := nbits (wd r 0) 0 16
    exitSem := nbits (wd r 4) 16 7, exitTile := nbits (wd r 4) 0 16 }

/-- Serving entries of a SCHEDULE section. -/
def servRecs (bs : List Byte) : List (Nat × List Byte) := recsFrom bs 16 (wd bs 0) 16
/-- Layer entries of a SCHEDULE section. -/
def layerRecs (bs : List Byte) : List (Nat × List Byte) := recsFrom bs (16 + 16 * wd bs 0) (wd bs 4) 8
/-- Offset of the bank image. -/
def bankOff (bs : List Byte) : Nat := 16 + 16 * wd bs 0 + 8 * wd bs 4
/-- The bank image. -/
def bankImg (bs : List Byte) : List Byte := (bs.drop (bankOff bs)).take (wd bs 8)

/-- Serving configuration that an entry gives a context. -/
def Ctx.setServing (x : Ctx) (r : List Byte) : Ctx :=
  { x with
    serve := true, lbase := nbits (wd r 4) 0 14, lcount := nbits (wd r 4) 16 13
    rq := if nbit (wd r 8) 31 then some (nbits (wd r 8) 0 20) else none
    rqBase := 0, admVer := BitVec.ofNat 16 (nbits (wd r 12) 0 16) }

/-- A COLLGROUP group record with its runs. -/
structure GrpRec where
  off : Nat
  hdr : List Byte
  runs : List (Nat × Nat)
  /-- the record and its runs lie within the section -/
  whole : Bool
deriving DecidableEq, Repr

/-- The group records of a COLLGROUP section. -/
def grpRecs : Nat → List Byte → Nat → List GrpRec
  | 0, _, _ => []
  | n + 1, bs, off =>
    let h := bs.take 16
    let k := nbits (wd h 8) 0 16
    let body := (bs.drop 16).take (4 * k)
    let rs := (List.range k).map fun i => (nbits (wd body (4 * i)) 16 16, nbits (wd body (4 * i)) 0 16)
    if bs.length < 16 + 4 * k then [⟨off, h, [], false⟩]
    else ⟨off, h, rs, true⟩ :: grpRecs n (bs.drop (16 + 4 * k)) (off + 16 + 4 * k)

/-- Region records of a COLLGROUP section. -/
def regRecs (bs : List Byte) : List (Nat × List Byte) := recsFrom bs 16 (wd bs 0) 32
/-- Group records of a COLLGROUP section. -/
def grpsOf (bs : List Byte) : List GrpRec := grpRecs (wd bs 4) (bs.drop (16 + 32 * wd bs 0)) (16 + 32 * wd bs 0)
/-- Bytes the groups take. -/
def grpsEnd (bs : List Byte) : Nat := (grpsOf bs).foldl (fun _ g => g.off + 16 + 4 * g.runs.length) (16 + 32 * wd bs 0)
/-- Members of a group in rank order. -/
def GrpRec.members (g : GrpRec) : List Nat := g.runs.flatMap fun r => (List.range r.1).map (r.2 + ·)
/-- A region as a record gives it. -/
def regionOf (r : List Byte) : Region := ⟨nbits (wd r 0) 16 16, nbits (wd r 4) 0 16, dn r 8 8, dn r 0x10 8, dn r 0x18 8⟩

/-- The image records of a section (Table 11.5); reading stops at one that runs past the end. -/
def imgRecs : Nat → List Byte → Nat → List ImgRec
  | 0, _, _ => []
  | n + 1, bs, off =>
    if bs.isEmpty then []
    else
      let r : ImgRec := {
        grp := nbit (wd bs 0) 16, id := nbits (wd bs 0) 0 16, off := off, addr := nbits (wd bs 4) 0 18, len := wd bs 8
        rsvd := nbits (wd bs 0) 17 15 != 0 || nbits (wd bs 4) 18 14 != 0 || wd bs 12 != 0
        data := (bs.drop 16).take (wd bs 8) }
      if bs.length < 16 + r.len then [r] else r :: imgRecs n (bs.drop (16 + r.len)) (off + 16 + r.len)

/-- Loaded tables of the fabric (Tables 8.7 and 8.8, FAB_TIME_CFG); a time configuration that changes puts the module
back on its primary parent. -/
def Fab.loadTables (f : Fab) (bs : List Byte) : Fab :=
  let f := (recsFrom bs 0 48 4).foldl (fun (f : Fab) e =>
    let p := e.1 / 4
    let w := wd e.2 0
    f.setPort p { f.port p with en := nbit w 31, kind := nbits w 29 2, peerPort := nbits w 16 6, peerDev := nbits w 0 16 }) f
  let ls := (recsFrom bs 0xC0 32 4).filterMap fun e =>
    let w := wd e.2 0
    if w = 0 then none
    else some ((e.1 - 0xC0) / 4,
      ({ v := nbit w 31, port := BitVec.ofNat 6 (nbits w 25 6), av := nbit w 24, alt := BitVec.ofNat 5 (nbits w 19 5) } : LocalEnt))
  let gs := (recsFrom bs 0x200 512 8).filterMap fun e =>
    let w := dn e.2 0 8
    if w = 0 then none
    else some ((e.1 - 0x200) / 8, ({
      v := nbit w 63, gw0 := BitVec.ofNat 5 (nbits w 58 5), gk0 := BitVec.ofNat 4 (nbits w 54 4)
      v1 := nbit w 53, gw1 := BitVec.ofNat 5 (nbits w 48 5), gk1 := BitVec.ofNat 4 (nbits w 44 4)
      av0 := nbit w 43, via0 := BitVec.ofNat 9 (nbits w 34 9), av1 := nbit w 33, via1 := BitVec.ofNat 9 (nbits w 24 9) } : GroupEnt))
  let t := wd bs 0x140
  let same := f.dmax = BitVec.ofNat 12 (nbits t 0 12) && f.primary = BitVec.ofNat 6 (nbits t 12 6) && f.backup = BitVec.ofNat 6 (nbits t 18 6)
  { f with
    locals := ls, groups := gs
    dmax := BitVec.ofNat 12 (nbits t 0 12), primary := BitVec.ofNat 6 (nbits t 12 6), backup := BitVec.ofNat 6 (nbits t 18 6)
    onBackup := f.onBackup && same, badRun := if same then f.badRun else 0 }

/-- A port's table entry. -/
def Port.entry (x : Port) : Bool × Nat × Nat × Nat := (x.en, x.kind, x.peerPort, x.peerDev)

/-- A port whose table entry changed returns to TRAIN; one that is disabled or dark goes DOWN, and one that a failed
test holds stays FAILED (R245, R352, R434). What it held is routed again under the new table, on which the spec is silent:
DESIGN CHOICE (log entry 191). -/
def Port.reload (x : Port) (p now : Nat) : Port × List FEff :=
  if x.bistBad then (x, [])
  else if x.en && decide (litLanes x.light ≥ 4) then
    let (y, e) := x.dropTx.goTo p .train now
    (y, e ++ [.reroute x.unsent])
  else if x.state = .down then (x, [])
  else x.goTo p .down now

/-- Checks of a FABRIC section (R253, R348). -/
def fabricChk (bs : List Byte) : List EntChk :=
  let en := fun p => decide (p < 48) && nbit (wd bs (4 * p)) 31
  let t := wd bs 0x140
  entChks (recsFrom bs 0 48 4)
      (fun _ e => nbits (wd e 0) 22 7 != 0 || nbits (wd e 0) 29 2 = 3 || nbits (wd e 0) 14 2 != 0)
      (fun p e => nbit (wd e 0) 31 && nbits (wd e 0) 29 2 != portRole p) noDegr
    ++ entChks (recsFrom bs 0xC0 32 4) (fun _ e => nbits (wd e 0) 0 19 != 0) noDegr noDegr
    ++ [⟨0x140, nbits t 24 8 != 0, !en (nbits t 12 6) || !en (nbits t 18 6), false⟩, ⟨0x144, !zeroBytes bs 0x144 0x200, false, false⟩]
    ++ entChks (recsFrom bs 0x200 512 8) (fun _ e => nbits (wd e 0) 0 24 != 0) noDegr noDegr

end Sys2Proof

namespace Sys2Proof.Machine

/-! The remap (R25 to R27, R343) -/

/-- Where a physical place leads through the retirement record. -/
def followRetired (rs : List (Nat × Option Nat)) : Nat → Nat → Option Nat
  | 0, p => some p
  | n + 1, p =>
    match rs.find? fun r => r.1 = p with
    | none => some p
    | some (_, none) => none
    | some (_, some q) => followRetired rs n q

/-- Effective physical tile of a logical tile (R343): its REMAP entry, else the replacement of its own place by the
retirement record, else that place. None where the tile so found is retired. -/
def State.effPhys (s : State) (l : Nat) : Option Nat :=
  match SMap.get? s.load.remapEnt l with
  | some p => if s.isRetired p then none else some p
  | none => followRetired s.flt.retired (s.flt.retired.length + 1) (identPhys l)

/-- Rebuild the remap from the loaded entries and the retirement record. -/
def State.rebuildRemap (s : State) : State :=
  let ls := SMap.keys s.load.remapEnt ++ s.flt.retired.filterMap fun r => if r.1 % 4096 < 3200 then some (identLog r.1) else none
  { s with remap := ls.foldl (fun (m : SMap (Option Nat)) l => SMap.setD m l (s.effPhys l) (some (identPhys l))) [] }

/-- Another logical tile has the same physical tile. -/
def State.remapClash (s : State) (l : Nat) : Bool :=
  match s.phys l with
  | none => false
  | some p => (s.remap.any fun e => e.1 ≠ l && e.2 = some p)
      || (decide (p % 4096 < 3200) && identLog p ≠ l && s.phys (identLog p) = some p)

/-! What each section installs (R343) -/

/-- IDENTITY. -/
def State.instIdentity (s : State) (bs : List Byte) : State :=
  let d := nbits (wd bs 0) 0 14
  { s with fab := { s.fab with idValid := true, group := d / 32, pos := d % 32, sysid := BitVec.ofNat 32 (wd bs 4) } }

/-- PARTITION. -/
def State.instPartition (s : State) (bs : List Byte) : State :=
  let rs := (recs bs 8).map fun e => rectOf e.2
  { s with
    load := { s.load with prects := rs }
    flt := { s.flt with parts := rs.foldl (fun (m : SMap Part) r => SMap.set m r.id Part.fresh) [] } }

/-- REMAP. -/
def State.instRemap (s : State) (bs : List Byte) : State :=
  ({ s with load := { s.load with remapEnt := (recs bs 4).foldl (fun (m : SMap Nat) (e : Nat × List Byte) => SMap.set m (nbits (wd e.2 0) 0 16) (nbits (wd e.2 0) 16 16)) [] } }).rebuildRemap

/-- CONTEXT. -/
def State.instContext (s : State) (bs : List Byte) : State :=
  let s := { s with load := { s.load with lrects := (lgRecs bs).map fun e => rectOf e.2 } }
  (ctxRecs bs).foldl (fun (s : State) e =>
    let c := ctxIdOf e.2
    let g := nbits (wd e.2 8) 0 16
    let s := { s with ctxs := SMap.set s.ctxs c (Ctx.fresh (nbits (wd e.2 0) 12 10) (if g = 0xFFFF then none else some g) s.now) }
    let s := s.setEpoch c (BitVec.ofNat 32 (wd e.2 4))
    { s with fab := s.fab.setCtx c { s.fab.ctx c with set := true } }) s

/-- QUEUE. -/
def State.instQueue (s : State) (bs : List Byte) : State :=
  (recs bs 16).foldl (fun (s : State) e => s.setQueue (nbits (wd e.2 0) 0 20) (queueOf e.2)) { s with queues := [] }

/-- TILECFG (R85). -/
def State.instTilecfg (s : State) (bs : List Byte) : State :=
  (recs bs 8).foldl (fun (s : State) e =>
    let l := nbits (wd e.2 0) 0 16
    let w := wd e.2 4
    s.setTile l { s.tile l with
      tol := BitVec.ofNat 5 (nbits w 12 5), abftAct := BitVec.ofNat 2 (nbits w 10 2), wchg := BitVec.ofNat 2 (nbits w 8 2)
      tngSel := some (BitVec.ofNat 6 (nbits w 0 6)) }) s

/-- Key of a mesh route: SRC and DST. -/
def meshKey (r : List Byte) : Nat := nbits (wd r 0) 0 16 * 65536 + nbits (wd r 0) 16 16

/-- MESH. -/
def State.instMesh (s : State) (bs : List Byte) : State :=
  { s with load := { s.load with mesh := (recs bs 8).foldl (fun (m : SMap Nat) e => SMap.set m (meshKey e.2) (nbits (wd e.2 4) 0 16)) [] } }

/-- NUMERICS; `part` clears DEV_NUM_FLAGS of the listed contexts (Table 11.9). -/
def State.instNumerics (s : State) (part : Bool) (bs : List Byte) : State :=
  (recs bs 32).foldl (fun (s : State) e =>
    s.modCtx (ctxIdOf e.2) fun x => let x := x.setNumerics e.2; if part then x.clearNumFlags else x) s

/-- Context and die of a stage entry: the owner of its launch group, the die of its queues. -/
def State.stageFor (s : State) (r : List Byte) : Stage :=
  let g := stageOf r 0 0
  let die := match g.roleQs with | q :: _ => (s.queue q).die | [] => 0
  { g with ctx := (s.lgrpCtx g.lgrp).getD 0, die := die }

/-- STAGE: entries equal to the ones in place keep their counters (Table 11.9). -/
def State.instStage (s : State) (bs : List Byte) : State :=
  (recs bs 32).foldl (fun (s : State) e =>
    let n := e.1 / 32
    if nbit (wd e.2 0x1C) 23 then
      let g := s.stageFor e.2
      match SMap.get? s.stages n with
      | some old => if old.sameEntry g then s else { s with stages := SMap.set s.stages n g }
      | none => { s with stages := SMap.set s.stages n g }
    else { s with stages := SMap.erase s.stages n }) s

/-- The serving entries and layers of a SCHEDULE section. In a partial load only the listed contexts' layer ranges
change (Table 11.9). -/
def State.instServing (s : State) (part : Bool) (bs : List Byte) : State :=
  let ls := layerRecs bs
  let s := if part then s else
    { s with sch := { s.sch with layers := (ls.zipIdx).foldl (fun (m : SMap Layer) e => SMap.setD m e.2 (layerOf e.1.2) Layer.reset) [] } }
  (servRecs bs).foldl (fun (s : State) e =>
    let c := ctxIdOf e.2
    let s := s.modCtx c fun x => x.setServing e.2
    -- the next switch begins with the entries of RQ not yet fetched (R331)
    let s := s.modCtx c fun x => { x with rqBase := (x.rq.map fun q => (s.queue q).fetch).getD 0 }
    match s.ctx? c with
    | none => s
    | some x =>
      (List.range x.lcount).foldl (fun (s : State) l =>
        let y := if part then (match ls[x.lbase + l]? with | some r => layerOf r.2 | none => Layer.reset)
          else SMap.getD s.sch.layers (x.lbase + l) Layer.reset
        { s with sch := { s.sch with layers := SMap.setD s.sch.layers (x.lbase + l) { y with lv := x.admVer } Layer.reset } }) s) s

/-- The slot table of a SCHEDULE section goes to bank A, or to the shadow bank in a partial load, and is committed
(R320, Table 11.9). -/
def State.instBank (s : State) (part : Bool) (bs : List Byte) : State :=
  if wd bs 8 = 0 then s
  else
    let img := Mem.wrN [] 0 (bankImg bs)
    if part then
      let s := { s with sch := if s.sch.bank then { s.sch with bankA := img } else { s.sch with bankB := img } }
      s.schCommitGo.1
    else
      -- both banks load empty but A; the commit swaps the banks, so A is the shadow of B
      ({ s with sch := { s.sch with bankA := img, bankB := [], bank := true } }).schCommitGo.1

/-- COLLGROUP: the listed groups and regions. -/
def State.instCollgroup (s : State) (bs : List Byte) : State :=
  let f := s.fab
  { s with fab := { f with
      regions := (regRecs bs).foldl (fun (m : SMap Region) e => SMap.set m (ctxIdOf e.2) (regionOf e.2)) f.regions
      cgroups := (grpsOf bs).foldl (fun (m : SMap CGroup) g =>
        SMap.set m (nbits (wd g.hdr 0) 0 10) ⟨nbits (wd g.hdr 0) 10 12, nbits (wd g.hdr 4) 16 14, g.members⟩) f.cgroups } }

/-- Install a section but IDENTITY, FABRIC, IMAGE and the slot table. -/
def State.instSect (s : State) (part : Bool) (ty : Nat) (bs : List Byte) : State :=
  match ty with
  | 2 => s.instPartition bs
  | 3 => s.instRemap bs
  | 0x10 => s.instContext bs
  | 0x11 => s.instQueue bs
  | 0x12 => s.instTilecfg bs
  | 0x13 => s.instMesh bs
  | 0x14 => s.instNumerics part bs
  | 0x15 => s.instStage bs
  | 0x16 => s.instServing part bs
  | 0x17 => s.instCollgroup bs
  | _ => s

/-! The checks of R348, over the block as the sections before have left it -/

/-- IDENTITY. -/
def identityChk (bs : List Byte) : List EntChk :=
  [⟨0, nbits (wd bs 0) 14 18 != 0, false, false⟩, ⟨8, !zeroBytes bs 8 16, false, false⟩]

/-- PARTITION. -/
def partitionChk (bs : List Byte) : List EntChk :=
  let es := recs bs 8
  let rs := es.map fun e => rectOf e.2
  entChks es (fun _ e => rectRsvd true e)
    (fun i e => let r := rectOf e; !r.ok || decide (r.id > 1023) || (rs.take i).any r.meets) noDegr ++ tailChk bs 8

/-- REMAP; `s` has the section's entries in place. -/
def State.remapChk (s : State) (bs : List Byte) : List EntChk :=
  let es := recs bs 4
  let lg := fun (r : List Byte) => nbits (wd r 0) 0 16
  let ph := fun (r : List Byte) => nbits (wd r 0) 16 16
  entChks es (fun _ e => tileRsvd (lg e) || tileRsvd (ph e))
    (fun i e => !tileOk (lg e) || !ptileOk (ph e) || logDie (lg e) ≠ physDie (ph e) || dupAt (es.map fun e => lg e.2) i || s.remapClash (lg e))
    (fun _ e => s.isRetired (ph e)) ++ tailChk bs 4

/-- CONTEXT; `s` has the section's contexts in place. -/
def State.contextChk (s : State) (bs : List Byte) : List EntChk :=
  let cs := ctxRecs bs
  let whole := decide (wd bs 0 ≤ 1024) && bs.length = 16 + 16 * wd bs 0 + 8 * wd bs 4
  headChk bs 8 whole ++ if !whole then [] else
    entChks cs
      (fun _ e => nbits (wd e 0) 22 10 != 0 || nbits (wd e 0) 10 2 != 0 || nbits (wd e 8) 16 16 != 0 || wd e 12 != 0)
      (fun i e =>
        let g := nbits (wd e 8) 0 16
        dupAt (cs.map fun e => ctxIdOf e.2) i || !(s.load.prects.any fun r => r.id = nbits (wd e 0) 12 10)
          || (g != 0xFFFF && s.lgrpCtx g ≠ some (ctxIdOf e))) noDegr
    ++ entChks (lgRecs bs) (fun _ e => rectRsvd false e)
      (fun _ e => let r := rectOf e; !r.ok || s.lgrpCtx r.id ≠ some r.ctx || !(r.tiles.all fun l => s.tileGiven r.ctx l))
      (fun _ e => (rectOf e).tiles.any fun l => (s.phys l).isNone)

/-- QUEUE. -/
def State.queueChk (s : State) (bs : List Byte) : List EntChk :=
  let es := recs bs 16
  entChks es
    (fun _ e =>
      let w := wd e 0
      let b := dn e 8 8
      let x := queueOf e
      nbits w 27 5 != 0 || nbits w 18 2 != 0 || nbits (wd e 4) 10 6 != 0 || nbits b 54 10 != 0 || x.tcls = 3
        || (x.tileKind && x.die != 0) || (!x.tileKind && x.tile != 0) || tileRsvd x.tile || (!x.tileProd && b != 0))
    (fun i e =>
      let x := queueOf e
      fallsAt (es.map fun e => nbits (wd e.2 0) 0 20) i || (s.ctx? x.ctx).isNone
        || (x.tileKind && (!tileOk x.tile || !s.tileGiven x.ctx x.tile)) || (x.tileProd && (!x.ringOk || x.base % 64 != 0)))
    noDegr ++ tailChk bs 16

/-- TILECFG. -/
def tilecfgChk (bs : List Byte) : List EntChk :=
  let es := recs bs 8
  let lg := fun (r : List Byte) => nbits (wd r 0) 0 16
  entChks es
    (fun _ e => nbits (wd e 0) 16 16 != 0 || nbits (wd e 4) 17 15 != 0 || nbits (wd e 4) 6 2 != 0
      || tileRsvd (lg e) || decide (nbits (wd e 4) 8 2 ≥ 2) || nbits (wd e 4) 10 2 = 3)
    (fun i e => fallsAt (es.map fun e => lg e.2) i || !tileOk (lg e)) noDegr ++ tailChk bs 8

/-- MESH: up to 65,536 routes. -/
def State.meshChk (s : State) (bs : List Byte) : List EntChk :=
  let es := recs bs 8
  let src := fun (r : List Byte) => nbits (wd r 0) 0 16
  let dst := fun (r : List Byte) => nbits (wd r 0) 16 16
  let via := fun (r : List Byte) => nbits (wd r 4) 0 16
  entChks es
    (fun _ e => nbits (wd e 4) 16 16 != 0 || tileRsvd (src e) || tileRsvd (dst e) || tileRsvd (via e))
    (fun i e => decide (i ≥ 65536) || !tileOk (src e) || !tileOk (dst e) || !tileOk (via e) || src e = dst e || via e = src e
      || via e = dst e || (s.partOf (src e)).isNone || (s.partOf (dst e)).isNone || dupAt (es.map fun e => meshKey e.2) i)
    noDegr ++ tailChk bs 8

/-- NUMERICS (R182). -/
def State.numericsChk (s : State) (bs : List Byte) : List EntChk :=
  let es := recs bs 32
  entChks es
    (fun _ e => nbits (wd e 0) 17 15 != 0 || nbits (wd e 0) 10 6 != 0 || nbits (wd e 8) 8 24 != 0 || wd e 12 != 0)
    (fun i e =>
      let c := ctxIdOf e
      let ls := toS 8 (nbits (wd e 8) 0 8)
      let n := dn e 0x18 8
      dupAt (es.map fun e => ctxIdOf e.2) i || (s.ctx? c).isNone || decide (ls < -24) || decide (24 < ls)
        || (nbit (wd e 0) 16 && s.stepless c) || n % 16 != 0 || !(localRange n = .t1 || localRange n = .t2))
    noDegr ++ tailChk bs 32

/-- Queues that a stage's entry names. -/
def State.stageNames (s : State) (e : List Byte) : List Nat :=
  if nbit (wd e 0x1C) 23 then let g := s.stageFor e; g.roleQs ++ g.gateQs.map (·.1) else []

/-- STAGE (R13, R299); `s` has the section's stages in place. -/
def State.stageChk (s : State) (bs : List Byte) : List EntChk :=
  let es := recs bs 32
  let off := fun (w : Nat) => !nbit w 31 && w != 0
  let q0 := fun (w : Nat) => nbits w 18 13 != 0 || off w
  let g0 := fun (w : Nat) => nbits w 28 3 != 0 || nbits w 18 2 != 0 || off w
  entChks es
    (fun _ r => if nbit (wd r 0x1C) 23 then
        q0 (wd r 0) || q0 (wd r 4) || q0 (wd r 8) || q0 (wd r 12) || g0 (wd r 0x10) || g0 (wd r 0x14)
          || nbits (wd r 0x18) 23 8 != 0 || off (wd r 0x18) || (nbit (wd r 0x18) 31 && nbit (wd r 0x18) 15)
          || nbits (wd r 0x1C) 16 7 != 0
      else !(r.all fun b => b = 0#8))
    (fun i r => nbit (wd r 0x1C) 23 &&
      (let g := s.stageFor r
       let c := s.lgrpCtx g.lgrp
       let qs := s.stageNames r
       c.isNone
        || (g.roleQs.any fun q => let x := s.queue q; !x.bound || some x.ctx ≠ c || x.tileKind || x.tileProd || x.die ≠ g.die)
        || (g.gateQs.any fun q => let x := s.queue q.1; !x.bound || some x.ctx ≠ c || !x.tileKind || q.2 = 0)
        || (match g.gu with | some (t, _) => !tileOk t || !s.tileGiven g.ctx t | none => false)
        || g.quota = 0 || qs.eraseDups.length ≠ qs.length || ((es.take i).any fun e => (s.stageNames e.2).any fun q => qs.contains q)))
    noDegr

/-- SCHEDULE (R313, R348, Table 10.2); `s` has the section's contexts and layers in place. -/
def State.scheduleChk (s : State) (bs : List Byte) : List EntChk :=
  let sv := servRecs bs
  let img := bankImg bs
  let m := Mem.wrN [] 0 img
  let whole := decide (wd bs 4 ≤ 16384) && bs.length = bankOff bs + wd bs 8
    && (wd bs 8 = 0 || (decide (8 ≤ wd bs 8) && wd bs 8 = 0x100 + 16 * nbits (dn img 4 4) 0 10))
  headChk bs 12 whole ++ if !whole then [] else
    entChks sv
      (fun _ e => nbits (wd e 0) 10 22 != 0 || nbits (wd e 4) 29 3 != 0 || nbits (wd e 4) 14 2 != 0
        || nbits (wd e 8) 18 13 != 0 || (!nbit (wd e 8) 31 && wd e 8 != 0) || nbits (wd e 12) 16 16 != 0)
      (fun i e =>
        let c := ctxIdOf e
        dupAt (sv.map fun e => ctxIdOf e.2) i || match s.ctx? c with
          | none => true
          | some x =>
            let mine := (List.range x.lcount).map fun l => s.layer x l
            decide (x.lcount > 4096) || s.stepless c || x.vote || decide (x.lbase + x.lcount > 16384)
              || (mine.any fun y => !s.tileGiven c y.entryTile || !s.tileGiven c y.exitTile || (y.rcnt != 0 && x.rq.isNone))
              || (match x.rq with | some q => (let z := s.queue q; !z.bound || z.ctx ≠ c || z.tileKind || z.tileProd) | none => false)
              || s.ctxs.any fun o => o.1 ≠ c && o.2.serve && overlaps x.lbase x.lcount o.2.lbase o.2.lcount) noDegr
    ++ entChks (layerRecs bs)
      (fun _ e => nbit (wd e 0) 31 || nbits (wd e 4) 23 9 != 0 || nbit (wd e 0) 15 || nbit (wd e 4) 15) noDegr noDegr
    ++ [⟨bankOff bs, wd bs 8 != 0 && (bankRsvd m || !zeroBytes img 8 0x100), wd bs 8 != 0 && (s.bankCheck m).isSome, false⟩]

/-- COLLGROUP; `s` has the section's groups and regions in place, `self` is this module's device ID. -/
def State.collgroupChk (s : State) (self : Nat) (bs : List Byte) : List EntChk :=
  let rs := regRecs bs
  let gs := grpsOf bs
  let whole := gs.length = wd bs 4 && (gs.all fun g => g.whole) && grpsEnd bs = bs.length
  let t1 := fun (a pages : Nat) => a % 0x200000 = 0 && decide (a + pages * 0x200000 ≤ 0x018000000000)
  headChk bs 8 whole ++ if !whole then [] else
    entChks rs (fun _ e => nbits (wd e 0) 10 6 != 0 || nbits (wd e 4) 16 16 != 0)
      (fun i e =>
        let r := regionOf e
        dupAt (rs.map fun e => ctxIdOf e.2) i || (s.ctx? (ctxIdOf e)).isNone || r.scrPages = 0 || !t1 r.scratch r.scrPages
          || !t1 r.late r.latePages || !t1 r.swap 47) noDegr
    ++ gs.zipIdx.map fun (g, i) =>
      let n := nbits (wd g.hdr 4) 0 15
      let ms := g.members
      let c := nbits (wd g.hdr 0) 10 12
      { off := g.off
        rsvd := nbits (wd g.hdr 0) 20 12 != 0 || nbits (wd g.hdr 4) 30 2 != 0 || nbit (wd g.hdr 4) 15
          || nbits (wd g.hdr 8) 16 16 != 0 || wd g.hdr 12 != 0
          || g.runs.any fun r => nbits r.2 14 2 != 0 || decide (r.2 + r.1 > 2 ^ 14)
        range := dupAt (gs.map fun g => nbits (wd g.hdr 0) 0 10) i || n = 0 || decide (n > 16384) || g.runs.isEmpty
          || decide (g.runs.length > 16384) || (g.runs.map (·.1)).sum ≠ n
          || (ms.filter (· = self)).length ≠ 1 || ms[nbits (wd g.hdr 4) 16 14]? ≠ some self
          || (s.ctx? c).isNone || (SMap.get? s.fab.regions c).isNone
        degr := false }

/-- Checks of one section but IMAGE (R348); `s` has it installed. -/
def State.sectChk (s : State) (self ty : Nat) (bs : List Byte) : List EntChk :=
  match ty with
  | 1 => identityChk bs
  | 2 => partitionChk bs
  | 3 => s.remapChk bs
  | 4 => fabricChk bs
  | 0x10 => s.contextChk bs
  | 0x11 => s.queueChk bs
  | 0x12 => tilecfgChk bs
  | 0x13 => s.meshChk bs
  | 0x14 => s.numericsChk bs
  | 0x15 => s.stageChk bs
  | 0x16 => s.scheduleChk bs
  | 0x17 => s.collgroupChk self bs
  | _ => []

/-- Install and check the sections in directory order; answers the first failure: section, status, offset. A variable
section of PLEN 0 is an empty table (R341). -/
def State.sectsChk (s : State) (part : Bool) (self : Nat) : List (Nat × Nat × List Byte) → Option (Nat × Status × Nat)
  | [] => none
  | (i, ty, bs) :: l =>
    if bs.isEmpty then State.sectsChk s part self l
    else
      let self := if ty = 1 then nbits (wd bs 0) 0 14 else self
      let s' := s.instSect part ty bs
      match sectFail (s'.sectChk self ty bs) with
      | some (st, o) => some (i, st, o)
      | none => State.sectsChk s' part self l

/-! Images -/

/-- Tiles that an image record writes; none when it lies outside the partition. -/
def State.imgTiles (s : State) (scope : Nat) (r : ImgRec) : Option (List Nat) :=
  let ls := if r.grp then s.lgrpTiles r.id else [r.id]
  if !ls.isEmpty && ls.all fun l => tileOk l && s.partOf l == some scope then some ls else none

/-- First failure of an image section: status and offset (R348, R12). -/
def State.imageChk (s : State) (scope : Nat) (bs : List Byte) : Option (Status × Nat) :=
  sectFail ((imgRecs (bs.length + 1) bs 0).map fun r =>
    { off := r.off
      rsvd := r.rsvd || (!r.grp && tileRsvd r.id)
      range := r.len % 16 != 0 || r.addr % 16 != 0 || decide (r.addr + r.len > 262144) || r.data.length ≠ r.len
        || (s.imgTiles scope r).isNone
      degr := false })

/-- Write an image section (R343, R349). -/
def State.imageWrite (s : State) (scope : Nat) (bs : List Byte) : State :=
  (imgRecs (bs.length + 1) bs 0).foldl (fun (s : State) r =>
    ((s.imgTiles scope r).getD []).foldl (fun (s : State) l => s.setTile l ((s.tile l).spdWrite r.addr r.data)) s) s

end Sys2Proof.Machine
end

