-- ==== Sys2Proof/Machine/LoadCmds.lean ====
section
/-! DEFINITION. The load engine: its checks, the end of the present program, full and partial loads (chapter 11). -/
namespace Sys2Proof

/-- A directory entry (Table 11.2). -/
def sectDirOf (r : List Byte) : SectDir where
  ty := nbits (wd r 0) 0 16
  sver := nbits (wd r 0) 16 4
  enc := nbit (wd r 0) 21
  rsvd := nbits (wd r 0) 22 10 + nbits (wd r 0) 20 1
  scope := wd r 4
  off := dn r 8 8
  len := dn r 0x10 8
  plen := dn r 0x18 8
  digest := (r.drop 0x20).take 48

/-- The directory of a container. -/
def Container.entries (c : Container) : List SectDir := (recs c.dir 80).map fun e => sectDirOf e.2

/-- SECTIONS. -/
def Container.count (c : Container) : Nat := nbits (wd c.hdr 12) 0 9
/-- KIND is partial load. -/
def Container.partial_ (c : Container) : Bool := nbits (wd c.hdr 4) 16 4 = 1
/-- NONCE. -/
def Container.nonce (c : Container) : W64 := BitVec.ofNat 64 (dn c.hdr 0x18 8)
/-- The container carries a frame section. -/
def Container.frame (c : Container) : Bool := c.entries.any fun e => sectFrame e.ty
/-- The container carries a program section. -/
def Container.program (c : Container) : Bool := c.entries.any fun e => !sectFrame e.ty
/-- Part of the signature block reads zero. -/
def Container.sigZero (c : Container) (a n : Nat) : Bool := zeroBytes c.sig a (a + n)

/-- Entries that fail, by index. -/
def badEntries (es : List SectDir) (f : SectDir → Bool) : Option Nat := es.findIdx? f

/-- Order 1 of Table 11.6: the header; `feat` bits 47 to 0 of DEV_FEATURES are set (R452). -/
def Container.hdrVersion (c : Container) (agreed : Nat) : Bool :=
  wd c.hdr 0 ≠ 0x53425A51 || nbits (wd c.hdr 4) 0 16 ≠ 1 || nbits (wd c.hdr 8) 0 16 = 0 || decide (nbits (wd c.hdr 8) 0 16 > agreed)
    || dn c.hdr 0x20 16 / 2 ^ 48 ≠ 0

/-- Order 2 of Table 11.6 on the header and the signature block. -/
def Container.hdrRsvd (c : Container) : Bool :=
  nbits (wd c.hdr 4) 20 12 ≠ 0 || nbits (wd c.hdr 8) 16 16 ≠ 0 || nbits (wd c.hdr 12) 9 23 ≠ 0 || !zeroBytes c.hdr 0x60 0x80
    || decide (nbits (wd c.hdr 4) 16 4 ≥ 2) || (!c.partial_ && !zeroBytes c.hdr 0x30 0x60) || !c.sigZero 0xD0 48
    || (c.sigZero 8 96 && !c.sigZero 0 8) || (c.sigZero 0x70 96 && !c.sigZero 0x68 8)
    || (!c.frame && !c.sigZero 8 96) || (!c.program && !c.sigZero 0x70 96)

/-- Order 2 on a directory entry: reserved bits, a reserved TYPE, the reserved bits of an IMAGE's SCOPE. -/
def SectDir.rsvdBad (e : SectDir) : Bool := e.rsvd ≠ 0 || !sectKnown e.ty || (e.ty = 0x18 && decide (e.scope ≥ 1024))

/-- Order 3 on the header (R340, R342). -/
def Container.hdrRange (c : Container) (len : Nat) (id : List Byte) : Bool :=
  let es := c.entries
  let has := fun t => es.any fun e => e.ty = t
  c.count = 0 || decide (c.count > 256) || es.length ≠ c.count || dn c.hdr 0x10 8 ≠ len
    || (!c.partial_ && (!has 1 || !has 2 || !has 4 || (c.program && !has 0x10)))
    || (c.partial_ && (c.hdr.drop 0x30).take 48 ≠ id)
    || decide (((es.filter fun e => e.ty ≠ 0x18).map (·.plen)).sum > 16 * 2 ^ 20)

/-- Order 3 on the entry with index `i` (R340 to R342). -/
def Container.entryRange (c : Container) (i : Nat) (e : SectDir) : Bool :=
  let es := c.entries
  e.off % 256 ≠ 0 || decide (e.off < 128 + 80 * c.count + 256) || decide (e.off + e.len > dn c.hdr 0x10 8)
    || ((es.take i).any fun d => overlaps d.off d.len e.off e.len)
    || (if e.enc then e.len ≠ e.plen + 16 * ceilDiv e.plen 65536 else e.len ≠ e.plen)
    || (match sectSize e.ty with | some n => e.plen ≠ n | none => false)
    || (match i with
        | 0 => false
        | j + 1 => match es[j]? with
          | some d => decide (e.ty < d.ty) || (e.ty = d.ty && (e.ty ≠ 0x18 || decide (e.scope ≤ d.scope)))
          | none => false)
    || e.enc = sectFrame e.ty || (e.ty ≠ 0x18 && e.scope ≠ 0) || (c.partial_ && !sectReload e.ty)

/-- Sections but IMAGE with their indices, types and contents. -/
def Container.tables (c : Container) : List (Nat × Nat × List Byte) :=
  (c.entries.zipIdx.filter fun e => e.1.ty ≠ 0x18).map fun e => (e.2, e.1.ty, c.sects.getD e.2 [])

/-- A signature names the key by its identifier and verifies under it (R344). -/
def keySigned (key : Option (List Byte)) (id : Nat) (msg sig : List Byte) : Bool :=
  match key with
  | some k => id = keyId k && ecdsaOk k msg sig
  | none => false

/-- IV of chunk `j` of the section with directory index `i` (R344): the 96-bit number, least significant byte first (R6). -/
def chunkIv (nonce : W64) (i j : Nat) : List Nat := leNums 12 (nonce.toNat * 2 ^ 32 + i % 256 * 2 ^ 24 + j)

/-- Decrypt the chunks of a section: its content, when every tag verifies (R344). -/
def chunksOpen (key : List Byte) (nonce : W64) (i : Nat) (entry stored : List Byte) (n : Nat) : Option (List Byte) :=
  (List.range n).foldl (fun (r : Option (List Byte)) j => r.bind fun a =>
    let c := ((stored.drop (65552 * j)).take 65552).map BitVec.toNat
    (gcmOpen (key.map BitVec.toNat) (chunkIv nonce i j) ((entry.take 32).map BitVec.toNat) (c.take (c.length - 16)) (c.drop (c.length - 16))).map
      fun x => a ++ x.map (BitVec.ofNat 8)) (some [])

/-- The content of the section that a directory entry of 80 bytes describes, when its DIGEST and its tags verify (R344). -/
def sectOpen (key : List Byte) (nonce : W64) (i : Nat) (entry stored : List Byte) : Option (List Byte) :=
  let e := sectDirOf entry
  if sha384 stored ≠ e.digest then none
  else if !e.enc then some stored
  else chunksOpen key nonce i entry stored (ceilDiv e.plen 65536)

/-- A directory entry's bytes. -/
def dirEntry (dir : List Byte) (i : Nat) : List Byte := (dir.drop (80 * i)).take 80

/-- The first section but IMAGE whose DIGEST or chunk tag fails. -/
def Container.badSect (c : Container) (key : List Byte) : Option Nat :=
  (List.range c.entries.length).find? fun i =>
    (sectDirOf (dirEntry c.dir i)).ty ≠ 0x18 && (sectOpen key c.nonce i (dirEntry c.dir i) (c.sects.getD i [])).isNone

/-- The container with its sections decrypted. -/
def Container.opened (c : Container) (key : List Byte) : Container :=
  { c with sects := (List.range c.entries.length).map fun i => (sectOpen key c.nonce i (dirEntry c.dir i) (c.sects.getD i [])).getD [] }

/-- What OSIG signs: the header and the directory entries of the frame sections (R344). -/
def Container.osigMsg (c : Container) : List Byte :=
  c.hdr ++ (recs c.dir 80).flatMap fun e => if sectFrame (sectDirOf e.2).ty then e.2 else []
/-- OSIG. -/
def Container.osig (c : Container) : List Byte := (c.sig.drop 8).take 96
/-- What TSIG signs: the header, the directory and OSIG (R344). -/
def Container.tsigMsg (c : Container) : List Byte := c.hdr ++ c.dir ++ c.osig
/-- TSIG. -/
def Container.tsig (c : Container) : List Byte := (c.sig.drop 0x70).take 96

/-- Contexts that the STAGE and COLLGROUP sections name. -/
def Container.ctxsNamed (c : Container) (lgrpCtx : Nat → Option Nat) (old : List Nat) : List Nat :=
  c.tables.flatMap fun e => match e.2.1 with
    | 0x15 => old ++ (recs e.2.2 32).filterMap fun r => if nbit (wd r.2 0x1C) 23 then lgrpCtx (nbits (wd r.2 0x1C) 0 16) else none
    | 0x17 => ((regRecs e.2.2).map fun r => ctxIdOf r.2) ++ (grpsOf e.2.2).map fun g => nbits (wd g.hdr 0) 10 12
    | _ => []

/-- What the check phase stages of a container whose sections are decrypted. -/
def Container.staged (c : Container) (named : List Nat) : Staged where
  dir := c.dir
  nonce := c.nonce
  named := named
  full := !c.partial_
  sects := c.tables.map fun e => e.2
  images := (c.entries.zipIdx.filter fun e => e.1.ty = 0x18).map fun e => (e.1.scope, e.2)
  tiles := (c.tables.filter fun e => e.2.1 = 0x12).flatMap fun e => (recs e.2.2 8).map fun r => (nbits (wd r.2 0) 0 16, r.2)
  nums := (c.tables.filter fun e => e.2.1 = 0x14).flatMap fun e => (recs e.2.2 32).map fun r => (ctxIdOf r.2, r.2)
  serv := (c.tables.filter fun e => e.2.1 = 0x16).flatMap fun e => (servRecs e.2.2).map fun r => (ctxIdOf r.2, r.2)
  hasSched := c.tables.any fun e => e.2.1 = 0x16
  id := sha384 (c.hdr ++ c.dir)
  prog := if c.program then some (sha384 ((recs c.dir 80).flatMap fun e => if sectFrame (sectDirOf e.2).ty then [] else e.2)) else none

/-- The sweep of a full load (R343, R349): scratchpads and unit state; the configuration returns to reset values, the
counters stay. -/
def Tile.swept (t : Tile) : Tile :=
  { t.unitReset with
    spd := [], spdUe := [], abftAct := Tile.reset.abftAct, wchg := Tile.reset.wchg, tol := Tile.reset.tol, tngSel := Tile.reset.tngSel }

end Sys2Proof

namespace Sys2Proof.Machine

/-! Ending a load -/

/-- Key identifier of an optional key; 0 when absent. -/
def keyIdOf (k : Option (List Byte)) : Nat := match k with | some k => keyId k | none => 0

/-- A load completes: STATE, US, event record, MSI-X (R346, R352). -/
def State.loadEnd (s : State) (st : Status) : State :=
  let us := min ((s.now - s.load.since) / 1000) 0xFFFFFFFF
  let s := { s with load := { s.load with st := .idle, staged := none, us := BitVec.ofNat 32 us } }
  let s := s.ev 0x0503 10 0 st.code us
  if s.load.irqen then s.msix s.load.vec else s

/-- A load fails: LAST_ERR, ERR_SECT, ERR_OFF (R346). -/
def State.loadFail (s : State) (st : Status) (sect off : Nat) : State :=
  ({ s with load := { s.load with err := true, lastErr := st, errSect := sect % 256, errOff := BitVec.ofNat 32 (min off 0xFFFFFFFF) } }).loadEnd st

/-- Contexts, queues, stages, collectives and the tables of SCH and of the present load are gone (R349). -/
def State.dropProgram (s : State) : State :=
  let s := (SMap.keys s.descs).foldl (fun (s : State) i => s.forget i) s
  let f := s.fab
  let s := { s with
    ctxs := [], queues := [], descs := [], sigs := [], lastStart := [], stages := []
    sch := { Sch.reset with start := s.sch.start, err := s.sch.err, lastErr := s.sch.lastErr }
    fab := { f with txns := [], served := [], pushRecs := [], pushOrd := [], pushSerial := [], serialSave := [], cgroups := []
                    insts := [], done := [], late := [], regions := [], dropped := [] }
    load := { s.load with program := false, progDigest := [], prects := [], lrects := [], mesh := [], remapEnt := [] }
    flt := { s.flt with parts := [], scan := [], suppliers := [], waitAt := [], ended := [] }
    time := { s.time with lastRead := [] }
    mem := { s.mem with waits := s.mem.waits.filter fun w => s.hif.bar4.any fun b => b.wait = some w.1 } }
  s.rebuildRemap

/-- Steps 1 and 2 of the apply phase: the present program ends, and every tile is swept (R349); `src` is the SOURCE of
Table 16.3. -/
def State.endProgram (s : State) (src : Nat) : State :=
  let s := (SMap.keys s.ctxs).foldl (fun (s : State) c => s.contextReset c src) s
  let s := (SMap.keys s.descs).foldl (fun (s : State) i => s.complete i) s
  ((SMap.keys s.flt.parts).foldl (fun (s : State) p => s.resetRecord 2 src p) s).dropProgram.mapTiles (fun _ _ => true) Tile.swept

/-! The check phase -/

/-- The block as a full load finds it, for the checks of its sections. -/
def State.bare (s : State) : State :=
  { s with
    ctxs := [], queues := [], stages := [], sch := Sch.reset
    load := { s.load with prects := [], lrects := [], mesh := [], remapEnt := [] }
    fab := { s.fab with cgroups := [], regions := [] } }.rebuildRemap

/-- The AES part of the tenant load key. -/
def State.loadKey (s : State) : List Byte := match s.sec.tload with | some k => k.2 | none => []

/-- Orders 1 to 4 of Table 11.6: status, section, offset. -/
def State.containerChk (s : State) (c : Container) : Option (Status × Nat × Nat) :=
  let es := c.entries
  let at_ := fun (st : Status) (o : Option Nat) => o.map fun i => (st, i, 0)
  let idxs := es.zipIdx
  let hdr := fun (b : Bool) (st : Status) => if b then some (st, 0, 0) else none
  let first := fun (f : SectDir → Nat → Bool) => (idxs.find? fun x => f x.1 x.2).map (·.2)
  (hdr (c.hdrVersion s.load.abi) .version).orElse fun _ =>
  (at_ .version (first fun e _ => e.sver ≠ 1)).orElse fun _ =>
  (hdr c.hdrRsvd .rsvdSet).orElse fun _ =>
  (at_ .rsvdSet (first fun e _ => e.rsvdBad)).orElse fun _ =>
  (hdr (c.hdrRange s.load.len.toNat s.load.id) .range).orElse fun _ =>
  (at_ .range (first fun e i => c.entryRange i e)).orElse fun _ =>
  (hdr (!(s.sec.st = .tenanted || (s.sec.st = .ownedIdle && !c.program))) .denied).orElse fun _ =>
  (hdr (c.frame && !keySigned (s.sec.owner) (dn c.sig 0 8) c.osigMsg c.osig) .denied).orElse fun _ =>
  (hdr (c.program && !keySigned (s.sec.tload.map (·.1)) (dn c.sig 0x68 8) c.tsigMsg c.tsig) .denied).orElse fun _ =>
  (hdr ((c.frame && (match s.sec.ownerNonce with | some n => decide (c.nonce.toNat ≤ n.toNat) | none => false))
    || (c.program && (match s.sec.tenantNonce with | some n => decide (c.nonce.toNat ≤ n.toNat) | none => false))) .denied).orElse fun _ =>
  at_ .denied (c.badSect s.loadKey)

/-- A context runs on a partition (R86): a LAUNCH on one of its tiles has started and not completed. -/
def State.partRunning (s : State) (p : Nat) : Bool :=
  s.descs.any fun e => match e.2.body with
    | .launch _ g _ _ _ => e.2.st = .running && (s.lgrpTiles g).any fun l => s.partOf l == some p
    | _ => false

/-- The condition of Table 11.9 for one section holds. -/
def State.reloadOk (s : State) (ty : Nat) (bs : List Byte) : Bool :=
  match ty with
  | 0x12 => (recs bs 8).all fun e => match s.partOf (nbits (wd e.2 0) 0 16) with | some p => !s.partRunning p | none => true
  | 0x14 => (recs bs 32).all fun e => (s.ctxDescs (ctxIdOf e.2)).all fun d => d.2.st = .waiting
  | 0x15 =>
    let new := s.instStage bs
    let quiet := fun (c : Nat) => s.stages.all fun g => g.2.ctx ≠ c || g.2.run.isNone
    (List.range 256).all fun n =>
      let a := SMap.get? s.stages n
      let b := SMap.get? new.stages n
      a = b || ((match a with | some g => quiet g.ctx | none => true) && (match b with | some g => quiet g.ctx | none => true))
  | 0x16 => s.sch.pend.isNone && (servRecs bs).all fun e => !s.ctxIs (ctxIdOf e.2) fun x => x.switching || x.bstep
  | 0x17 =>
    let cs := (regRecs bs).map fun e => ctxIdOf e.2
    let gs := (grpsOf bs).map fun g => nbits (wd g.hdr 0) 0 10
    s.fab.insts.all fun i => !i.isOpen || !(gs.contains i.key.cgrp || cs.contains i.key.ctx)
  | _ => true

/-- The condition of Table 11.9 for an IMAGE section holds. -/
def State.imageOk (s : State) (p : Nat) : Bool :=
  (s.partCtxs p).all fun c => (s.ctxIs c fun x => x.preempted.isSome) || !(s.holdersOf p).contains c

/-- First failing condition of Table 11.9, by section. -/
def State.reloadBusy (s : State) (c : Container) : Option Nat :=
  (c.entries.zipIdx.find? fun e =>
    if e.1.ty = 0x18 then !s.imageOk e.1.scope else !s.reloadOk e.1.ty (c.sects.getD e.2 [])).map (·.2)

/-- The container is accepted: its NONCE is kept for each key that signs it (R345). -/
def State.keepNonce (s : State) (c : Container) : State :=
  { s with sec := { s.sec with
      ownerNonce := if c.frame then some c.nonce else s.sec.ownerNonce
      tenantNonce := if c.program then some c.nonce else s.sec.tenantNonce } }

/-- Dies that the apply phase of a load needs. -/
def State.loadDies (s : State) (g : Staged) : List Nat :=
  if g.full then List.range 8
  else ((g.images.flatMap fun x => s.partDies x.1) ++ g.tiles.map fun x => logDie x.1).eraseDups

/-- The check phase has read and checked everything but the images (R346 to R349). -/
def State.loadChecked (s : State) (r : CheckRead) : State :=
  if s.t3Denied then s.loadFail .denied 0 0
  else
    match r with
    | .failed e => s.loadFail e.status 0 0
    | .read c =>
      match s.containerChk c with
      | some (st, i, o) => s.loadFail st i o
      | none =>
        let c := c.opened s.loadKey
        let old := { s with flt := { s.flt with retired := s.load.record } }
        let base := if c.partial_ then old else old.bare
        match State.sectsChk base c.partial_ s.selfDev c.tables with
        | some (i, st, o) => s.loadFail st i o
        | none =>
          match if c.partial_ then s.reloadBusy c else none with
          | some i => s.loadFail .busy i 0
          | none =>
            let g := c.staged (c.ctxsNamed s.lgrpCtx ((s.stages.map fun e => e.2.ctx).eraseDups))
            let s := s.keepNonce c
            let s := if g.full then s.endProgram 9 else s
            let s := { s with load := { s.load with st := .apply, staged := some g } }
            (s.loadDies g).foldl (fun (s : State) d => s.wakeDeep d) s

/-! The apply phase -/

/-- Read the images of a load one by one: their contents, and the first failure: directory index, status, offset (R344,
R348, R350). -/
def State.imagesRead (s : State) (g : Staged) : List (Nat × Nat) → List (List Byte) → Option HostErr →
    List (Nat × List Byte) × Option (Nat × Status × Nat)
  | [], _, _ => ([], none)
  | (_, i) :: _, [], e => ([], some (i, (e.getD .timeout).status, 0))
  | (p, i) :: l, b :: bs, e =>
    match sectOpen s.loadKey g.nonce i (dirEntry g.dir i) b with
    | none => ([], some (i, .denied, 0))
    | some x =>
      match s.imageChk p x with
      | some (st, o) => ([], some (i, st, o))
      | none => let (xs, f) := s.imagesRead g l bs e; ((p, x) :: xs, f)

/-- Write the images of a load. -/
def State.imagesWrite (s : State) (l : List (Nat × List Byte)) : State :=
  l.foldl (fun (s : State) x => s.imageWrite x.1 x.2) s

/-- Sweep the scratchpads of a partition. -/
def State.sweepPart (s : State) (p : Nat) : State :=
  s.mapTiles (fun pt _ => s.inPart p pt) fun t => { t with spd := [], spdUe := [] }

/-- Retirements that were due at START are installed by the full load (R354, R363). -/
def State.installRipe (s : State) : State := s.installAll (s.flt.due.filter s.ripe)

/-- R350: a failure in the apply phase. -/
def State.applyFail (s : State) (g : Staged) (st : Status) (sect off : Nat) : State :=
  if g.full then s.installRipe.loadFail st sect off
  else
    let ps := g.images.map (·.1)
    let s := ps.foldl (fun (s : State) p => s.sweepPart p) s
    let s := ps.foldl (fun (s : State) p => (s.partCtxs p).foldl (fun (s : State) c => s.enterFaulted c st 0xFFFF none) s) s
    s.loadFail st sect off

/-- FABRIC is installed: changed ports return to TRAIN (R352). -/
def State.instFabric (s : State) (bs : List Byte) : State :=
  let old := s.fab
  let s := { s with fab := s.fab.loadTables bs }
  ((List.range 48).filter fun p => (old.port p).entry ≠ (s.fab.port p).entry).foldl (fun (s : State) p =>
    s.onFab fun f => f.onPort p fun x => x.reload p s.now) s

/-- The sections that are installed last: IDENTITY and FABRIC. -/
def State.instFrame (s : State) (g : Staged) : State :=
  g.sects.foldl (fun (s : State) e => if e.2.isEmpty then s else if e.1 = 1 then s.instIdentity e.2 else if e.1 = 4 then s.instFabric e.2 else s) s

/-- Tables but IDENTITY and FABRIC. -/
def State.instTables (s : State) (g : Staged) : State :=
  g.sects.foldl (fun (s : State) e => if e.2.isEmpty then s else s.instSect (!g.full) e.1 e.2) s

/-- The slot table, and the queues that tiles feed, come into use when the load ends (R320, R352). -/
def State.instLast (s : State) (g : Staged) : State :=
  g.sects.foldl (fun (s : State) e =>
    if e.1 = 0x16 then s.instBank (!g.full) e.2
    else if e.1 = 0x11 then
      (recs e.2 16).foldl (fun (s : State) r => if queueAuto r.2 then s.enableQueue (nbits (wd r.2 0) 0 20) else s) s
    else s) s

/-- Partitions with an unmapped tile are DEGRADED from the load on (R26). -/
def State.holesDegrade (s : State) : State :=
  (SMap.keys s.flt.parts).foldl (fun (s : State) p => if s.partHole p then s.modPart p fun x => { x with st := .degraded } else s) s

/-- The apply phase has read the images: the load completes or fails (R349, R350, R352). -/
def State.loadApplied (s : State) (g : Staged) (r : ImageRead) : State :=
  let t := if g.full then s.instTables g else s
  let imgs := if s.t3Denied then [] else r.sects
  let (xs, bad) := t.imagesRead g g.images imgs (if s.t3Denied then some .unsupported else r.fail)
  match bad with
  | some (i, st, o) => s.applyFail g st i o
  | none =>
    let t := if g.full then t else g.images.foldl (fun (s : State) x => s.sweepPart x.1) t
    let t := t.imagesWrite xs
    let t := if g.full then t else t.instTables g
    let t := (t.instFrame g).instLast g
    let t := if g.full then t.installRipe.holesDegrade else t
    let l := t.load
    let t := { t with load := if g.full then
        { l with id := g.id, frame := true, program := g.prog.isSome, progDigest := g.prog.getD [], fulls := satInc l.fulls }
      else { l with partials := satInc l.partials } }
    t.loadEnd .ok

/-! The registers and the commands -/

/-- A maintenance lock on firmware activation or key rotation is held (Table 11.10). -/
def State.loadLocked (s : State) : Bool := s.hrt.locks.any fun l => l.act = actFw || l.act = actKey

/-- The load in progress is abandoned (R354). -/
def State.loadAbandon (s : State) : State :=
  match s.load.st, s.load.staged with
  | .check, _ => s.loadFail .abandoned 0 0
  | .apply, some g => s.applyFail g .abandoned 0 0
  | _, _ => s

/-- A write of DEV_LOAD_CTL (R349, R354, R355, R444, R451). -/
def State.loadCtl (s : State) (w : W32) : RegRes :=
  let start := w.getLsbD 31
  if start && (s.load.st ≠ .idle || s.loadLocked) then (s, some .busy)
  else if fld w 23 7 != 0 || fld w 1 11 != 0 then (s, some .rsvdSet)
  else if start && s.hif.agreed = 0 then (s, some .version)
  else if start && decide (s.load.addr.toNat + s.load.len.toNat > 2 ^ 44) then (s, some .range)
  else
    let s := { s with load := { s.load with vec := fld w 12 11, irqen := w.getLsbD 0 } }
    if start then ({ s with load := { s.load with st := .check, since := s.now, abi := s.hif.agreed, record := s.flt.retired, staged := none } }, none)
    else if w.getLsbD 30 then (s.loadAbandon, none)
    else (s, none)

/-- Word of DEV_LOAD_CTL. -/
def loadCtlWord (start abort : Bool) (vec : Nat) (irqen : Bool) : W32 :=
  BitVec.ofNat 32 (b2n start * 2 ^ 31 + b2n abort * 2 ^ 30 + vec * 2 ^ 12 + b2n irqen)

/-- LOAD_START (R349, R355). -/
def execLoadStart (vec : Nat) (irqen tee : Bool) (s : State) : Host.Outcome State Fault Refusal :=
  guardWf (vecOk vec) s <| s.hostWrite 0 (devBase + 0x1010) .dev tee fun s => s.loadCtl (loadCtlWord true false vec irqen)

/-- LOAD_ABORT (R354). -/
def execLoadAbort (vec : Nat) (irqen tee : Bool) (s : State) : Host.Outcome State Fault Refusal :=
  guardWf (vecOk vec) s <| s.hostWrite 0 (devBase + 0x1010) .dev tee fun s => s.loadCtl (loadCtlWord false true vec irqen)

/-- The load engine runs: the 48 V domain is up and no device reset is in progress. -/
def State.loadRuns (s : State) (p : LoadSt) : Bool := s.load.st = p && s.computeOn

/-- LOAD_CHECK_DONE (R346 to R349, R353). -/
def execLoadCheckDone (c : CheckRead) (s : State) : Host.Outcome State Fault Refusal :=
  guardWf (Instr.wf (.loadCheckDone c)) s <| if s.loadRuns .check then s.loadChecked c else s

/-- LOAD_COMPLETE (R349, R350, R352); it waits for a die that is in reset or asleep (R354). -/
def execLoadComplete (r : ImageRead) (s : State) : Host.Outcome State Fault Refusal :=
  .next <|
    match s.load.staged with
    | some g =>
      if s.loadRuns .apply && !((s.loadDies g).any fun d => s.downDies.contains d) then (s.loadApplied g r).resume else s
    | none => s

end Sys2Proof.Machine
end

