-- ==== Sys2Proof/Machine/HrtCmds.lean ====
section
/-! DEFINITION. The Hearth's commands: restarts, sensors and alarms, event records and their two stores, the owner's power
limit, firmware, locks, sweeps and BIST (R416 to R438). -/
namespace Sys2Proof

/-- The 32 bytes of a committed record (Table 14.3). -/
def LogRec.bytes (r : LogRec) : List Byte :=
  leBytes 8 r.time ++ leBytes 4 r.seq.toNat ++ leBytes 4 (r.ev.code * 2 ^ 16 + r.prio * 2 ^ 14 + r.cls * 2 ^ 12 + r.count)
    ++ leBytes 4 (r.ev.skind * 2 ^ 28 + r.ev.sidx) ++ leBytes 4 r.ev.arg0.toNat ++ leBytes 8 r.ev.arg1.toNat

/-- The LOG_DROP record of four counts (R425). -/
def logDropRec (cs : List Nat) : EvRec :=
  let c := fun (i : Nat) => cs.getD i 0 % 2 ^ 24
  ⟨0x0602, 0, 0, BitVec.ofNat 32 (c 0 + c 1 % 2 ^ 8 * 2 ^ 24), BitVec.ofNat 64 (c 1 / 2 ^ 8 + c 2 * 2 ^ 16 + c 3 * 2 ^ 40)⟩

/-- The running image, and the other. -/
def Hrt.image (h : Hrt) : FwImage := if h.slotB then h.imageB else h.imageA
/-- Neither firmware image verifies (R430). -/
def Hrt.noImage (h : Hrt) : Bool := !h.imageA.valid && !h.imageB.valid

/-- The image of the slot not running. -/
def Hrt.other (h : Hrt) : FwImage := if h.slotB then h.imageA else h.imageB
/-- Write the slot not running (R429). -/
def Hrt.setOther (h : Hrt) (f : FwImage) : Hrt := if h.slotB then { h with imageA := f } else { h with imageB := f }

/-- 1 s in ns. -/
def secNs : Nat := 1000000000

/-- Command numbers of the model's trace for responses on the management transports that are no Gauntlet commands. -/
def cmdPower : Nat := 0x100
/-- PLDM firmware update. -/
def cmdUpdate : Nat := 0x101
/-- ActivateFirmware. -/
def cmdActivate : Nat := 0x102

end Sys2Proof

namespace Sys2Proof.Machine

/-! Restarts (R416, R417, R430) -/

/-- A session. -/
def State.session? (s : State) (i : Option Nat) : Option Session := i.bind fun i => SMap.get? s.sec.sessions i
/-- The session is the Owner's. -/
def State.isOwner (s : State) (i : Option Nat) : Bool := match s.session? i with | some x => x.key.isSome && x.key = s.sec.owner | none => false
/-- The session is the Tenant's. -/
def State.isTenant (s : State) (i : Option Nat) : Bool := match s.session? i with | some x => x.key.isSome && x.key = s.sec.tkey | none => false

/-- The Hearth goes down for a restart: sessions end; tests, sweeps and a load's check phase are abandoned. -/
def State.hearthDown (s : State) (r : Restart) : State :=
  let s := s.abandonTests false
  let s := if s.load.st = .check then s.loadAbandon else s
  { s with hrt := { s.hrt with ready := false, restart := r }, sec := { s.sec with sessions := [] } }

/-- HEARTH_LOCKSTEP_ERROR (R416). -/
def execHearthLockstepError (s : State) : Host.Outcome State Fault Refusal :=
  .next <| if s.hrt.ready then s.hearthDown .lockstep else s

/-- The Hearth runs again: the hardware FIFO's records pass on, a patrol pass in progress starts over (Table 14.10). -/
def State.hearthUp (s : State) (cause : Nat) : State :=
  let h := { s.hrt with ready := true, restart := .none, upSince := s.now, fifo := [] }
  let h := s.hrt.fifo.foldl (fun (h : Hrt) e => h.pass s.sec.fine e.1 e.2 s.now) h
  let s := { s with hrt := h, mem := { s.mem with scrubSince := s.mem.scrubSince.map fun _ => s.now } }
  (s.ev 0x0607 0 0 cause 0).refreshAlarm

/-- HEARTH_RESTART_DONE (R416, R417, R430, R458): causes 0 lockstep, 1 firmware activation, 2 power-on. A new image is
active once it is ready; at power-on the other image starts where the active one does not verify, and none where neither does. -/
def execHearthRestartDone (s : State) : Host.Outcome State Fault Refusal :=
  .next <|
    match s.hrt.restart with
    | .none => s
    | .lockstep => s.hearthUp 0
    | .activation since =>
      if s.now ≥ since + 2 * secNs then s
      else (({ s with hrt := { s.hrt with slotB := !s.hrt.slotB } }).hearthUp 1).lockDrop fun l => l.act = actFw
    | .power => if s.hrt.noImage then s else ({ s with hrt := { s.hrt with slotB := s.hrt.slotB != !s.hrt.image.valid } }).hearthUp 2

/-- FW_ACTIVATION_TIMEOUT: the previous image starts again (R430). -/
def execFwActivationTimeout (s : State) : Host.Outcome State Fault Refusal :=
  .next <|
    match s.hrt.restart with
    | .activation since =>
      if s.now < since + 2 * secNs then s
      else
        let s := { s with hrt := { s.hrt with restart := .lockstep } }
        (s.ev 0x0606 0 0 Status.abandoned.code 0).lockDrop fun l => l.act = actFw
    | _ => s

/-- SVN_RAISE (R430). -/
def execSvnRaise (s : State) : Host.Outcome State Fault Refusal :=
  .next <|
    if s.hrt.ready && decide (s.now ≥ s.hrt.upSince + 3600 * secNs) && s.hrt.fuseSvn.ult s.hrt.image.svn then
      { s with hrt := { s.hrt with fuseSvn := s.hrt.image.svn } }
    else s

/-! Firmware update (R429, R430) -/

/-- A firmware service is open to the requester: an Owner session, or anyone in UNOWNED (R429). -/
def State.fwOpen (s : State) (i : Option Nat) : Bool := s.isOwner i || decide (s.sec.st = .unowned)

/-- An offered image passes verification (R429): its signature holds, it has at most 60 MiB, and its SVN is not below the one
in fuses. -/
def State.fwOk (s : State) (img : FwOffer) : Bool :=
  decide (img.body.length + img.sig.length ≤ 60 * 2 ^ 20) && !img.svn.ult s.hrt.fuseSvn && ecdsaOk Config.firmwareKey img.body img.sig

/-- FW_REQUEST_UPDATE (R429): the one service that is also open when neither image verifies at start (R430). -/
def execFwRequestUpdate (sess : Option Nat) (img : FwOffer) (s : State) : Host.Outcome State Fault Refusal :=
  .next <|
    if !s.hrt.ready && !(s.hrt.restart = .power && s.hrt.noImage) then s
    else if !s.fwOpen sess then s.emit (.mgmt cmdUpdate .denied [])
    else
      let ok := s.fwOk img
      let s := { s with hrt := s.hrt.setOther ⟨img.ver, img.svn, sha384 (img.body ++ img.sig), ok⟩ }
      (s.emit (.mgmt cmdUpdate (if ok then .ok else .parity) [])).refreshAlarm

/-- ACTIVATE_FIRMWARE (R430): a failed image is never activated. -/
def execActivateFirmware (sess : Option Nat) (s : State) : Host.Outcome State Fault Refusal :=
  .next <|
    let kind := match s.session? sess with
      | some x => if s.isOwner sess then 2 else if s.isTenant sess then 3 else if x.sideband then 4 else 1
      | none => 4
    let l : Lock := ⟨kind, (match s.session? sess with | some x => x.eid | none => 0), actFw, 0, 0⟩
    if !s.hrt.ready then s
    else if !s.fwOpen sess then s.emit (.mgmt cmdActivate .denied [])
    else if s.sec.st = .handover then s.emit (.mgmt cmdActivate .busy [])
    else if !s.hrt.other.valid then s.emit (.mgmt cmdActivate .denied [])
    else
      match s.lockHeldBy l with
      | some h => (s.lockRefuse l h).emit (.mgmt cmdActivate .busy [])
      | none => ((s.lockGrant l).emit (.mgmt cmdActivate .ok [])).hearthDown (.activation s.now)

/-! Sensors and alarms (R419, R427) -/

/-- SENSOR_SAMPLE (R419, R427). -/
def execSensorSample (vals : List (Nat × W16)) (s : State) : Host.Outcome State Fault Refusal :=
  guardWf (vals.all fun x => sensorOk x.1) s <|
    if !s.hrt.ready then s
    else
      let m := vals.foldl (fun (m : SMap Sensor) x => SMap.set m x.1 ⟨true, x.2⟩) s.hrt.sensors
      let h := vals.foldl (fun (h : Hrt) x => h.addReading x.1 (if isTemp x.1 then x.2.toInt else x.2.toNat)) { s.hrt with sensors := m }
      ({ s with hrt := h }).refreshAlarm

/-- A write of HRT_ALARM_SEEN: a bit whose alarm holds is set again at once (R427). -/
def State.seenClear (s : State) (w : W32) : RegRes :=
  ({ s with hrt := { s.hrt with seen := (s.hrt.seen &&& ~~~w) ||| s.hrt.alarm } }, none)

/-- ALARM_SEEN_CLEAR (R427). -/
def execAlarmSeenClear (w : W32) (tee : Bool) (s : State) : Host.Outcome State Fault Refusal :=
  .next <| s.hostWrite 0 (hrtBase + 0x8) .hrt tee fun s => s.seenClear w

/-! Event records (R421 to R426) -/

/-- EVENT_RECORD_SUBMIT (R423). -/
def execEventRecordSubmit (e : EvRec) (s : State) : Host.Outcome State Fault Refusal :=
  guardWf (decide (e.skind < 13) && decide (e.sidx < 2 ^ 28)) s <| s.event e

/-- EVENT_STAGE_EXPIRE of the `i`-th staged record (R423 stage 4). -/
def execEventStageExpire (i : Nat) (s : State) : Host.Outcome State Fault Refusal :=
  .next <|
    match s.hrt.staging[i]? with
    | some x =>
      if !s.hrt.ready || decide (s.now < x.due) then s
      else
        let h := { s.hrt with staging := s.hrt.staging.eraseIdx i }
        { s with hrt := h.commit s.sec.fine x.ev x.time x.count s.now }
    | none => s

/-- RATE_WINDOW_END: one RATE_DROP for each source that suppressed records (R423 stage 2). -/
def execRateWindowEnd (s : State) : Host.Outcome State Fault Refusal :=
  .next <|
    if !s.hrt.ready || !s.recurs .rate then s
    else
      let s := s.recurred .rate
      let excess := s.hrt.buckets.filter fun b => b.2.supp != 0
      let s := { s with hrt := { s.hrt with buckets := s.hrt.buckets.map fun b => (b.1, { b.2 with supp := 0 }) } }
      excess.foldl (fun (s : State) b => s.ev 0x0603 b.1.1 b.1.2 b.2.supp 0) s

/-- LOG_DROP_CLOSE: the open LOG_DROP closes and is committed (R425). -/
def execLogDropClose (s : State) : Host.Outcome State Fault Refusal :=
  .next <|
    match s.hrt.logDrop with
    | some (t, cs) =>
      if !s.hrt.ready || decide (s.now < t + secNs) then s
      else
        let h := { s.hrt with logDrop := none }
        ({ s with hrt := h.commit s.sec.fine (logDropRec cs) t 1 s.now }).refreshAlarm
    | none => s

/-- A write of HRT_HLOG_HEAD (R426, Table 14.10). -/
def State.hlogHead (s : State) (v : W32) : RegRes :=
  if (v - s.hrt.hlogHead).toNat > (s.hrt.hlogTail - s.hrt.hlogHead).toNat then (s, some .range)
  else ({ s with hrt := { s.hrt with hlogHead := v } }, none)

/-- HLOG_HEAD_WRITE (R426). -/
def execHlogHeadWrite (v : W32) (tee : Bool) (s : State) : Host.Outcome State Fault Refusal :=
  .next <| s.hostWrite 0 (hrtBase + 0x6C) .hrt tee fun s => s.hlogHead v

/-- HLOG_ENTRY_WRITE: the oldest record of the host path goes into the ring in host memory, when there is room and T3 is
open (R426, R449). -/
def execHlogEntryWrite (s : State) : Host.Outcome State Fault Refusal :=
  .next <|
    let h := s.hrt
    match h.hlogQueue with
    | [] => s
    | r :: rest =>
      if !h.ready || !h.hlogEn || !s.computeOn || s.t3Denied || decide ((h.hlogTail - h.hlogHead).toNat ≥ 2 ^ h.hrsz) then s
      else
        let s := s.t3Out (.t3Write (h.hlogBase.toNat + 32 * (h.hlogTail.toNat % 2 ^ h.hrsz)) r.bytes false)
        ({ s with hrt := { h with hlogQueue := rest, hlogTail := h.hlogTail + 1 } }).msix h.hlogVec

/-! The power limit (R420) -/

/-- OWNER_POWER_LIMIT_SET (R420). -/
def execOwnerPowerLimitSet (sess : Option Nat) (watts : Nat) (s : State) : Host.Outcome State Fault Refusal :=
  .next <|
    if !s.hrt.ready then s
    else if !s.isOwner sess then s.emit (.mgmt cmdPower .denied [])
    else if watts < 1000 || decide (watts > 6500) then s.emit (.mgmt cmdPower .range [])
    else ({ s with hrt := { s.hrt with plimOwner := watts } }).emit (.mgmt cmdPower .ok [])

/-! Maintenance -/

/-- LOCK_TAKE (R431, R432). -/
def execLockTake (act : Nat) (scope : W16) (tee : Bool) (s : State) : Host.Outcome State Fault Refusal :=
  guardWf (decide (act < 8)) s <| s.hostWrite 0 (hrtBase + 0x80) .hrt tee fun s =>
    s.lockReq (BitVec.ofNat 32 (2 ^ 31 + act * 2 ^ 27 + scope.toNat))

/-- LOCK_RELEASE (R432). -/
def execLockRelease (act : Nat) (scope : W16) (tee : Bool) (s : State) : Host.Outcome State Fault Refusal :=
  guardWf (decide (act < 8)) s <| s.hostWrite 0 (hrtBase + 0x80) .hrt tee fun s =>
    s.lockReq (BitVec.ofNat 32 (2 ^ 30 + act * 2 ^ 27 + scope.toNat))

/-- MARGIN_SWEEP_STEP (R433). -/
def execMarginSweepStep (die : Nat) (s : State) : Host.Outcome State Fault Refusal :=
  guardWf (dieOk die) s <| if s.hrt.ready then s.sweepStep die else s

/-- BIST_REQUEST (R414, R436). -/
def execBistRequest (who : BistFrom) (kind idx : Nat) (precond : Bool) (s : State) : Host.Outcome State Fault Refusal :=
  guardWf (decide (kind < 16) && decide (idx < 65536)) s <|
    match who with
    | .host tee => s.hostWrite 0 (hrtBase + 0xA0) .bist tee fun s => s.bistReq (BitVec.ofNat 32 (2 ^ 31 + kind * 2 ^ 16 + idx)) precond
    | .mctp eid => s.bistMsg eid kind idx precond

/-- BIST_COMPLETE (R434 to R436). -/
def execBistComplete (kind idx : Nat) (pass : Bool) (s : State) : Host.Outcome State Fault Refusal :=
  guardWf (decide (kind < 16) && decide (idx < 65536)) s <| if s.hrt.ready then s.bistEnd kind idx pass else s

end Sys2Proof.Machine
end

