-- ==== Sys2Proof/Machine/ResetOps.lean ====
section
/-! DEFINITION. Die resets, device warm resets and the loss of the 48 V domain (R34, R35, R363, R368, R369, R382, R456,
R463 to R467, R471). -/
namespace Sys2Proof

/-- A time as seen after the counter has restarted from 0 at `t`: what lies before is at 0. -/
def rebaseT (t x : Nat) : Nat := x - t

/-- The Hearth's times after the counter restarts. -/
def Hrt.rebase (h : Hrt) (t : Nat) : Hrt :=
  { h with
    upSince := h.upSince - t
    restart := match h.restart with | .activation a => .activation (a - t) | r => r
    fifo := h.fifo.map fun e => (e.1, e.2 - t)
    staging := h.staging.map fun e => { e with due := e.due - t }
    buckets := h.buckets.map fun b => (b.1, { b.2 with at_ := b.2.at_ - t })
    logDrop := h.logDrop.map fun d => (d.1 - t, d.2)
    bists := h.bists.map fun b => { b with since := b.since - t }
    sweeps := h.sweeps.map fun w => { w with since := w.since - t } }

/-- A tile's health after the counter restarts. -/
def Health.rebase (h : Health) (t : Nat) : Health :=
  { h with
    recent := h.recent.map fun i => { i with time := i.time - t }, alike := h.alike.map fun e => (e.1, e.2 - t)
    ces := h.ces.map (· - t) }

/-- Links after a warm reset: the tables and the link state stay, margins and scores do not (Table 16.2, groups 3 and 9). -/
def Port.warm (x : Port) : Port := { x with margin := [0, 0, 0, 0, 0], score := 0, cwRate := 0, cwNow := 0, warned := false }

/-- HIF registers after a warm reset (R456): the MSI-X table, the link and the configuration space are not HIF registers;
`pcie` tells that the reset came over PCIe and reaches those two as well. -/
def Hif.warm (h : Hif) (pcie : Bool) : Hif :=
  { Hif.reset with
    linkUp := h.linkUp, rate := h.rate, width := h.width, flit := h.flit, downSince := h.downSince, nextTag := h.nextTag
    log2 := if pcie then Hif.reset.log2 else h.log2
    msix := if pcie then [] else h.msix, pba := if pcie then [] else h.pba
    busMaster := !pcie && h.busMaster, msixEn := !pcie && h.msixEn, msixMask := !pcie && h.msixMask
    cplTmo := if pcie then Hif.reset.cplTmo else h.cplTmo, cfg := if pcie then [] else h.cfg }

/-- Fault registers at a warm reset and in standby: timeouts, hang times, AUTOQ and what flash holds are kept. -/
def Flt.warm (f : Flt) : Flt :=
  { Flt.reset with
    remoteMs := f.remoteMs, fillMs := f.fillMs, replayMs := f.replayMs, autoqMs := f.autoqMs, autoq := f.autoq
    retired := f.retired, due := f.due, health := f.health }

/-- The reset that an EXIT_MAINT began is over, or a loss of power has overtaken it: OWNED_IDLE (R413). -/
def Sec.exitOver (x : Sec) : Sec := if x.exiting then { x with exiting := false, st := .ownedIdle, debugOpen := false } else x

end Sys2Proof

namespace Sys2Proof.Machine

/-! Die reset (R368) -/

/-- Handling of a hang and a quench that a wider reset overtakes are treated as done (R35). -/
def State.partCut (s : State) (p : Nat) : State :=
  let s := s.modPart p fun x => { x with hang := none, quench := none, st := if x.st = .quench || x.st = .hang then .run else x.st }
  (s.partCtxs p).foldl (fun (s : State) c =>
    if s.ctxIs c fun x => x.flt = .held || x.flt = .suspect then (s.modCtx c fun x => { x with flt := .run }).unhold c else s) s

/-- Partitions with a tile on a die. -/
def State.dieParts (s : State) (d : Nat) : List Nat := ((s.load.prects.filter fun r => r.die = d).map fun r => r.id).eraseDups

/-- A retirement leaves the partition DEGRADED: what its contexts still have in progress completes with DEGRADED (R26). -/
def State.degradePart (s : State) (p : Nat) : State :=
  (((s.activeOn p).filter fun c => !(s.ctxIs c fun x => x.flt = .faulted)).foldl (fun (s : State) c => s.degradeCtx c) s).leaveDegraded p

/-- A die reset begins: `src` is the SOURCE of Table 16.3 (R363, R368, Table 10.8, Table 16.2). -/
def State.dieReset (s : State) (d src : Nat) : State :=
  if !s.computeOn || (s.die d).rst.isSome then s
  else
    let cs := (SMap.keys s.ctxs).filter fun c => s.tiles.any fun e => physDie e.1 = d && e.2.ctx = some c
    let s := cs.foldl (fun (s : State) c => (s.enterFaulted c .abandoned 0xFFFF none).closeColls c .abandoned) s
    let ps := s.dieParts d
    let s := ps.foldl (fun (s : State) p => s.partCut p) s
    let s := (ps.filter s.slotPart).foldl (fun (s : State) p =>
      (s.partCtxs p).foldl (fun (s : State) c => (s.preemptStart c .sch).preemptDone c) s) s
    let s := s.installAll (s.dieDues d)
    let s := ps.foldl (fun (s : State) p => if s.partHole p then s.degradePart p else s) s
    let s := s.dropWork (fun p _ => physDie p = d) fun t => t.toDefaults
    let s := { s with brmDie := SMap.erase s.brmDie d, brm := s.brm.filter fun e => physDie e.1 ≠ d }
    let s := s.modDie d fun x => { x with park := .run, deep := false, rst := some src, since := s.now }
    -- no retirement pends any more and no quench is under way: what they held goes on (R35, R363, R377)
    let s := (ps.filter fun p => !s.slotPart p).foldl (fun (s : State) p =>
      (s.partCtxs p).foldl (fun (s : State) c => (if (s.pendOf p).isEmpty then s.unhold c else s).schResume c) s) s
    -- an opening that waits is skipped (R337)
    ps.foldl (fun (s : State) p => s.schAdvance p) s

/-- What waited for a die is served again (R34). -/
def State.dieBack (s : State) : State := (s.memStep fun m d b => m.serve d b).wakeAll.resume

/-- A die reset completes (R465). -/
def State.dieResetEnd (s : State) (d : Nat) : State :=
  match (s.die d).rst with
  | none => s
  | some src =>
    if (s.die d).trip || decide (s.now < (s.die d).since + 20000000) || !s.computeOn then s
    else
      let s := s.modDie d fun x => { x with rst := none }
      let s := { s with pwr := { s.pwr with dieCnt := satInc s.pwr.dieCnt } }
      let s := s.resetRecord 4 src d
      let s := (s.dieParts d).foldl (fun (s : State) p => (s.partCtxs p).foldl (fun (s : State) c => s.schResume c) s) s
      s.dieBack

/-! Device warm reset (R369, R456) -/

/-- This module fences itself in every context whose epoch a load has set (R369, R382). -/
def State.fenceSelf (s : State) : State :=
  ((s.fab.ctxs.filter fun e => e.2.set).map fun e => e.1).foldl (fun (s : State) c => s.issueFence c s.selfDev) s

/-- The tiles of the module and everything a load gave are at their defaults (Table 16.2, groups 5, 7 and 9 to 18). -/
def State.computeLost (s : State) : State :=
  let s := s.dropProgram
  { s with
    tiles := [], sch := Sch.reset
    flt := s.flt.warm
    brmDie := [], brm := []
    pwr := { s.pwr with dies := (s.pwr.dies.filter fun (e : Nat × Die) => e.2.trip).map fun (e : Nat × Die) => (e.1, { Die.reset with trip := true }) } }

/-- A device warm reset: `src` is the SOURCE of Table 16.3 (R363, R369, R456, Table 16.2). -/
def State.warmReset (s : State) (src : Nat) : State :=
  if !s.computeOn then s
  else
    let s := s.fenceSelf
    let s := s.installAll s.flt.due
    let pcie := src = 2 || src = 3 || src = 4
    let s := { s with
      load := { Load.reset with frame := s.load.frame, partials := s.load.partials, fulls := s.load.fulls }
      hif := s.hif.warm pcie
      fab := { s.fab with ports := (s.fab.ports.map fun (e : Nat × Port) => (e.1, e.2.warm)).filter fun (e : Nat × Port) => e.2 ≠ Port.reset }
      sec := { s.sec with tdi := .unlocked, ideSecure := false } }
    let s := s.computeLost
    { s with pwr := { s.pwr with warm := some src, warmSince := s.now } }

/-- A device warm reset completes (R465, R412). -/
def State.warmEnd (s : State) : State :=
  match s.pwr.warm with
  | none => s
  | some src =>
    if s.now < s.pwr.warmSince + 150000000 then s
    else
      let s := { s with pwr := { s.pwr with warm := none, warmCnt := satInc s.pwr.warmCnt } }
      let s := s.resetRecord 5 src 0
      let s := { s with sec := s.sec.exitOver }
      s.dieBack

/-! Loss of the 48 V domain (R463, R471) -/

/-- Frames being retired leave service: what they held is lost (R227). -/
def State.retiringOut (s : State) : State :=
  s.memStep fun m _ _ => m.retiring.foldl (fun (m : MemSys) r => m.retireFrame r.1 r.2) m

/-- The 48 V domain goes down; `src` is the SOURCE that the standby exit will record (R463, Table 16.2, Table 16.3). -/
def State.domainDown (s : State) (src : Nat) : State :=
  if s.pwr.dom = .off then s
  else
    let s := (s.abandonTests false).scrubStop
    let s := s.computeLost.retiringOut
    let m := s.mem
    { s with
      fab := { Fab.reset with ports := (s.fab.ports.filter fun e => e.2.bistBad).map fun e => (e.1, { Port.reset with bistBad := true }) }
      time := { RefTime.reset with now := s.time.now }
      mem := { MemSys.reset with retired1 := m.retired1, retired2 := m.retired2, scrubAt := s.now }
      load := Load.reset
      hif := Hif.reset
      sec := { s.sec.exitOver with tdi := .unlocked, ideSecure := false }
      hrt := { s.hrt with dieMv := [], powerW := 0, bfPause := [], floorLost := [] }
      pwr := { s.pwr with dom := .off, domSince := s.now, warm := none, dies := [], standbySrc := src, unmet := none } }

/-- A requested standby or a module trip: fences, loads abandoned, the domain goes down (R463, R471). -/
def State.standbyGo (s : State) (src : Nat) : State :=
  if s.pwr.dom = .on then (s.fenceSelf.loadAbandon).domainDown src else s

/-- A standby request is held; during a power-up it waits for the power-up to complete (R463, Table 16.6). -/
def State.standbyRequest (s : State) (src : Nat) : State :=
  ({ s with pwr := { s.pwr with standbyReq := some src } }).standbyGo src

/-- The reference time counter starts at 0 when the time loop locks: what the Hearth remembers lies before it. -/
def State.restartTime (s : State) : State :=
  let t := s.time.now
  { s with
    time := RefTime.reset
    hrt := s.hrt.rebase t
    flt := { s.flt with
      health := (s.flt.health.mapV fun _ h => h.rebase t).filter fun e => e.2 ≠ Health.reset
      due := s.flt.due.map fun d => { d with since := d.since - t } }
    sec := { s.sec with
      ofabPrev := s.sec.ofabPrev.map fun k => (k.1, k.2 - t)
      tfabPrev := s.sec.tfabPrev.map fun k => (k.1, k.2 - t)
      hand := s.sec.hand.map fun h => (h.1, h.2 - t) }
    mem := { s.mem with scrubAt := s.mem.scrubAt - t } }

end Sys2Proof.Machine
end

