-- ==== Sys2Proof/Machine/SecCmds.lean ====
section
/-! DEFINITION. The Gauntlet: its commands, the handover, maintenance and debug, sessions and measurements, IDE and TDISP,
quantised telemetry (chapter 13, R428). -/
namespace Sys2Proof

/-! Command numbers of the model's trace for responses that are no Gauntlet commands -/

/-- KEY_EXCHANGE. -/
def cmdKeyExchange : Nat := 0x103
/-- GET_MEASUREMENTS. -/
def cmdMeasure : Nat := 0x104
/-- IDE_KM. -/
def cmdIdeKm : Nat := 0x105
/-- LOCK_INTERFACE. -/
def cmdTdiLock : Nat := 0x106
/-- START_INTERFACE. -/
def cmdTdiStart : Nat := 0x107
/-- STOP_INTERFACE. -/
def cmdTdiStop : Nat := 0x108

/-- SEC_TDI.STATE. -/
def Tdi.code : Tdi → Nat
  | .unlocked => 0 | .locked => 1 | .run => 2 | .error => 3

/-- Key identifier of a symmetric key (R391). -/
def symKeyId (k : List Byte) : Nat := keyId ([0x51, 0x5A, 0x4B, 0x45, 0x59, 0x49, 0x44] ++ k)
/-- Identifier of an optional symmetric key; 0 when absent. -/
def symIdOf (k : Option (List Byte)) : Nat := match k with | some k => symKeyId k | none => 0

/-- Who may send a Gauntlet command (Table 13.4). -/
inductive GRole where
  | owner | tenant | either
  /-- a session whose requester key is the body key -/
  | bodyKey
  /-- anyone, with or without a session -/
  | token
deriving DecidableEq, Repr

/-- The 32 bytes of a handover record (Table 13.9). -/
def HandRec.bytes (r : HandRec) : List Byte :=
  leBytes 4 r.tenancy.toNat ++ leBytes 4 (r.result + r.cause * 2 ^ 9) ++ leBytes 8 r.start ++ leBytes 4 r.duration.toNat
    ++ leBytes 4 0 ++ leBytes 8 r.tkey.toNat

/-- SEC_STATE. -/
def Sec.stateWord (x : Sec) : Nat := x.st.code + x.debugCount.toNat * 2 ^ 8

/-- SEC_KEYS. -/
def Sec.keysWord (x : Sec) : Nat :=
  b2n x.owner.isSome + b2n x.maint.isSome * 2 + b2n x.ofab.isSome * 4 + b2n x.memKeys * 8 + b2n x.tload.isSome * 16
    + b2n x.tfab.isSome * 32 + b2n x.tfabPrev.isSome * 64 + b2n x.ideKeys * 128

/-- Install an owner fabric key: the key it replaces becomes the previous one (R397). -/
def Sec.setOfab (x : Sec) (k : List Byte) (now : Nat) : Sec :=
  { x with ofabPrev := x.ofab.map fun o => (o, now), ofab := some k }
/-- Install a tenant fabric key (R397). -/
def Sec.setTfab (x : Sec) (k : List Byte) (now : Nat) : Sec :=
  { x with tfabPrev := x.tfab.map fun o => (o, now), tfab := some k }

/-- The Glove is destroyed (Table 13.3, R406 steps 5 and 7). -/
def Sec.dropGlove (x : Sec) : Sec :=
  { x with
    tkey := none, lease := 0, tload := none, tfab := none, tfabPrev := none, memKeys := false, logKey := false
    ideKeys := false, ideSecure := false, fine := false, tenantNonce := none }

/-- RESULT of a handover record: steps 1 to 9 without those that failed (R407). -/
def handResult (failed : List Nat) : Nat :=
  (List.range 9).foldl (fun a i => if failed.contains (i + 1) then a else a + 2 ^ i) 0

/-- Value delivered for the window mean of a reading, from the sum of its readings and their number (Table 13.7): module power
to the nearest 50 W, ties upward; temperatures, in 1/16 °C, down to a whole °C; voltages down to 10 mV. -/
def quantOf (n : Nat) (m : Int × Nat) : W16 :=
  BitVec.ofInt 16
    (if n = 200 then (2 * m.1 + 50 * m.2) / (100 * m.2) * 50
    else if isTemp n then m.1 / (16 * m.2) * 16
    else m.1 / (10 * m.2) * 10)

/-- The readings of the window that `f` selects are delivered, and a new window begins; a reading that the window did not have
keeps its value. -/
def Hrt.deliver (h : Hrt) (f : Nat → Bool) : Hrt :=
  { h with
    quant := (h.sums.filter fun e => f e.1).foldl (fun (q : SMap W16) e => SMap.set q e.1 (quantOf e.1 e.2)) h.quant
    sums := h.sums.filter fun e => !f e.1 }

/-- The lowest CAP_COUNT of each die in the window, down to a multiple of 64, is delivered (Table 13.7). -/
def Hrt.deliverCaps (h : Hrt) : Hrt :=
  { h with
    quant := h.capLow.foldl (fun (q : SMap W16) e => SMap.set q (300 + e.1) (BitVec.ofNat 16 (e.2.toNat / 64 * 64))) h.quant
    capLow := [] }

end Sys2Proof

namespace Sys2Proof.Machine

/-! Gauntlet commands (R393, Table 13.4) -/

/-- The requester has the role. -/
def State.gRole (s : State) (r : GReq) (x : GRole) : Bool :=
  match x with
  | .owner => s.isOwner r.sess
  | .tenant => s.isTenant r.sess
  | .either => s.isOwner r.sess || s.isTenant r.sess
  | .bodyKey => (match s.session? r.sess with | some y => y.key = some r.body | none => false)
  | .token => true

/-- A Gauntlet command is answered, and leaves a SECURITY record. -/
def State.gAnswer (s : State) (cmd : Nat) (st : Status) (data : List Byte) : State :=
  (s.ev 0x0701 11 0 (cmd + st.code * 2 ^ 8) 0).emit (.mgmt cmd st data)

/-- The checks of R393 in order, then the command's effect `f`, which may itself refuse. In HANDOVER every command that
comes with its role is refused with BUSY (R405, R409). Whichever row carries it, a word whose CMD is reserved is answered
with RSVD_SET (R10); one whose CMD is another command's is not this row's. -/
def State.gauntlet (s : State) (cmd : Nat) (r : GReq) (len : Nat) (rsvdBody : Bool) (role : GRole) (states : List SecSt)
    (f : State → State × Status) : State :=
  let c := fld r.word 0 8
  let reserved := c = 0 || decide (c ≥ 0x0D)
  if !s.hrt.ready || (c ≠ cmd && !reserved) then s
  else if fld r.word 8 4 ≠ 1 then s.gAnswer c .version []
  else if reserved then s.gAnswer c .rsvdSet []
  else if fld r.word 12 20 ≠ 0 || (r.body.length = len && rsvdBody) then s.gAnswer cmd .rsvdSet []
  else if r.body.length ≠ len then s.gAnswer cmd .range []
  else if !s.gRole r role then s.gAnswer cmd .denied []
  else if s.sec.st = .handover then s.gAnswer cmd .busy []
  else if !states.contains s.sec.st then s.gAnswer cmd .denied []
  else
    let (s, st) := f s
    s.gAnswer cmd st []

/-- Change the Gauntlet and answer OK. -/
def State.secOk (s : State) (f : Sec → Sec) : State × Status := ({ s with sec := f s.sec }, .ok)

/-- CLAIM (Table 13.2, Table 13.4). -/
def execClaim (r : GReq) (s : State) : Host.Outcome State Fault Refusal :=
  .next <| s.gauntlet 0x01 r 97 false .bodyKey [.unowned] fun s =>
    s.secOk fun x => { x with owner := some r.body, st := .ownedIdle }

/-- RELEASE_OWNER (Tables 13.2 to 13.4). -/
def execReleaseOwner (r : GReq) (s : State) : Host.Outcome State Fault Refusal :=
  .next <| s.gauntlet 0x02 r 0 false .owner [.ownedIdle] fun s =>
    s.secOk fun x => { x with owner := none, maint := none, ofab := none, ofabPrev := none, ownerNonce := none, st := .unowned }

/-- SET_OWNER_FABRIC (R397). -/
def execSetOwnerFabric (r : GReq) (s : State) : Host.Outcome State Fault Refusal :=
  .next <| s.gauntlet 0x03 r 32 false .owner [.ownedIdle, .tenanted] fun s => s.secOk fun x => x.setOfab r.body s.now

/-- ENROL_TENANT (R394, R404). -/
def execEnrolTenant (r : GReq) (s : State) : Host.Outcome State Fault Refusal :=
  .next <| s.gauntlet 0x04 r 105 false .owner [.ownedIdle] fun s =>
    s.secOk fun x =>
      { x with
        tkey := some (r.body.take 97), lease := BitVec.ofNat 64 (leNat (r.body.drop 97)), memKeys := true, logKey := true
        tenancy := x.tenancy + 1, st := .tenanted }

/-- INSTALL_GLOVE (R392, R397). -/
def execInstallGlove (r : GReq) (s : State) : Host.Outcome State Fault Refusal :=
  .next <| s.gauntlet 0x05 r 161 false .tenant [.tenanted] fun s =>
    s.secOk fun x => { x.setTfab (r.body.drop 129) s.now with
      tload := some (r.body.take 97, (r.body.drop 97).take 32), tenantNonce := some 0 }

/-- The lock of the present tenancy's key rotation. -/
def keyLock (eid : Nat) : Lock := ⟨3, eid, actKey, 0, 0⟩

/-- ROTATE_FABRIC: the key rotation's lock is held until the key replaced is destroyed (R397, R431). -/
def execRotateFabric (r : GReq) (s : State) : Host.Outcome State Fault Refusal :=
  .next <| s.gauntlet 0x06 r 32 false .tenant [.tenanted] fun s =>
    let l := keyLock (match s.session? r.sess with | some x => x.eid | none => 0)
    match s.lockHeldBy l with
    | some h => (s.lockRefuse l h, .busy)
    | none =>
      let s := if s.sec.tfab.isSome then s.lockGrant l else s
      s.secOk fun x => x.setTfab r.body s.now

/-- FABRIC_PREV_KEY_EXPIRE (R397). -/
def execFabricPrevKeyExpire (s : State) : Host.Outcome State Fault Refusal :=
  .next <|
    let old := fun (k : List Byte × Nat) => decide (s.now ≥ k.2 + prevKeyNs)
    let x := s.sec
    let gone := x.tfabPrev.any old
    let s := { s with sec := { x with
      ofabPrev := x.ofabPrev.filter fun k => !old k
      tfabPrev := x.tfabPrev.filter fun k => !old k } }
    if gone then s.lockDrop fun l => l.act = actKey else s

/-- GRANT_HOST (R393, R404). -/
def execGrantHost (r : GReq) (s : State) : Host.Outcome State Fault Refusal :=
  .next <| s.gauntlet 0x07 r 4 (decide (leNat r.body / 2 ≠ 0)) .tenant [.tenanted] fun s =>
    s.secOk fun x => { x with fine := nbit (leNat r.body) 0 }

/-! Handover (R405 to R409) -/

/-- Objects are destroyed without fills or evictions, and the pool is emptied (R406 step 2); frames being retired leave
service. -/
def State.memCleared (s : State) : State :=
  let s := s.hif.bar4.foldl (fun (s : State) x => s.bar4End { x with st := some .denied, wait := none })
    { s with hif := { s.hif with bar4 := [] } }
  ({ s with mem := { s.mem with
    objs := [], pages := [], waits := [], demands := [], pool := [], bkWrites := [] } } : State).retiringOut

/-- An accepted HANDOVER: maintenance and a load in progress are abandoned, steps 1 and 2 of R406 (R405, R406). -/
def State.handoverStart (s : State) (cause : Nat) : State :=
  let s := s.loadAbandon
  let s := (s.abandonTests true).scrubStop.lockDrop fun l => l.act = actKey
  let s := { s with sec := { s.sec with st := .handover, tdi := .unlocked, hand := some (cause, s.now) } }
  let s := (List.range 8).foldl (fun (s : State) d => s.wakeDeep d) s
  let s := s.endProgram 12
  s.memCleared

/-- HANDOVER (R405). -/
def execHandover (r : GReq) (s : State) : Host.Outcome State Fault Refusal :=
  .next <| s.gauntlet 0x08 r 0 false .either [.tenanted] fun s =>
    match s.hrt.locks.find? fun l => l.act = actFw with
    | some h => ({ s with hrt := { s.hrt with holder := some h } }, .busy)
    | none => (s.handoverStart (if s.isOwner r.sess then 0 else 1), .ok)

/-- The handover's steps can run: no device or die reset is in progress and no die sleeps (R408); unpowered units verify
as empty (Table 16.6). -/
def State.handoverMay (s : State) : Bool := s.pwr.dom = .off || (s.computeOn && s.downDies.isEmpty)

/-- Steps 3 to 9 of R406 are over; `failed` are the steps that failed twice, with the units they name (R407). -/
def State.handoverEnd (s : State) (failed : List (Nat × List (Nat × Nat))) : State :=
  match s.sec.st, s.sec.hand with
  | .handover, some (cause, start) =>
    if !s.hrt.ready || !s.handoverMay then s
    else
      let x := s.sec
      let rec_ : HandRec := {
        tenancy := x.tenancy, cause := cause, result := handResult (failed.map (·.1)), start := start
        duration := BitVec.ofNat 32 (min ((s.now - start) / 1000) 0xFFFFFFFF)
        tkey := BitVec.ofNat 64 (keyIdOf x.tkey) }
      let (chal, s) := if failed.isEmpty then (0#64, s) else s.draw
      let s := s.mapTiles (fun _ _ => true) Tile.swept
      let s := { s with
        fab := { s.fab with ctxs := [], fences := [], fenceKeys := [] }
        sec := { x.dropGlove with
          st := if failed.isEmpty then .ownedIdle else .maintenance
          hand := none, record := rec_, challenge := chal, failedUnits := (failed.flatMap fun (f : Nat × List (Nat × Nat)) => f.2).eraseDups } }
      s.ev 0x0701 11 0 (s.sec.st.code * 2 ^ 16) 0
  | _, _ => s

/-- HANDOVER_COMPLETE (R406, R407). -/
def execHandoverComplete (failed : List (Nat × List (Nat × Nat))) (s : State) : Host.Outcome State Fault Refusal :=
  guardWf (Instr.wf (.handoverComplete failed)) s <| s.handoverEnd failed

/-! Maintenance and debug (R410 to R413) -/

/-- SEC_DEBUG_CHAL takes a new challenge. -/
def State.newChallenge (s : State) : State :=
  let (c, s) := s.draw
  { s with sec := { s.sec with challenge := c } }

/-- ENTER_MAINT (R410). -/
def execEnterMaint (r : GReq) (s : State) : Host.Outcome State Fault Refusal :=
  .next <| s.gauntlet 0x09 r 0 false .owner [.ownedIdle] fun s =>
    ({ s.newChallenge with sec := { s.newChallenge.sec with st := .maintenance } }, .ok)

/-- What a debug unlock token signs: "QZUNLOCK", the DIK identifier, and the challenge (R411). -/
def State.unlockMsg (s : State) : List Byte :=
  ([0x51, 0x5A, 0x55, 0x4E, 0x4C, 0x4F, 0x43, 0x4B] : List Byte) ++ Config.dikId ++ leBytes 8 s.sec.challenge.toNat

/-- A debug unlock token verifies under the service key or the maintainer key (R411). -/
def State.tokenOk (s : State) (token : List Byte) : Bool :=
  ecdsaOk Config.serviceKey s.unlockMsg token || s.sec.maint.any fun k => ecdsaOk k s.unlockMsg token

/-- DEBUG_UNLOCK (R411, R412): the challenge is replaced whatever the token. -/
def execDebugUnlock (r : GReq) (s : State) : Host.Outcome State Fault Refusal :=
  .next <| s.gauntlet 0x0A r 96 false .token [.maintenance] fun s =>
    let ok := s.tokenOk r.body
    let s := s.newChallenge
    if ok then s.secOk fun x => { x with ofab := none, ofabPrev := none, debugCount := satInc x.debugCount, debugOpen := true }
    else (s.ev 0x0702 11 0 0x0A 0, .denied)

/-- EXIT_MAINT: debug closes, and a device warm reset leads to OWNED_IDLE; it waits for the BIST of units that a handover
named (R407, R413). -/
def State.exitMaint (s : State) : State :=
  let s := { s with sec := { s.sec with debugOpen := false, challenge := 0 } }
  if s.computeOn then ({ s with sec := { s.sec with exiting := true } }).warmReset 6
  else if s.pwr.warm.isSome then { s with sec := { s.sec with exiting := true } }
  else { s with sec := { s.sec with exiting := false, st := .ownedIdle } }

/-- EXIT_MAINT (R413). -/
def execExitMaint (r : GReq) (s : State) : Host.Outcome State Fault Refusal :=
  .next <| s.gauntlet 0x0B r 0 false .owner [.maintenance] fun s =>
    if s.sec.failedUnits.isEmpty then (s.exitMaint, .ok) else (s, .denied)

/-- SET_MAINT_KEY (Table 13.4). -/
def execSetMaintKey (r : GReq) (s : State) : Host.Outcome State Fault Refusal :=
  .next <| s.gauntlet 0x0C r 97 false .owner [.ownedIdle] fun s => s.secOk fun x => { x with maint := some r.body }

/-! Sessions and measurements (R401, R428) -/

/-- SPDM_KEY_EXCHANGE: a session opens, or four are open (R428). -/
def execSpdmKeyExchange (key : Option (List Byte)) (eid : Nat) (sideband : Bool) (s : State) :
    Host.Outcome State Fault Refusal :=
  guardWf (decide (eid < 1024)) s <|
    if !s.hrt.ready then s
    else if s.sec.sessions.length ≥ 4 then s.emit (.mgmt cmdKeyExchange .busy [])
    else
      let n := s.sec.nextSession
      let s := { s with sec := { s.sec with
        nextSession := n + 1, sessions := SMap.set s.sec.sessions n (⟨key, eid, sideband⟩ : Session) } }
      (s.ev 0x0701 11 0 0x10000000 0).emit (.mgmt cmdKeyExchange .ok (leBytes 4 n))

/-- The retirement record as measurement block 9 digests it. -/
def retiredBytes (l : List (Nat × Option Nat)) : List Byte :=
  l.flatMap fun r => leBytes 2 r.1 ++ leBytes 2 (match r.2 with | some x => x | none => 0xFFFF)

/-- Measurement block `i` (Table 13.5, R401). -/
def State.measBlock (s : State) (tenant : Bool) (i : Nat) : List Byte :=
  let x := s.sec
  match i with
  | 1 => s.hrt.image.digest ++ leBytes 2 s.hrt.image.ver.toNat
  | 2 => s.hrt.other.digest ++ leBytes 2 s.hrt.other.ver.toNat
  | 3 => leBytes 8 (keyIdOf x.owner) ++ leBytes 8 (keyIdOf x.maint) ++ leBytes 8 (symIdOf x.ofab)
  | 4 => leBytes 4 x.stateWord ++ leBytes 4 x.tdi.code
  | 5 => s.load.id
  | 6 => if tenant then leBytes 8 (keyIdOf x.tkey) ++ leBytes 8 (keyIdOf (x.tload.map (·.1))) ++ leBytes 8 (symIdOf x.tfab) else []
  | 7 => if tenant then s.load.progDigest else []
  | 8 => x.record.bytes
  | 9 => sha384 (retiredBytes s.flt.retired)
  | _ => []

/-- The nine blocks, each as its index, its length and its content. -/
def State.measurements (s : State) (tenant : Bool) : List Byte :=
  (List.range 9).flatMap fun i =>
    let b := s.measBlock tenant (i + 1)
    leBytes 1 (i + 1) ++ leBytes 2 b.length ++ b

/-- GET_MEASUREMENTS (R401, R409). -/
def execGetMeasurements (sess : Option Nat) (s : State) : Host.Outcome State Fault Refusal :=
  .next <|
    if !s.hrt.ready then s else s.emit (.mgmt cmdMeasure .ok (s.measurements (s.isTenant sess)))

/-! IDE and TDISP (R398 to R400) -/

/-- IDE_KM_KEY_PROG: keys for the one selective stream (R398). -/
def execIdeKmKeyProg (sess : Option Nat) (stream : Nat) (s : State) : Host.Outcome State Fault Refusal :=
  .next <|
    if !s.hrt.ready then s
    else if (s.session? sess).isNone then s.emit (.mgmt cmdIdeKm .denied [])
    else if stream ≠ 0 then s.emit (.mgmt cmdIdeKm .range [])
    else ({ s with sec := { s.sec with ideKeys := true, ideSecure := true } }).emit (.mgmt cmdIdeKm .ok [])

/-- A TDISP request that is answered in a session. -/
def State.tdisp (s : State) (sess : Option Nat) (cmd : Nat) (ok : Bool) (new : Tdi) : State :=
  if !s.hrt.ready then s
  else if (s.session? sess).isNone || !ok then s.emit (.mgmt cmd .denied [])
  else ({ s with sec := { s.sec with tdi := new } }).emit (.mgmt cmd .ok [])

/-- LOCK_INTERFACE (R399). -/
def execLockInterface (sess : Option Nat) (s : State) : Host.Outcome State Fault Refusal :=
  .next <| s.tdisp sess cmdTdiLock (s.sec.st = .tenanted && s.sec.ideSecure && s.sec.tdi = .unlocked) .locked

/-- START_INTERFACE (R399). -/
def execStartInterface (sess : Option Nat) (s : State) : Host.Outcome State Fault Refusal :=
  .next <| s.tdisp sess cmdTdiStart (s.sec.tdi = .locked) .run

/-- STOP_INTERFACE (R400). -/
def execStopInterface (sess : Option Nat) (s : State) : Host.Outcome State Fault Refusal :=
  .next <| s.tdisp sess cmdTdiStop true .unlocked

/-- The interface enters ERROR: BAR4 accesses not yet completed end as unsupported requests (R400, Table 15.8). -/
def State.tdiError (s : State) : State :=
  s.hif.bar4.foldl (fun (s : State) x => s.dropWait? x.wait)
    { s with sec := { s.sec with tdi := .error }, hif := { s.hif with bar4 := [] } }

/-- IDE_INTEGRITY_FAILURE: a locked or running interface goes to ERROR (R400). -/
def execIdeIntegrityFailure (s : State) : Host.Outcome State Fault Refusal :=
  .next <|
    if !s.sec.ideSecure then s
    else
      let s := { s with sec := { s.sec with ideSecure := false } }
      if s.sec.tdi = .locked || s.sec.tdi = .run then s.tdiError else s

/-! Telemetry (R404) -/

/-- QUANT_WINDOW_END: module power every 100 ms, every other reading every 1 s (R404, Table 13.7). -/
def execQuantWindowEnd (slow : Bool) (s : State) : Host.Outcome State Fault Refusal :=
  .next <|
    let r := if slow then Recur.slow else Recur.quick
    if !s.hrt.ready || !s.recurs r then s
    else
      let s := s.recurred r
      { s with hrt := if slow then (s.hrt.deliver (· ≠ 200)).deliverCaps else s.hrt.deliver (· = 200) }

end Sys2Proof.Machine
end

