-- ==== Sys2Proof/Machine/PwrCmds.lean ====
section
/-! DEFINITION. Resets, low-power states, rails, trips, the host link's resets and the laser units (chapters 16 and 17, R33,
R368, R369, R456). -/
namespace Sys2Proof

/-- Command number of the model's trace for the "Compute power" effecter. -/
def cmdCompute : Nat := 0x109

/-- A Hearth after power-on: flash keeps the images, the log ring, the owner's power limit (R464). -/
def Hrt.powerOn (h : Hrt) : Hrt :=
  { Hrt.reset with
    slotB := h.slotB, imageA := h.imageA, imageB := h.imageB, fuseSvn := h.fuseSvn, ring := h.ring, nextSeq := h.nextSeq
    plimOwner := h.plimOwner }

/-- Module state after power-on (Table 13.2). -/
def SecSt.powerOn : SecSt → SecSt
  | .unowned => .unowned
  | _ => .ownedIdle

/-- A tenancy is ended by power-on (R408). -/
def SecSt.lent (x : SecSt) : Bool := x = .tenanted || x = .handover

/-- The Gauntlet after power-on: what flash holds, and the record of a tenancy that ended so (R390 to R392, R408). -/
def Sec.powerOn (x : Sec) : Sec :=
  { Sec.reset with
    st := x.st.powerOn, debugCount := x.debugCount, tenancy := x.tenancy, owner := x.owner, maint := x.maint, ofab := x.ofab
    ownerNonce := x.ownerNonce, nextSession := x.nextSession
    record := if x.st.lent then ⟨x.tenancy, 2, 0xE0, 0, 0, BitVec.ofNat 64 (match x.tkey with | some k => keyId k | none => 0)⟩
      else x.record }

/-- GROUPS are cleared by writing 1; [31:19] are reserved (Table 16.4). -/
def clearGroups (g w : Nat) : Nat := g &&& (0x7FFFF ^^^ nbits w 0 19)

end Sys2Proof

namespace Sys2Proof.Machine

/-! Die reset and device warm reset (R368, R369, R466) -/

/-- DIE_FAULT_RESET (R368). -/
def execDieFaultReset (die : Nat) (s : State) : Host.Outcome State Fault Refusal :=
  guardWf (dieOk die) s <| s.dieReset die 5

/-- A write of DEV_RESET_REQ (R466). -/
def State.resetReq (s : State) (w : W32) : RegRes :=
  let warm := w.getLsbD 31
  let die := w.getLsbD 30
  if fld w 3 27 ≠ 0 || (!die && fld w 0 3 ≠ 0) then (s, some .rsvdSet)
  else if warm && die then (s, some .range)
  else if warm then (s.warmReset 1, none)
  else if die then (s.dieReset (fld w 0 3) 1, none)
  else (s, none)

/-- DIE_RESET_REQUEST (R466). -/
def execDieResetRequest (die : Nat) (tee : Bool) (s : State) : Host.Outcome State Fault Refusal :=
  guardWf (dieOk die) s <| s.hostWrite 0 (devBase + 0x110) .dev tee fun s => s.resetReq (BitVec.ofNat 32 (2 ^ 30 + die))

/-- DIE_RESET_COMPLETE (R465). -/
def execDieResetComplete (die : Nat) (s : State) : Host.Outcome State Fault Refusal :=
  guardWf (dieOk die) s <| s.dieResetEnd die

/-- WARM_RESET_REQUEST (R466). -/
def execWarmResetRequest (tee : Bool) (s : State) : Host.Outcome State Fault Refusal :=
  .next <| s.hostWrite 0 (devBase + 0x110) .dev tee fun s => s.resetReq 0x80000000

/-- WARM_RESET_COMPLETE (R465). -/
def execWarmResetComplete (s : State) : Host.Outcome State Fault Refusal := .next s.warmEnd

/-- A write of DEV_RESET_CAUSE: NEW is cleared by writing 1, and WIDEST with it (Table 16.4). -/
def State.causeReg (s : State) (w : W32) : RegRes :=
  if fld w 28 3 ≠ 0 || fld w 4 4 ≠ 0 then (s, some .rsvdSet)
  else if w.getLsbD 31 then ({ s with pwr := { s.pwr with new := false, widest := 0 } }, none)
  else (s, none)

/-- RESET_CAUSE_CLEAR (R466). -/
def execResetCauseClear (tee : Bool) (s : State) : Host.Outcome State Fault Refusal :=
  .next <| s.hostWrite 0 (devBase + 0x100) .dev tee fun s => s.causeReg 0x80000000

/-- A write of DEV_DEFAULTS_RESTORED (Table 16.4). -/
def State.groupsReg (s : State) (w : W32) : RegRes :=
  if fld w 19 13 ≠ 0 then (s, some .rsvdSet)
  else ({ s with pwr := { s.pwr with groups := clearGroups s.pwr.groups w.toNat } }, none)

/-! Parking a die (R460 to R462) -/

/-- A LAUNCH or a Tongs descriptor is running on a partition. -/
def State.partWorks (s : State) (p : Nat) : Bool :=
  s.partRunning p || s.descs.any fun e => e.2.st = .running && !e.2.isLaunch && s.ctxIs e.2.hdr.ctx fun x => x.part = p

/-- A bank of the slot table has a slot on the die. -/
def State.bankOnDie (s : State) (m : Mem) (d : Nat) : Bool := (bankSlots m).any fun e => (s.dieParts d).contains e.2.part

/-- A sweep or BIST lock covers the die. -/
def State.dieLocked (s : State) (d : Nat) : Bool :=
  s.hrt.locks.any fun l => (l.act = actSweep && l.scope = d) || (l.act = actBist && bistDie l.unit l.scope = some d)

/-- A park request of the die is refused (R462); a wake under way stands (Table 16.6). -/
def State.parkBusy (s : State) (d : Nat) : Bool :=
  ((s.dieParts d).any fun p => s.partWorks p) || s.bankOnDie s.bankNow d || (s.sch.pend.isSome && s.bankOnDie s.bankShadow d)
    || s.dieLocked d || (s.die d).rst.isSome || (s.die d).trip || (s.die d).park = .waking

/-- A park request that is accepted. -/
def State.parkGo (s : State) (d : Nat) (deep : Bool) : State :=
  match (s.die d).park with
  | .run => s.modDie d fun x => { x with park := .entering, deep := deep, since := s.now }
  | .idle => if deep then s.modDie d fun x => { x with park := .entering, deep := true, since := s.now } else s
  | .entering => s.modDie d fun x => { x with deep := x.deep || deep }
  | _ => s

/-- A write of DEV_PARK_CTL (R462, R466). -/
def State.parkCtl (s : State) (d : Nat) (w : W32) : RegRes :=
  let idle := w.getLsbD 31
  let deep := w.getLsbD 30
  let wake := w.getLsbD 29
  if (idle || deep) && s.parkBusy d then (s, some .busy)
  else if fld w 3 26 ≠ 0 then (s, some .rsvdSet)
  else if b2n idle + b2n deep + b2n wake > 1 then (s, some .range)
  else if idle || deep then (s.parkGo d deep, none)
  else if wake then (s.wakeDie d, none)
  else (s, none)

/-- PARK_IDLE (R460, R462). -/
def execParkIdle (die : Nat) (tee : Bool) (s : State) : Host.Outcome State Fault Refusal :=
  guardWf (dieOk die) s <| s.hostWrite 0 (devBase + 0x120 + 4 * die) .dev tee fun s => s.parkCtl die 0x80000000

/-- PARK_DEEP (R461, R462). -/
def execParkDeep (die : Nat) (tee : Bool) (s : State) : Host.Outcome State Fault Refusal :=
  guardWf (dieOk die) s <| s.hostWrite 0 (devBase + 0x120 + 4 * die) .dev tee fun s => s.parkCtl die 0x40000000

/-- PARK_WAKE by a host request; the other wake causes act with what needs the die (R460 to R462). -/
def execParkWake (die : Nat) (tee : Bool) (s : State) : Host.Outcome State Fault Refusal :=
  guardWf (dieOk die) s <| s.hostWrite 0 (devBase + 0x120 + 4 * die) .dev tee fun s => s.parkCtl die 0x20000000

/-- The tiles of a die lose their state (Table 16.2, deep-park). -/
def State.dieLost (s : State) (d : Nat) : State :=
  let s := s.dropWork (fun p _ => physDie p = d) fun t => t.toDefaults
  { s with brmDie := SMap.erase s.brmDie d, brm := s.brm.filter fun e => physDie e.1 ≠ d }

/-- PARK_ENTRY_COMPLETE (R460 to R462). -/
def execParkEntryComplete (die : Nat) (s : State) : Host.Outcome State Fault Refusal :=
  guardWf (dieOk die) s <|
    if (s.die die).park ≠ .entering then s
    else if (s.die die).deep then (s.dieLost die).modDie die fun x => { x with park := .deep, since := s.now }
    else s.modDie die fun x => { x with park := .idle, since := s.now }

/-- PARK_WAKE_DONE: 20 µs from idle-park, 3 ms from deep-park, which is recorded (R460, R461, R465). -/
def execParkWakeDone (die : Nat) (s : State) : Host.Outcome State Fault Refusal :=
  guardWf (dieOk die) s <|
    let x := s.die die
    if x.park ≠ .waking || decide (s.now < x.since + if x.deep then 3000000 else 20000) then s
    else
      let s := s.modDie die fun x => { x with park := .run, deep := false, since := s.now }
      let s := if x.deep then s.resetRecord 3 10 die else s
      s.dieBack

/-! Standby and power (R458, R459, R463, R471, R472) -/

/-- A write of DEV_STANDBY (R463). -/
def State.standbyReg (s : State) (w : W32) : RegRes :=
  if fld w 0 31 ≠ 0 then (s, some .rsvdSet)
  else if w.getLsbD 31 then (s.standbyRequest 1, none)
  else (s, none)

/-- STANDBY_ENTER (R463). -/
def execStandbyEnter (tee : Bool) (s : State) : Host.Outcome State Fault Refusal :=
  .next <| s.hostWrite 0 (devBase + 0x140) .dev tee fun s => s.standbyReg 0x80000000

/-- The requester may set the "Compute power" effecter (R463). -/
def State.mayCompute (s : State) (who : MgmtFrom) : Bool :=
  match who with
  | .session i => s.isOwner (some i) || (match s.session? (some i) with | some x => x.sideband | none => false)
  | .sideband => true
  | .other => false

/-- The effecter is set by a requester that may. -/
def State.compute (s : State) (who : MgmtFrom) (f : State → State) : State :=
  if !s.hrt.ready then s
  else if !s.mayCompute who then s.emit (.mgmt cmdCompute .denied [])
  else (f s).emit (.mgmt cmdCompute .ok [])

/-- COMPUTE_POWER_STANDBY (R463). -/
def execComputePowerStandby (who : MgmtFrom) (s : State) : Host.Outcome State Fault Refusal :=
  .next <| s.compute who fun s => s.standbyRequest 11

/-- COMPUTE_POWER_ON: the standby request and the trip latch are released (R463, R472). -/
def execComputePowerOn (who : MgmtFrom) (s : State) : Host.Outcome State Fault Refusal :=
  .next <| s.compute who fun s => { s with pwr := { s.pwr with standbyReq := none, latch := false } }

/-- A TRIP record (R472). -/
def State.tripRecord (s : State) (kind sensor : Nat) : State := s.ev 0x0504 12 sensor (kind + sensor * 2 ^ 8) 0

/-- INPUT_UNDERVOLTAGE: standby without fences (R463, R471, R472). -/
def execInputUndervoltage (s : State) : Host.Outcome State Fault Refusal :=
  .next <| if s.pwr.dom = .off then s else (s.tripRecord 8 133).domainDown 0

/-- INPUT_DISCONNECT: the domain goes down at once (R471, R472). -/
def execInputDisconnect (s : State) : Host.Outcome State Fault Refusal :=
  .next <| if s.pwr.dom = .off then s else (s.tripRecord 7 133).domainDown 0

/-- Kind and sensor of a die trip (R472). -/
def tripOf (d : Nat) : TripKind → Nat × Nat
  | .diode n => (1, n)
  | .rail => (2, 96 + d)

/-- DIE_TRIP: a die reset whose rail stays off (R471). -/
def execDieTrip (die : Nat) (k : TripKind) (s : State) : Host.Outcome State Fault Refusal :=
  guardWf (Instr.wf (.dieTrip die k)) s <|
    if s.pwr.dom ≠ .on then s
    else
      let s := s.tripRecord (tripOf die k).1 (tripOf die k).2
      (s.dieReset die 5).modDie die fun x => { x with trip := true }

/-- Every diode of a die that has been read reads below 90 °C. -/
def State.cooled (s : State) (d : Nat) : Bool := !(List.range 8).any fun i => s.outside (8 * d + i) (-32768) (90 * 16 - 1)

/-- DIE_TRIP_RELEASE: the die has cooled, the rail is raised, and the die reset completes (R471). -/
def execDieTripRelease (die : Nat) (s : State) : Host.Outcome State Fault Refusal :=
  guardWf (dieOk die) s <|
    if !(s.die die).trip || !s.cooled die then s
    else ((s.modDie die fun x => { x with trip := false }).dieResetEnd die).dieBack

/-- MODULE_TRIP: fences, the domain goes down, the latch is held (R471, R472). -/
def execModuleTrip (kind sensor : Nat) (s : State) : Host.Outcome State Fault Refusal :=
  guardWf (Instr.wf (.moduleTrip kind sensor)) s <|
    if s.pwr.dom = .off then s
    else
      let s := s.tripRecord kind sensor
      let s := { s with pwr := { s.pwr with latch := true } }
      if s.pwr.dom = .on then s.standbyGo 5 else s.domainDown 5

/-- STANDBY_RAIL_LOSS: the Hearth and everything it powers go off (R471). -/
def execStandbyRailLoss (s : State) : Host.Outcome State Fault Refusal :=
  .next <|
    let s := s.domainDown 0
    { s with
      hrt := { s.hrt with ready := false, restart := .none, fifo := [] }
      sec := { s.sec with sessions := [] }
      pwr := { s.pwr with standbyRail := false } }

/-- POWER_ON_RESET: everything but flash is at its reset values, and the Hearth starts (R458, R464, R408). -/
def execPowerOnReset (s : State) : Host.Outcome State Fault Refusal :=
  .next <|
    let lent := s.sec.st.lent
    let s := s.restartTime
    let s := { State.reset with
      pending := s.pending, free := s.free, out := s.out
      mem := { MemSys.reset with retired1 := s.mem.retired1, retired2 := s.mem.retired2 }
      flt := { Flt.reset with
        retired := s.flt.retired, due := s.flt.due, health := s.flt.health }
      sec := s.sec.powerOn
      hrt := s.hrt.powerOn
      pwr := { Pwr.reset with lasers := s.pwr.lasers, lasersOk := s.pwr.lasersOk } }
    let s := s.rebuildRemap
    if lent then s.ev 0x0701 11 0 (s.sec.st.code * 2 ^ 16) 0 else s

/-- The first condition of R459 that does not hold: 1 the 48 V input, 2 the coolant inlet, 3 a standby request, 4 the
trip latch. -/
def State.powerUnmet (s : State) : Option Nat :=
  if s.outsideU 133 40000 56000 then some 1
  else if s.outside 136 (20 * 16) (40 * 16) then some 2
  else if s.pwr.standbyReq.isSome then some 3
  else if s.pwr.latch then some 4
  else none

/-- DOMAIN_POWER_UP (R459, R472, Table 16.1 order 1). -/
def execDomainPowerUp (s : State) : Host.Outcome State Fault Refusal :=
  .next <|
    if !s.hrt.ready || s.pwr.dom ≠ .off then s
    else
      match s.powerUnmet with
      | some c =>
        if s.pwr.unmet = some c then s
        else ({ s with pwr := { s.pwr with unmet := some c } }).ev 0x05FF 0 0 (c * 2 ^ 8) 0
      | none =>
        let s := s.restartTime
        { s with pwr := { s.pwr with dom := .rising, domSince := 0, unmet := none } }

/-- Record of a laser unit's removal (R33). -/
def State.laserRecord (s : State) (d : Nat) : State := s.ev 0x05FF 2 d (6 * d * 2 ^ 8) 0

/-- POWER_UP_COMPLETE (Table 16.1 orders 2 to 6, R463, R465, Tables 16.6 and 17.7). -/
def execPowerUpComplete (s : State) : Host.Outcome State Fault Refusal :=
  .next <|
    if s.pwr.dom ≠ Dom.rising || decide (s.now < s.pwr.domSince + 64000000) then s
    else
      let late := s.pwr.laserRecs
      let exit := !s.pwr.powerOn
      let p := s.pwr
      let s := { s with
        sec := { s.sec with memKeys := s.sec.tkey.isSome }
        hrt := { s.hrt with dieMv := (List.range 8).map fun d => (d, 720) }
        pwr := { p with
          dom := .on, domSince := s.now, powerOn := false, laserRecs := []
          sbyCnt := if exit then satInc p.sbyCnt else p.sbyCnt } }
      let s := s.rebuildRemap
      let s := if exit then s.resetRecord 6 p.standbySrc 0 else s.resetRecord 7 0 0
      let s := late.foldl (fun (s : State) d => s.laserRecord d) s
      match s.pwr.standbyReq with
      | some src => s.standbyGo src
      | none => s

/-! The host link (R456) -/

/-- PCIE_CONVENTIONAL_RESET (R456). -/
def execPcieConventionalReset (s : State) : Host.Outcome State Fault Refusal := .next <| s.warmReset 2

/-- FUNCTION_LEVEL_RESET: a request over the link (R456). -/
def execFunctionLevelReset (s : State) : Host.Outcome State Fault Refusal :=
  .next <| if s.hif.linkUp then s.warmReset 3 else s

/-- LINK_DOWN: T3 accesses and MSI-X messages wait (R456). -/
def execLinkDown (s : State) : Host.Outcome State Fault Refusal :=
  .next <|
    if !s.hif.linkUp then s
    else { s with hif := { s.hif with linkUp := false, rate := 0, width := 0, flit := false, downSince := some s.now } }

/-- LINK_UP: what was held goes out (R456, Table 16.1 order 6). -/
def execLinkUp (rate width : Nat) (flit : Bool) (s : State) : Host.Outcome State Fault Refusal :=
  guardWf (Instr.wf (.linkUp rate width flit)) s <|
    if s.hif.linkUp || s.pwr.dom ≠ .on then s
    else
      let held := s.hif.held
      let s := { s with hif := { s.hif with
        linkUp := true, rate := rate, width := width, flit := flit, downSince := none, held := [] } }
      (({ s with out := s.out ++ held }).flushMsix).resume

/-- LINK_DOWN_TIMEOUT: the link has been down for more than 100 ms (R456). -/
def execLinkDownTimeout (s : State) : Host.Outcome State Fault Refusal :=
  .next <|
    match s.hif.downSince with
    | some t =>
      if s.hif.linkUp || decide (s.now ≤ t + 100000000) then s
      else ({ s with hif := { s.hif with downSince := none } }).warmReset 4
    | none => s

/-! Laser units (R33, R477) -/

/-- LASER_UNIT_REMOVED: six ports go down together (R33, Table 17.7). -/
def execLaserUnitRemoved (d : Nat) (s : State) : Host.Outcome State Fault Refusal :=
  guardWf (dieOk d) s <|
    if !s.pwr.lasers.contains d then s
    else
      let s := { s with pwr := { s.pwr with
        lasers := s.pwr.lasers.filter (· ≠ d), lasersOk := s.pwr.lasersOk.filter (· ≠ d) } }
      let s := (List.range 6).foldl (fun (s : State) i =>
        s.onPortRow (6 * d + i) fun x => x.lightLost (6 * d + i) 0b11111 s.now) s
      let s := if s.pwr.dom = .on then s.laserRecord d else { s with pwr := { s.pwr with laserRecs := s.pwr.laserRecs ++ [d] } }
      s.refreshAlarm

/-- LASER_UNIT_INSERTED (R477). -/
def execLaserUnitInserted (d : Nat) (s : State) : Host.Outcome State Fault Refusal :=
  guardWf (dieOk d) s <|
    if s.pwr.lasers.contains d then s else { s with pwr := { s.pwr with lasers := s.pwr.lasers ++ [d] } }

/-- LASER_READY: the unit reaches its output limit, and its ports train (R245, R477). -/
def execLaserReady (d : Nat) (s : State) : Host.Outcome State Fault Refusal :=
  guardWf (dieOk d) s <|
    if !s.pwr.lasers.contains d || s.pwr.lasersOk.contains d then s
    else
      let s := { s with pwr := { s.pwr with lasersOk := s.pwr.lasersOk ++ [d] } }
      let s := (List.range 6).foldl (fun (s : State) i =>
        s.onPortRow (6 * d + i) fun x => x.lightReturn (6 * d + i) 0b11111 s.now) s
      s.refreshAlarm

end Sys2Proof.Machine
end

