-- ==== Sys2Proof/Machine/FabCmds.lean ====
section
/-! DEFINITION. Flits and ports, and the packets of the fabric that end here: requests, responses, collectives, fences,
time and link state (R241 to R276, R282 to R296). -/
namespace Sys2Proof

/-- Key of the instance a COLL packet belongs to (Table 8.5, R281). -/
def Packet.collKey (k : Packet) : InstKey := ⟨k.ctx, nbits k.addr 16 10, nbits k.addr 0 16, k.seqNo⟩
/-- RANK of a COLL packet. -/
def Packet.rank (k : Packet) : Nat := nbits k.addr 26 14
/-- FMT and OPR of a COLL packet. -/
def Packet.fo (k : Packet) : Nat := nbits k.addr 40 6

/-- A 64-bit payload value from word `i` on. -/
def Packet.pw64 (k : Packet) (i : Nat) : Nat := (k.pw i).toNat + (k.pw (i + 1)).toNat * 2 ^ 32

/-- 64 bits as two payload words. -/
def words64 (v : Nat) : List W32 := [BitVec.ofNat 32 v, BitVec.ofNat 32 (v / 2 ^ 32)]

/-- Usable links of the group as this module knows them: its own 16, and what its peers report (R255). -/
def Fab.links (f : Fab) : List Nat :=
  ((List.range 16).filter fun g => f.isUp (globalPort g)).map (16 * f.pos + ·) ++ f.glstate.filter fun h => h / 16 ≠ f.pos

/-- A link-state vector as 16 words. -/
def linkWords (l : List Nat) : List W32 :=
  (List.range 16).map fun i => BitVec.ofNat 32 ((List.range 32).foldl (fun a j => if l.contains (32 * i + j) then a + 2 ^ j else a) 0)

/-- The 16 links of a position in a link-state packet. -/
def Packet.linksOf (k : Packet) (q : Nat) : List Nat :=
  ((List.range 16).map (16 * q + ·)).filter fun h => (k.pw (h / 32)).getLsbD (h % 32)

/-- Offset of an exchange as FAB_RT_OFFSET reports it: saturating at ±(2^31 - 1). -/
def clampOff (x : Int) : Int := max (-(2 ^ 31 - 1)) (min (2 ^ 31 - 1) x)

/-- The state of the counter after a valid exchange with this offset (Table 2.4, R53). -/
def RefTime.next (r : RefTime) (theta : Int) : RefTime :=
  let near := decide (-50 ≤ theta) && decide (theta ≤ 50)
  let far := decide (theta < -1000) || decide (1000 < theta)
  let good := if near then r.good + 1 else 0
  let st := match r.st with
    | .free => RtState.acquire
    | .acquire => if good ≥ 16 then .locked else .acquire
    | .locked => if far then .acquire else .locked
    | .holdover => if far then .acquire else if near then .locked else .holdover
  { r with st := st, good := if st = .acquire && r.st ≠ .acquire && r.st ≠ .free then 0 else good, offset := clampOff theta, lastValid := r.now }

/-- The frequency correction of a valid exchange: the rate, in ppm, that works its offset off within the interval of 1,000,000
ns, in the limits of LOCKED (Table 2.4, R273): DESIGN CHOICE (log entry 72). -/
def freqOf (theta : Int) : Int := max (-100) (min 100 (-theta))

/-- The lengths of an instance are known. -/
def Inst.sized (i : Inst) : Bool := i.body.isSome && (i.phase = .run || i.phase = .write || i.phase = .past)

/-- A class that is reserved, or a reserved OP of CTRL: no row takes such a packet's work (R250). -/
def Packet.noRow (k : Packet) : Bool := decide (k.cls ≥ 6) || (k.cls = 5 && (k.op = 0 || decide (k.op ≥ 5)))

/-- Bytes of a flow from byte `lo` on that one packet may bring: within its segment, which it names, once the lengths are
known. -/
def Inst.roomAt (i : Inst) (me rank lo n : Nat) : Option (Nat × Nat) :=
  match i.body with
  | some b =>
    if i.sized then
      let c := i.contrib b rank me
      (segRange c (i.resultPart b rank me) (segAt c lo)).map fun (r : Nat × Nat) => (segAt c lo, min n (r.1 + r.2 - lo))
    else some (lo / segSize, n)
  | none => some (lo / segSize, n)

end Sys2Proof

namespace Sys2Proof.Machine

/-! Flits and ports (R241 to R248) -/

/-- FLIT_DATA_RECEIVE (R242, R243). -/
def execFlitDataReceive (port : Nat) (fl : Flit) (s : State) : Host.Outcome State Fault Refusal :=
  guardWf (portOk port && flitOk fl) s <| s.onPortRow port fun x => x.rxData port fl

/-- FLIT_NAK_RECEIVE (R243, R244). -/
def execFlitNakReceive (port : Nat) (fl : Flit) (s : State) : Host.Outcome State Fault Refusal :=
  guardWf (portOk port && flitOk fl) s <| s.onPortRow port fun x => x.rxNak port fl s.now

/-- FLIT_IDLE_RECEIVE (R242). -/
def execFlitIdleReceive (port : Nat) (fl : Flit) (s : State) : Host.Outcome State Fault Refusal :=
  guardWf (portOk port && flitOk fl) s <| s.onPortRow port fun x => x.rxIdle port fl

/-- FLIT_IDENT_RECEIVE (R246). -/
def execFlitIdentReceive (port : Nat) (fl : Flit) (s : State) : Host.Outcome State Fault Refusal :=
  guardWf (portOk port && flitOk fl) s <| s.onPortRow port fun x => x.rxIdent port s.fab.idValid s.fab.sysid fl s.now

/-- IDENT_SEND_TICK (R246). -/
def execIdentSendTick (port : Nat) (s : State) : Host.Outcome State Fault Refusal :=
  guardWf (portOk port) s <|
    if (s.fab.port port).state = .ident then
      let w := s.fab.identWords port
      let (x, o) := (s.fab.port port).putFlit port 3 0 [w.1, w.2]
      ({ s with fab := s.fab.setPort port x } : State).emit o
    else s

/-- IDENT_TIMEOUT (R246). -/
def execIdentTimeout (port : Nat) (s : State) : Host.Outcome State Fault Refusal :=
  guardWf (portOk port) s <| s.onPortRow port fun x => x.identTimeout port s.now

/-- PORT_TRAIN_DONE (R237, R245). -/
def execPortTrainDone (port : Nat) (ok : BitVec 5) (s : State) : Host.Outcome State Fault Refusal :=
  guardWf (portOk port) s <| s.onPortRow port fun x => x.trainDone port ok s.now

/-- PORT_TRAIN_TIMEOUT (R245). -/
def execPortTrainTimeout (port : Nat) (s : State) : Host.Outcome State Fault Refusal :=
  guardWf (portOk port) s <| s.onPortRow port fun x => x.trainTimeout port s.now

/-- PORT_RETRAIN_TIMEOUT (R245). -/
def execPortRetrainTimeout (port : Nat) (s : State) : Host.Outcome State Fault Refusal :=
  guardWf (portOk port) s <| s.onPortRow port fun x => x.retrainTimeout port s.now

/-- PORT_LIGHT_LOST (R245). -/
def execPortLightLost (port : Nat) (lanes : BitVec 5) (s : State) : Host.Outcome State Fault Refusal :=
  guardWf (portOk port) s <| s.onPortRow port fun x => x.lightLost port lanes s.now

/-- PORT_LIGHT_RETURN (R245). -/
def execPortLightReturn (port : Nat) (lanes : BitVec 5) (s : State) : Host.Outcome State Fault Refusal :=
  guardWf (portOk port) s <| s.onPortRow port fun x => x.lightReturn port lanes s.now

/-! Packets (R251, R252, R261) -/

/-- The packet heads what the port has received. -/
def State.atHead (s : State) (p : Nat) (k : Packet) : Bool := (s.fab.port p).rxPkts.head? = some k

/-- Take the packet off its port's received list; its buffer is free (R256). -/
def State.takePkt (s : State) (p : Nat) (k : Packet) : State := { s with fab := s.fab.take p k true }

/-- Count a discarded packet against its port (R236, R252). -/
def State.badPkt (s : State) (p : Nat) : State := { s with fab := s.fab.pktErr p }

/-- A packet whose tag fails is discarded and counted (R251, R396). -/
def State.authDrop (s : State) : State := { s with fab := { s.fab with authDrops := s.fab.authDrops + 1 } }

/-- A context's packet is discarded: CTX is not defined here, or EPOCH is not its present one (R261, R265). -/
def State.wrongEpoch (s : State) (k : Packet) : Bool := (s.ctx? k.ctx).isNone || k.epoch ≠ (s.fab.ctx k.ctx).epoch

/-- A context's packet is discarded: SRC is fenced, or the context is fenced here (R261, R269). -/
def State.srcFenced (s : State) (k : Packet) : Bool := s.fab.isFenced k.ctx k.src || (s.fab.ctx k.ctx).fenced

/-- Run `f` on a packet of class `cls` and an OP of `ops` that ends here, opened, once the checks that every packet meets
have passed (R236, R251, R252, R261, R265, R269). -/
def State.packetRow (s : State) (p : Nat) (k : Packet) (cls : Nat) (ops : Nat → Bool) (f : State → Packet → State) : State :=
  if !s.atHead p k || k.cls ≠ cls || !ops k.op || s.fab.route false k ≠ .deliver then s
  else
    let s := s.takePkt p k
    if p = 3 && cls ≠ 3 && cls ≠ 5 then s.badPkt p
    else
      match s.opened k with
      | none => s.authDrop
      | some k =>
        match k.check with
        | some st => if cls = 0 then s.reply k st none else s.badPkt p
        | none =>
          if cls ≠ 3 && cls ≠ 5 && s.wrongEpoch k then { s with fab := { s.fab with epochDrops := s.fab.epochDrops + 1 } }
          else if cls ≠ 3 && cls ≠ 5 && s.srcFenced k then { s with fab := { s.fab with fenceDrops := s.fab.fenceDrops + 1 } }
          else f s k

/-- PACKET_FORWARD (R252, R254); a packet that ends here in a reserved class, or with a reserved OP of CTRL, is discarded. -/
def execPacketForward (port : Nat) (p : Packet) (s : State) : Host.Outcome State Fault Refusal :=
  guardWf (portOk port && packetOk p) s <|
    if !s.atHead port p || p.cls = 4 then s
    else if s.fab.route false p = .deliver then (if p.noRow then s.packetRow port p p.cls (fun _ => true) fun s _ => s else s)
    else { s with fab := s.fab.forward port p }

/-- REQ_READ (R261). A reserved OP of class REQ comes here. -/
def execReqRead (port : Nat) (p : Packet) (res : OpRes) (s : State) : Host.Outcome State Fault Refusal :=
  guardWf (portOk port && packetOk p) s <| s.packetRow port p 0 (fun o => o ≠ 2 && o ≠ 3) fun s k => s.serve false k res

/-- REQ_WRITE (R261). -/
def execReqWrite (port : Nat) (p : Packet) (res : OpRes) (s : State) : Host.Outcome State Fault Refusal :=
  guardWf (portOk port && packetOk p) s <| s.packetRow port p 0 (· = 2) fun s k => s.serve false k res

/-- REQ_PUSH (R262, R263). -/
def execReqPush (port : Nat) (p : Packet) (s : State) : Host.Outcome State Fault Refusal :=
  guardWf (portOk port && packetOk p) s <| s.packetRow port p 0 (· = 3) fun s k => s.serve false k .ok

/-! Responses (R260) -/

/-- A response that completes nothing is counted (R260). -/
def State.lateRsp (s : State) : State := { s with fab := { s.fab with lateRsp := s.fab.lateRsp + 1 } }

/-- The transaction a response completes; one whose timeout has come times out first (R260, R357). -/
def State.rspFor (s : State) (k : Packet) : State × Option Txn :=
  match SMap.get? s.fab.txns k.seqNo.toNat with
  | none => (s.lateRsp, none)
  | some t =>
    if t.dst ≠ k.src || t.ctx ≠ k.ctx then (s.lateRsp, none)
    else if s.remoteOver t.since then ((s.txnTimeout k.seqNo.toNat).lateRsp, none)
    else (s, some t)

/-- Retire a sequence number. -/
def State.retireSeq (s : State) (k : Packet) : State := { s with fab := { s.fab with txns := SMap.erase s.fab.txns k.seqNo.toNat } }

/-- The piece that a transaction is for, when it waits for it: bytes, address, whether it is a read. -/
def State.pieceFor (s : State) (id k seq : Nat) : Option (Nat × Nat × Bool) :=
  match s.desc? id with
  | some d =>
    match d.body with
    | .move b r =>
      (match SMap.get? r.pieces k with
       | some p =>
         (match p.st with
          | .reading (.remote q) => if q = seq then (b.srcAt p.row p.off p.plane).map fun a => (p.n, a, true) else none
          | .writing bs _ (.remote q) => if q = seq then some (bs.length, b.dstAt p.row p.off, false) else none
          | _ => none)
       | none => none)
    | _ => none
  | none => none

/-- RSP_RDATA (R222, R260, R261). -/
def execRspRdata (port : Nat) (p : Packet) (s : State) : Host.Outcome State Fault Refusal :=
  guardWf (portOk port && packetOk p) s <| s.packetRow port p 1 (· = 1) fun s p =>
    match s.rspFor p with
    | (s, none) => s
    | (s, some t) =>
      match t.who with
      | .push _ _ => s.badPkt port
      | .piece id k =>
        match s.pieceFor id k p.seqNo.toNat with
        | some (n, a, true) =>
          let st := Status.ofCode (p.aux % 256)
          if p.pay.length ≠ ceilDiv (a % 4 + n) 4 then s.badPkt port
          else
            let s := s.retireSeq p
            let bs := ((wordsToBytes p.pay).drop (a % 4)).take n
            if st = .ok then s.gotData id k bs []
            else if st = .parity then (s.dataErr id).gotData id k bs (List.range n)
            else s.failPiece id k st
        | _ => s.badPkt port

/-- RSP_ACK (R260 to R262). A reserved OP of class RSP comes here. -/
def execRspAck (port : Nat) (p : Packet) (s : State) : Host.Outcome State Fault Refusal :=
  guardWf (portOk port && packetOk p) s <| s.packetRow port p 1 (· ≠ 1) fun s p =>
    match s.rspFor p with
    | (s, none) => s
    | (s, some t) =>
      let st := Status.ofCode (p.aux % 256)
      match t.who with
      | .push l pc => if st = .ok then s.retireSeq p else (s.retireSeq p).faultTile l st pc
      | .piece id k =>
        match s.pieceFor id k p.seqNo.toNat with
        | some (n, _, rd) =>
          if st ≠ .ok then (s.retireSeq p).failPiece id k st
          else if rd then s.badPkt port
          else ((s.retireSeq p).endPiece id k n).moveCheck id
        | none => s.badPkt port

/-! Collectives (R281 to R296) -/

/-- An instance that is over still owes a peer that is not fenced. -/
def State.owes (s : State) (i : Inst) : Bool :=
  match s.group? i.key.cgrp with
  | some g => i.outs.any fun o => !s.rankFenced g i.key.ctx o.rank && !o.todo.isEmpty
  | none => false

/-- Instances are kept while peers may ask for a segment again, until their deadline; one that still owes data is kept while
its peers may wait for it, the remote-wait time longer (R288, Table 8.13): log entry 196. -/
def State.dropOver (s : State) : State :=
  { s with fab := { s.fab with insts := s.fab.insts.filter fun i =>
      match i.phase, i.body with
      | .past, some b => decide (s.now < b.deadline) || (s.owes i && !s.remoteOver b.deadline)
      | .past, none => false
      | _, _ => true } }

/-- A COLL packet from the member that its RANK names, in its context's group. -/
def State.collPkt (s : State) (p : Nat) (k : Packet) (ops : Nat → Bool) (f : State → Packet → CGroup → State) : State :=
  s.packetRow p k 2 ops fun s k =>
    let s := s.dropOver
    match s.group? k.collKey.cgrp with
    | some g => if g.ctx = k.ctx && g.members[k.rank]? = some k.src && k.rank ≠ g.rank then f s k g else s.badPkt p
    | none => s.badPkt p

/-- A finished instance of a key. -/
def State.doneInst? (s : State) (k : InstKey) : Option DoneInst := s.fab.done.find? fun d => d.key = k

/-- What comes for an instance is discarded: it has closed here without its work, and no fresh one is open (R291). -/
def State.collGone (s : State) (k : InstKey) : Bool :=
  (match s.inst? k with | some i => i.phase = .past || i.phase = .early | none => true)
    && (match s.doneInst? k with | some d => !d.good | none => false)

/-- The instance of a key, or an empty one for packets that come before its descriptor. -/
def State.instOr (s : State) (k : InstKey) : Inst := (s.inst? k).getD (newInst k s.now)

/-- What comes for the key has no use: the instance has ended and is kept no longer. -/
def State.collStale (s : State) (k : InstKey) : Bool := (s.inst? k).isNone && (s.doneInst? k).isSome

/-- A segment of a flow has been included, held or dropped: what comes of it again is a duplicate (R286, Table 8.13). -/
def State.segTaken (s : State) (k : InstKey) (rank seg : Nat) : Bool :=
  (((s.instOr k).inFrom rank).good.any fun y => y.1 = seg) || (s.doneInst? k).any fun d => d.taken.contains (rank, seg)

/-- A segment that came too late has been held or dropped. -/
def State.segDone (s : State) (k : InstKey) (rank seg : Nat) : State :=
  let s := match s.inst? k with
    | some i => s.setInst (i.setIn { i.inFrom rank with good := (i.inFrom rank).good ++ [(seg, s.now)] })
    | none => s
  { s with fab := { s.fab with done := s.fab.done.map fun d => if d.key = k then { d with taken := d.taken ++ [(rank, seg)] } else d } }

/-- An owner that has reduced, or that has ended, takes what comes of its shard as late: bytes of its shard (R286). -/
def State.lateShard (s : State) (k : InstKey) (me : Nat) : Option Nat :=
  match s.inst? k with
  | some i =>
    (match i.phase, i.body with
    | .early, _ => (s.doneInst? k).bind (·.shard)
    | .load, _ => none
    | .run, some b | .write, some b | .past, some b =>
      if b.op.isRed && i.result.isSome then some (allBytes b.f (i.len me)) else none
    | _, none => none)
  | none => (s.doneInst? k).bind (·.shard)

/-- A DATA block enters the inflow of its rank: `lo` is its place in the flow and `bs` its bytes. A permute's elements go on
to their final place, and are credited from there; other data that passes no scratch is credited as it comes (R283, R294). -/
def State.dataIn (s : State) (g : CGroup) (i : Inst) (rank fo lo : Nat) (bs : List Byte) : State :=
  let x := i.inFrom rank
  let i := i.setIn { x with data := x.data.wrN lo bs, got := ivAdd x.got lo bs.length }
  match i.phase, i.body with
  | .run, some b =>
    let blk := if b.op = .permute then i.blockIn b g.rank rank lo bs else []
    let s := s.setInst { i with ring := i.ring ++ blk }
    if !blk.isEmpty || (b.op.isRed && decide (lo < i.contrib b rank g.rank)) then s else s.sendCredit g i fo rank 1
  | _, _ => s.setInst i

/-- COLL_DATA: bytes of a flow by element offset; what has come before is discarded (R282, R288, Table 8.13). -/
def execCollData (port : Nat) (p : Packet) (s : State) : Host.Outcome State Fault Refusal :=
  guardWf (portOk port && packetOk p) s <| s.collPkt port p (fun o => !(decide (2 ≤ o) && decide (o ≤ 7))) fun s p g =>
    let k := p.collKey
    match fmtOf (nbits p.addr 40 4) with
    | none => s.badPkt port
    | some f =>
      let i := s.instOr k
      let lo := p.aux * fmtBits f / 8
      let done := i.phase = .write || i.phase = .past || s.collStale k
      if s.collGone k || (done && (s.lateShard k g.rank).isNone) then s
      else
        match i.roomAt g.rank p.rank lo (4 * p.pay.length) with
        | none => s.badPkt port
        | some (sg, n) =>
          if s.segTaken k p.rank sg || (decide (0 < n) && ivCovers (i.inFrom p.rank).got lo n) then s
          else s.dataIn g i p.rank p.fo lo ((wordsToBytes p.pay).take n)

/-- A late segment leaves its flow: held when whole and correct, dropped otherwise; `at_` is its first byte and its size
(R285, R286). -/
def State.lateTake (s : State) (k : InstKey) (rank n seg crc : Nat) (at_ : Nat × Nat) : State :=
  let i := s.instOr k
  let x := i.inFrom rank
  let s := if (s.inst? k).isSome then s.setInst (i.setIn { x with got := ivCut x.got at_.1 at_.2 }) else s
  let s := s.segDone k rank seg
  if x.holds at_.1 at_.2 crc then s.holdLate ⟨k, rank, seg, n, x.data.rdN at_.1 at_.2, s.now⟩
  else s.dropLate [⟨k, rank, seg, n, [], s.now⟩]

/-- The segment `seg` of a flow to a shard of `n` bytes, too late for its reduction: it is held or dropped, and its staging
segment is free again (R283, R285, R286). -/
def State.lateSegment (s : State) (g : CGroup) (k : InstKey) (fo rank n seg crc : Nat) : State :=
  (segRange n 0 seg).elim s fun at_ => (s.lateTake k rank n seg crc at_).sendCredit g (s.instOr k) fo rank (blocksOf at_.2)

/-- COLL_SEGEND (R282, R285, R286): too late for a reduction, or to be judged. -/
def execCollSegend (port : Nat) (p : Packet) (s : State) : Host.Outcome State Fault Refusal :=
  guardWf (portOk port && packetOk p) s <| s.collPkt port p (· = 2) fun s p g =>
    let k := p.collKey
    let i := s.instOr k
    let crc := (p.pw 0).toNat
    let seg := (p.pw 1).toNat
    if s.collGone k || s.segTaken k p.rank seg then s
    else
      let late := (s.lateShard k g.rank).filter fun n => decide (seg < segsOf n)
      match late with
      | some n => s.lateSegment g k p.fo p.rank n seg crc
      | none =>
        if i.phase = .write || i.phase = .past || s.collStale k then s
        else (s.setInst (i.setIn { i.inFrom p.rank with pend := (i.inFrom p.rank).pend ++ [(seg, crc, s.now)] })).instCheck k

/-- COLL_RESEND: the segment is sent again as credit allows, also once the descriptor has completed, until the deadline
(R285, Table 8.13). -/
def execCollResend (port : Nat) (p : Packet) (s : State) : Host.Outcome State Fault Refusal :=
  guardWf (portOk port && packetOk p) s <| s.collPkt port p (· = 3) fun s p g =>
    match s.inst? p.collKey with
    | some i =>
      (match i.body with
      | some b =>
        let seg := (p.pw 0).toNat
        if !i.sized || decide (s.now ≥ b.deadline) then s
        else
          match segRange (i.contrib b g.rank p.rank) (if i.result.isSome then i.resultPart b g.rank p.rank else 0) seg with
          | none => s.badPkt port
          | some (lo, n) =>
            (s.setInst (i.modOut p.rank fun o => { o with
              todo := (lo, n) :: ivCut o.todo lo n, sent := ivCut o.sent lo n, ended := o.ended.filter (· ≠ seg) })).sendLeft i.key
      | none => s)
    | none => s

/-- COLL_GRANT (R294). -/
def execCollGrant (port : Nat) (p : Packet) (s : State) : Host.Outcome State Fault Refusal :=
  guardWf (portOk port && packetOk p) s <| s.collPkt port p (· = 4) fun s p g =>
    let i := s.instOr p.collKey
    if s.collGone p.collKey || s.collStale p.collKey || i.phase = .past || i.phase = .write then s
    else s.setInst (i.addGrant g.rank p.rank (p.pw64 0, p.pw64 2))

/-- COLL_CREDIT (R283, R294): an instance that is over sends what it still owes. -/
def execCollCredit (port : Nat) (p : Packet) (s : State) : Host.Outcome State Fault Refusal :=
  guardWf (portOk port && packetOk p) s <| s.collPkt port p (· = 5) fun s p _ =>
    let k := p.collKey
    if s.collGone k || s.collStale k then s
    else (s.setInst ((s.instOr k).addCredit p.rank (p.pw 0).toNat)).sendLeft k

/-- COLL_ARRIVE at rank 0, before the deadline (R289, R290). -/
def execCollArrive (port : Nat) (p : Packet) (s : State) : Host.Outcome State Fault Refusal :=
  guardWf (portOk port && packetOk p) s <| s.collPkt port p (· = 6) fun s p g =>
    let k := p.collKey
    let i := s.instOr k
    if g.rank ≠ 0 || s.collGone k || s.collStale k || i.phase = .past || i.phase = .write || (i.arrived.any fun a => a.1 = p.rank) then s
    else if i.body.any fun b => i.phase = .run && decide (s.now ≥ b.deadline) then
      (s.setInst { i with late := true }).instCheck k
    else (s.setInst { i with arrived := i.arrived ++ [(p.rank, (p.pw 0).getLsbD 0, (p.pw 0).getLsbD 1)] }).instCheck k

/-- COLL_DECIDE from rank 0 (R289, R290). -/
def execCollDecide (port : Nat) (p : Packet) (s : State) : Host.Outcome State Fault Refusal :=
  guardWf (portOk port && packetOk p) s <| s.collPkt port p (· = 7) fun s p _ =>
    let k := p.collKey
    let i := s.instOr k
    if p.rank ≠ 0 || s.collGone k || s.collStale k || i.phase = .past || i.phase = .write || i.decided.isSome then s
    else (s.setInst { i with decided := some (p.pw 0) }).instCheck k

/-- COLL_DEADLINE_EXPIRE of a descriptor's instance (R282, R288, R289). -/
def execCollDeadlineExpire (id : Nat) (s : State) : Host.Outcome State Fault Refusal :=
  .next <|
    match s.instOf id with
    | some i =>
      match i.body with
      | some b =>
        if i.phase ≠ .run || i.late || decide (s.now < b.deadline) || s.earlier b.deadline then s
        else (s.setInst { i with late := true }).instCheck i.key
      | none => s
    | none => s

/-! Fences (R268 to R272) -/

/-- Pass a FENCE packet on, as it came, on every port but the one it came on (R268). -/
def State.passFence (s : State) (p : Nat) (k : Packet) : State :=
  if k.hop + 1 > 5 then s
  else
    (s.fab.fencePorts (some p)).foldl (fun (s : State) q =>
      { s with fab := ({ s.fab with fenceFwd := s.fab.fenceFwd + 1 } : Fab).enqueue q ⟨k.setF 0 24 3 (k.hop + 1), none, .job⟩ }) s

/-- A FENCE whose tag has verified is recorded, when this module defines CTX at EPOCH (R265, R268). -/
def State.takeFence (s : State) (k : Packet) : State :=
  match s.ctx? k.ctx with
  | none => s
  | some x =>
    if k.epoch ≠ (s.fab.ctx k.ctx).epoch then { s with fab := { s.fab with epochDrops := s.fab.epochDrops + 1 } }
    else (s.recordFence k.ctx (fld (k.pw 0) 0 16)).hangCheck x.part

/-- FENCE_PACKET (R251, R268, R269): one from a fenced device is discarded; any other new one goes on, and what this module
cannot authenticate it does not record. The device of a packet it cannot open is the payload's field as it came, which is
a reading (log entry 197). -/
def execFencePacket (port : Nat) (p : Packet) (s : State) : Host.Outcome State Fault Refusal :=
  guardWf (portOk port && packetOk p) s <|
    if !s.atHead port p || p.cls ≠ 4 then s
    else
      let s := s.takePkt port p
      let o := s.opened p
      let k := o.getD p
      if port = 3 || p.check.isSome || (o.isSome && (fld (k.pw 0) 14 18 ≠ 0 || fld (k.pw 1) 14 18 ≠ 0)) then s.badPkt port
      else if o.isSome && s.fab.isFenced p.ctx p.src && p.epoch = (s.fab.ctx p.ctx).epoch then
        { s with fab := { s.fab with fenceDrops := s.fab.fenceDrops + 1 } }
      else
        let key : Fence := ⟨p.ctx, p.epoch, fld (k.pw 0) 0 16⟩
        if s.fab.fenceKeys.any fun e => e.1 = key && decide (s.now < e.2 + secNs) then (if o.isSome then s else s.authDrop)
        else
          let s := (s.addFenceKey key).passFence port p
          match o with
          | none => s.authDrop
          | some k => s.takeFence k

/-- FENCE_KEY_AGE_OUT (R268). -/
def execFenceKeyAgeOut (ctx : Nat) (epoch : W32) (dev : Nat) (s : State) : Host.Outcome State Fault Refusal :=
  guardWf (Instr.wf (.fenceKeyAgeOut ctx epoch dev)) s <|
    { s with fab := { s.fab with fenceKeys := s.fab.fenceKeys.filter fun e => !(e.1 = ⟨ctx, epoch, dev⟩ && decide (s.now ≥ e.2 + secNs)) } }

/-! Time (R53, R54, R273 to R276) -/

/-- An invalid exchange on a port (R275, R276). -/
def State.badExchange (s : State) (p : Nat) : State :=
  let f := s.fab
  let f := { f with invalid := satInc f.invalid, treqs := SMap.erase f.treqs p }
  if p = f.primary.toNat && !f.onBackup then
    if f.badRun + 1 ≥ 8 then { s with fab := { f with badRun := 0, onBackup := true } }
    else { s with fab := { f with badRun := f.badRun + 1 } }
  else { s with fab := f }

/-- Send a TREQ on a parent port; one that is still outstanding has had no valid answer (R273, R275). Its t1 is written as it
leaves (R395). -/
def State.sendTreq (s : State) (p : Nat) : State :=
  let s := if (SMap.get? s.fab.treqs p).isSome then s.badExchange p else s
  let f := s.fab
  let s := { s with fab := { f with treqs := SMap.set f.treqs p s.now } }
  if f.isUp p then s.queueOn p .job (mkPacket 3 1 f.self (f.port p).peerDev 0 0 0 0 0 (words64 s.now)) else s

/-- TREQ_SEND_TICK: on the primary, and on the backup while it is the parent (R273, R276). -/
def execTreqSendTick (s : State) : Host.Outcome State Fault Refusal :=
  .next <|
    if !s.fab.idValid then s
    else
      let b := s.fab.onBackup
      let s := s.sendTreq s.fab.primary.toNat
      if b && s.fab.backup ≠ s.fab.primary then s.sendTreq s.fab.backup.toNat else s

/-- FAB_RT_STAT.STATE (Table 2.4). -/
def rtCode : RtState → Nat
  | .free => 0 | .acquire => 1 | .locked => 2 | .holdover => 3

/-- TIME_TREQ: answered on the port it came on; t3 is written as the answer leaves (R274, R395). -/
def execTimeTreq (port : Nat) (p : Packet) (s : State) : Host.Outcome State Fault Refusal :=
  guardWf (portOk port && packetOk p) s <| s.packetRow port p 3 (· = 1) fun s p =>
    s.queueOn port .job (mkPacket 3 2 s.fab.self p.src 0 0 0 0 0
      (p.pay.take 2 ++ words64 s.now ++ words64 s.now ++ [BitVec.ofNat 32 (rtCode s.time.st), BitVec.ofNat 32 (ofS 32 s.time.offset)]))

/-- A valid exchange: FAB_RT_OFFSET, the state of Table 2.4, and its correction (R53, R54). -/
def State.goodExchange (s : State) (p : Nat) (theta : Int) (delay : Nat) : State :=
  let f := s.fab
  let prim := p = f.primary.toNat
  let s := { s with fab := { f with
    treqs := SMap.erase f.treqs p, valid := f.valid + 1, delay := BitVec.ofNat 32 delay
    badRun := if prim then 0 else f.badRun, onBackup := if prim then false else f.onBackup } }
  let r := s.time.next theta
  if r.st = .acquire && decide (theta < -10000) && !s.tableOn then
    let s := { s with time := { r with now := r.now + (-theta).toNat, lastValid := r.now + (-theta).toNat, stepped := true, slew := 0 } }
    s.ev 0x01FF 0 0 (0x108 * 2 ^ 8) 0
  else { s with time := { r with
    slew := if r.st = .holdover then s.time.slew else -theta
    freq := if r.st = .locked then freqOf theta else r.freq } }

/-- TIME_TRSP (R274 to R276). -/
def execTimeTrsp (port : Nat) (p : Packet) (s : State) : Host.Outcome State Fault Refusal :=
  guardWf (portOk port && packetOk p) s <|
    let parent := (SMap.get? s.fab.treqs port).isSome
    if s.atHead port p && p.cls = 3 && p.op ≠ 1 && s.fab.route false p = .deliver && (s.opened p).isNone && parent then
      (s.packetRow port p 3 (· ≠ 1) fun s _ => s).badExchange port
    else
      s.packetRow port p 3 (· ≠ 1) fun s p =>
        match SMap.get? s.fab.treqs port with
        | none => s
        | some t1 =>
          let (theta, delay) := timeExchange (p.pw64 0) (p.pw64 2) (p.pw64 4) s.now (p.pw 7).toInt
          let sure := (p.pw 6).getLsbD 3 || fld (p.pw 6) 0 3 = 2
          if p.pw64 0 = t1 && decide (s.now ≤ t1 + 100000) && decide (delay ≤ s.fab.dmax.toNat * 100)
              && s.fab.dmax ≠ 0 && sure then s.goodExchange port theta delay
          else s.badExchange port

/-- RT_HOLDOVER_TIMEOUT: 250 ms without a valid message in LOCKED (Table 2.4). -/
def execRtHoldoverTimeout (s : State) : Host.Outcome State Fault Refusal :=
  .next <|
    if s.time.st = .locked && decide (s.now ≥ s.time.lastValid + 250000000) then { s with time := { s.time with st := .holdover } } else s

/-! Link state (R255) -/

/-- LSTATE_RECEIVE. -/
def execLstateReceive (port : Nat) (p : Packet) (s : State) : Host.Outcome State Fault Refusal :=
  guardWf (portOk port && packetOk p) s <| s.packetRow port p 5 (· = 4) fun s p =>
    let q := p.src % 32
    if p.src / 32 ≠ s.fab.group || q = s.fab.pos then s.badPkt port
    else { s with fab := { s.fab with glstate := (s.fab.glstate.filter fun h => h / 16 ≠ q) ++ p.linksOf q } }

/-- LSTATE_SEND_TICK: to the other positions of the group that are populated (R255). -/
def execLstateSendTick (s : State) : Host.Outcome State Fault Refusal :=
  .next <|
    if !s.fab.idValid then s
    else
      let ws := linkWords s.fab.links
      ((SMap.keys s.fab.locals).filter fun q => q ≠ s.fab.pos && (s.fab.localEnt q).isSome).foldl (fun (s : State) q =>
        s.send .job (mkPacket 5 4 s.fab.self (s.fab.group * 32 + q) 0 0 0 0 0 ws)) s

end Sys2Proof.Machine
end

