-- ==== Sys2Proof/Machine/RtCmds.lean ====
section
/-! DEFINITION. Beat-rate monitors, the Bellows and reads of the reference time counter (R32, R39 to R51, R56, R385). -/
namespace Sys2Proof

/-- Least CAP_COUNT that meets floor (R41). -/
def floorCount : Nat := 4916
/-- Greatest CAP_COUNT at 1.90 G beats/s (R42). -/
def ceilCount : Nat := 7782
/-- Greatest core supply in mV (R42). -/
def mvMax : Nat := 780
/-- Floor supply in mV (R41). -/
def mvMin : Nat := 680
/-- One hour of reference time. -/
def hourNs : Nat := 3600000000000

/-- A window's counts reach a monitor (R44, R47); `dom` tells that the die is in the guarantee domain. -/
def Brm.window (b : Brm) (dom : Bool) (c : W16 × W16) : Brm where
  cap := c.1
  act := c.2
  minCap := if c.1.toNat < b.minCap.toNat then c.1 else b.minCap
  windows := b.windows + 1
  belowFloor := b.belowFloor || (dom && decide (c.1.toNat < floorCount))
  valid := true

/-- Counts of a physical tile in a window. -/
def BrmWindow.counts (w : BrmWindow) (p : Nat) : W16 × W16 :=
  match w.tiles.find? fun x => x.1 = p with
  | some x => x.2
  | none => w.dies.getD (physDie p) (0, 0)

/-- The lesser of a count and the least so far. -/
def minCount (m : Option Nat) (c : Nat) : Option Nat := some (match m with | some x => min x c | none => c)

/-- Supply at which a line through two readings meets 4,916 counts: the least whole number of mV (R385). -/
def vreqOf (lo hi : Nat × Nat) : Nat :=
  let num : Int := ((hi.1 : Int) - lo.1) * (floorCount - lo.2)
  let den : Int := (hi.2 : Int) - lo.2
  ((lo.1 : Int) - (-num) / den).toNat

/-- A reading of a die's slowest tile enters its margin (R385). -/
def DieMargin.reading (x : DieMargin) (mv cap now bin : Nat) : DieMargin :=
  let x := if floorCount ≤ cap then { x with above := some (mv, cap, now) } else { x with below := some (mv, cap, now) }
  let fresh := fun (r : Nat × Nat × Nat) => decide (now < r.2.2 + hourNs)
  match x.above, x.below with
  | some hi, some lo =>
    if fresh hi && fresh lo then
      let v := vreqOf (lo.1, lo.2.1) (hi.1, hi.2.1)
      { x with valid := true, tbin := bin, vreq := if (cap < floorCount && mv ≥ mvMax) || v > mvMax then 0xFFFF else BitVec.ofNat 16 v }
    else { x with valid := false }
  | _, _ => { x with valid := false, vreq := if cap < floorCount && mv ≥ mvMax then 0xFFFF else x.vreq }

/-- Least supply that keeps a slot die at floor, as far as its readings of the last hour tell (R49, R385). -/
def DieMargin.least (x : DieMargin) : Nat := if x.valid && decide (x.vreq.toNat ≤ mvMax) then max mvMin x.vreq.toNat else mvMin

end Sys2Proof

namespace Sys2Proof.Machine

/-! Reference time (R56) -/

/-- RT_NOW_LO_READ: the low half goes to the requester and the high half into its latch. A Hearth processor reads its latch
the same way; the host reads its own among the registers. -/
def execRtNowLoRead (who : RtReader) (tee : Bool) (s : State) : Host.Outcome State Fault Refusal :=
  .next <|
    let lo : W64 := BitVec.ofNat 64 (s.now % 2 ^ 32)
    let hi : W32 := BitVec.ofNat 32 (s.now / 2 ^ 32)
    match who with
    | .host =>
      if s.barShut tee then s
      else ({ s with time := { s.time with hostLatch := hi } }).emit (.hostRead 0 (fabBase + 0x100) lo)
    | .hearth false => ({ s with time := { s.time with hearthLatch := hi } }).emit (.hearthRead false 0x100 (lo.setWidth 32))
    | .hearth true => ({ s with time := { s.time with hearthLatch2 := hi } }).emit (.hearthRead true 0x100 (lo.setWidth 32))
    | .hearthHi false => s.emit (.hearthRead false 0x104 s.time.hearthLatch)
    | .hearthHi true => s.emit (.hearthRead true 0x104 s.time.hearthLatch2)

/-! Beat-rate monitors (R44 to R47) -/

/-- A write of TILE_BRM_MIN. -/
def State.brmMin (s : State) (p : Nat) (w : W32) : RegRes :=
  if fld w 16 15 ≠ 0 then (s, some .rsvdSet)
  else if w.getLsbD 31 then (s.setBrm p { s.brmOf p with minCap := 0xFFFF }, none)
  else (s, none)

/-- BRM_MIN_CLR (R45, R46). A physical tile ID that names no tile is a reserved offset of the tile window: RANGE
(R443, R444). -/
def execBrmMinClr (ptile : Nat) (tee : Bool) (s : State) : Host.Outcome State Fault Refusal :=
  let off := tileBase + 1024 * ptile + 0x388
  .next <|
    if ptileOk ptile then s.hostWrite 0 off .brm tee fun s => s.brmMin ptile 0x80000000
    else if s.barShut tee || decide (off ≥ 0x4000000) then s
    else s.record 0 off true .range

/-- Dies whose tiles are powered and out of reset: their monitors count. -/
def State.liveDies (s : State) : List Nat := if s.computeOn then (List.range 8).filter fun d => !s.downDies.contains d else []

/-- A window ends on a die: its monitors, the tiles below floor, the lowest count of the die (R44, R47, R404). -/
def State.brmDieWindow (s : State) (w : BrmWindow) (d : Nat) : State :=
  let dom := !s.outOfDomain d
  let old := SMap.getD s.brmDie d Brm.reset
  let new := old.window dom (w.dies.getD d (0, 0))
  let odd := ((s.brm.filter fun e => physDie e.1 = d).map (·.1) ++ (w.tiles.filter fun x => physDie x.1 = d).map (·.1)).eraseDups
  let vals := odd.map fun p => (p, (s.brmOf p).window dom (w.counts p))
  let low := (dieTiles d).foldl (fun (m : Option Nat) p => minCount m (w.counts p).1.toNat) none
  let bad := if dom then (dieTiles d).filter fun p => decide ((w.counts p).1.toNat < floorCount) else []
  let s := { s with
    brmDie := SMap.setD s.brmDie d new Brm.reset
    brm := vals.foldl (fun (m : SMap Brm) v => SMap.setD m v.1 v.2 new) s.brm
    hrt := { s.hrt with capLow := match low with
      | some c => SMap.set s.hrt.capLow d (match SMap.get? s.hrt.capLow d with | some x => BitVec.ofNat 16 (min x.toNat c) | none => BitVec.ofNat 16 c)
      | none => s.hrt.capLow } }
  bad.foldl (fun (s : State) p => (s.ev 0x0303 1 p (w.counts p).1.toNat 0).dueTile p 2) s

/-- Lowest count of the tiles of a launch group in a window, among live dies. -/
def State.groupCap (s : State) (w : BrmWindow) (live : List Nat) (g : Nat) : Option Nat :=
  (s.lgrpTiles g).foldl (fun (m : Option Nat) l =>
    match s.phys l with
    | some p => if live.contains (physDie p) then minCount m (w.counts p).1.toNat else m
    | none => m) none

/-- BRM_WINDOW_END (R44, R47, DEV_STG_MINCAP): windows end at multiples of 4,096 ns; where the counter has been stepped past
several, one transfer stands for them (R54). -/
def execBrmWindowEnd (w : BrmWindow) (s : State) : Host.Outcome State Fault Refusal :=
  guardWf (Instr.wf (.brmWindowEnd w) && decide (s.time.window < s.now / 4096)) s <|
    let live := s.liveDies
    let s := live.foldl (fun (s : State) d => s.brmDieWindow w d) s
    { s with
      time := { s.time with window := s.now / 4096 }
      stages := s.stages.mapV fun _ g =>
        match s.groupCap w live g.lgrp with
        | some c => { g with curMin := BitVec.ofNat 16 (min g.curMin.toNat c) }
        | none => g }

/-! The Bellows (R32, R42, R48 to R51, R385) -/

/-- A die carries a slot (R315). -/
def State.dieSlot (s : State) (d : Nat) : Bool :=
  (s.load.prects.any fun r => r.die = d && s.slotPart r.id)
    || s.ctxs.any fun e => e.2.bstep && e.2.bstepSlot.isSome && s.load.prects.any fun r => r.die = d && r.id = e.2.part

/-- CAP_COUNTs of the tiles of a die whose monitors hold a window: of all of them, or of its logical tiles alone. -/
def State.dieCaps (s : State) (d : Nat) (logical : Bool) : List Nat :=
  (dieTiles d).filterMap fun p =>
    let b := s.brmOf p
    if b.valid && (!logical || (s.logOf p).isSome) then some b.cap.toNat else none

/-- Supply of a die after a reading, at most 10 mV from what it was. Above the ceiling rate it is lowered (R42). A die that
carries a slot is held at the lowest supply that keeps its logical tiles at floor: `least`, as its readings tell (R32, R49).
Any other is lowered where heat or power is to be reduced, and otherwise goes as the Bellows decides (R50, R51, R420). How
far is the Bellows' choice: `delta`. -/
def bellowsStep (mv : Nat) (slot less : Bool) (lo hi : Option Nat) (least : Nat) (delta : Int) : Nat :=
  let n := max 1 delta.natAbs
  if mv < mvMin then min mvMin (mv + 10)
  else if hi.any fun c => decide (ceilCount < c) then max mvMin (mv - n)
  else if slot then
    if lo.any fun c => decide (c < floorCount) then min mvMax (mv + n)
    else if lo.isSome && decide (least < mv) then max least (mv - n)
    else mv
  else min mvMax (max mvMin ((mv : Int) + if less then min delta (-1) else delta).toNat)

/-- One die at a Bellows tick; `less` tells that dies without slots are to draw less. -/
def State.bellowsDie (s : State) (d : Nat) (less : Bool) (delta : Int) : State :=
  let mv := s.dieMv d
  let lo := (s.dieCaps d true).foldl minCount none
  let hi := (s.dieCaps d false).foldl (fun (m : Option Nat) c => some (match m with | some x => max x c | none => c)) none
  if mv = 0 then s
  else
    let slot := s.dieSlot d
    let lost := slot && decide (mv = mvMax) && lo.any fun c => decide (c < floorCount)
    let s := match lo with
      | some c => { s with flt := { s.flt with margins := SMap.modD s.flt.margins d DieMargin.reset fun x => x.reading mv c s.now (s.tbin d) } }
      | none => s
    let s := { s with hrt := { s.hrt with
      floorLost := if lost then (if s.hrt.floorLost.contains d then s.hrt.floorLost else s.hrt.floorLost ++ [d]) else s.hrt.floorLost.filter (· ≠ d)
      bfPause := if lost then (if s.hrt.bfPause.contains d then s.hrt.bfPause else s.hrt.bfPause ++ [d]) else s.hrt.bfPause.filter (· ≠ d) } }
    if s.hrt.sweeps.any fun (x : Sweep) => x.die = d then s
    else s.setDieMv d (bellowsStep mv slot less lo hi (DieMargin.least (SMap.getD s.flt.margins d DieMargin.reset)) delta)

/-- BELLOWS_TICK, once per 100 µs of reference time (R48 to R51, R385, R420). A slot die that has lost its floor has its
BACKFILL paused first; from the next reading on the dies without slots are lowered (R50). POWER_LIMIT_OVERRIDDEN holds while
the owner's limit is exceeded (R51). -/
def execBellowsTick (b : BellowsTick) (s : State) : Host.Outcome State Fault Refusal :=
  guardWf (Instr.wf (.bellowsTick b) && decide (s.time.bellows < s.now / 100000)) s <|
    if !s.hrt.ready then s
    else
      let less := decide (b.powerW.toNat > min s.hrt.plimOwner s.hrt.plimHost) || !s.hrt.floorLost.isEmpty
      let s := { s with
        time := { s.time with bellows := s.now / 100000 }
        hrt := { s.hrt.addReading 200 b.powerW.toNat with powerW := b.powerW, overridden := decide (b.powerW.toNat > s.hrt.plimOwner) } }
      let s := (List.range 8).foldl (fun (s : State) d => s.bellowsDie d less (b.deltas.getD d 0)) s
      (s.hrt.dieMv.foldl (fun (s : State) e => { s with hrt := s.hrt.addReading (400 + e.1) e.2 }) s).refreshAlarm

end Sys2Proof.Machine
end

