-- ==== Sys2Proof/Machine/RegMap.lean ====
section
/-! DEFINITION. The registers of BAR0 and BAR2: which offsets hold one, the item of Table 13.6 it falls under, and its
reserved bits (R443, R444, R8, Tables 15.3 and 15.9). -/
namespace Sys2Proof

/-- A register: its item and the mask of its reserved bits; 0 where no role can write it. -/
abbrev RegAt := Option (RegItem × Nat)

/-- HIF block (Table 15.5). -/
def hifReg (o : Nat) : RegAt :=
  if o = 0 then some (.hif, 0xFF00)
  else if o = 4 then some (.hif, 0xFFFFF800)
  else if o = 0x10 then some (.hif, 0x7FFFF000)
  else if o = 0x14 then some (.hif, 0x3FFFFFFF)
  else if o = 0x18 then some (.hif, 0xFFFF0000)
  else if o = 0x1C then some (.hif, 0xFFFFFFC0)
  else if o = 0x40 then some (.hif, 0xE)
  else if o = 0x44 then some (.hif, 0x7FFFF800)
  else if 0x80 ≤ o && o < 0x100 then some (.hif, if o % 8 = 0 then 0 else 0x1FFE00)
  else if 0x80000 ≤ o && o < 0x88100 then some (.hif, 0)
  else none

/-- HRT block (Table 14.9). -/
def hrtReg (o : Nat) : RegAt :=
  if o = 0 then some (.hrt, 0xFFF8)
  else if o = 4 || o = 8 || o = 0x10 || o = 0x14 then some (.hrt, 0)
  else if 0x20 ≤ o && o < 0x40 then some (.hrt, 0)
  else if o = 0x40 then some (.hrt, 0xE000)
  else if 0x44 ≤ o && o < 0x54 then some (.hrt, 0)
  else if o = 0x60 || o = 0x64 || o = 0x6C || o = 0x70 || o = 0x74 then some (.hrt, 0)
  else if o = 0x68 then some (.hrt, 0x7F800FE0)
  else if o = 0x80 then some (.hrt, 0x7FF0000)
  else if o = 0x84 then some (.hrt, 0xFFFFFF00)
  else if o = 0x88 then some (.hrt, 0)
  else if o = 0xA0 then some (.bist, 0x7FF00000)
  else if o = 0xA4 then some (.bist, 0xFFFFFE00)
  else if o = 0x100 then some (.hrt, 0)
  else if o = 0x104 then some (.sens, 0xFFFF0000)
  else if 0x120 ≤ o && o < 0x140 then some (.sens, 0xFFFC0000)
  else if 0x1000 ≤ o && o < 0x1000 + 4 * 138 then some (.sens, 0x7FFF0000)
  else none

/-- FAB block (Tables 2.5 and 8.15 to 8.17, R297). -/
def fabReg (o : Nat) : RegAt :=
  if o = 0 || o = 4 || (0x40 ≤ o && o < 0x80) then some (.fab, 0)
  else if o = 0x108 then some (.fabStat, 0xFFFFFFF0)
  else if 0x100 ≤ o && o < 0x11C then some (.fab, 0)
  else if 0x200 ≤ o && o < 0x224 then some (.fab, 0)
  else if 0x1000 ≤ o && o < 0x1C00 then (if o % 0x40 < 0x20 then some (.fab, 0) else none)
  else if 0x2000 ≤ o && o < 0x6000 then (if o % 0x10 < 0xC then some (.fabCtx, 0) else none)
  else if (0x10000 ≤ o && o < 0x100C0) || (0x10100 ≤ o && o < 0x10180) || (0x11000 ≤ o && o < 0x12000) then some (.fab, 0)
  else none

/-- MEM block (Tables 7.12 and 7.13, R232). -/
def memReg (o : Nat) : RegAt :=
  if o = 0 then some (.memGlobal, 0)
  else if o = 4 then some (.memGlobal, 0xFFFE0000)
  else if o = 8 then some (.memTier, 0xFFFFFF00)
  else if o = 0xC then some (.memTier, 0xFFFFFFFE)
  else if 0x100 ≤ o && o < 0x400 && o % 0x100 < 0x30 then
    let r := o % 0x100
    if r = 0x2C then some (.memGlobal, 0xFFE00000)
    else if r = 0 || r = 0xC || r = 0x1C || r = 0x20 || r = 0x24 then some (.memTier, 0)
    else some (.memGlobal, 0)
  else none

/-- Bytes of a bank: header and 512 entries (R317). -/
def bankLen : Nat := 0x2100

/-- SCH block (Tables 10.1, 10.6, 10.9 and 10.10, R338, R339). -/
def schReg (o : Nat) : RegAt :=
  if o = 0 then some (.sch, 0x7FFFFFF8)
  else if o = 4 then some (.sch, 0xFFFF00FE)
  else if o < 0x24 then some (.sch, 0)
  else if (0x10000 ≤ o && o < 0x10000 + bankLen) || (0x20000 ≤ o && o < 0x20000 + bankLen) then some (.sch, 0)
  else if 0x30000 ≤ o && o < 0x32000 then some (.sch, 0)
  else if 0x40000 ≤ o && o < 0x50000 then
    let r := o % 0x40
    if r = 0 then some (.sch, 0x7C00FFFF)
    else if r = 4 then some (.sch, 0xC000E000)
    else if r = 8 then some (.sch, 0x7FF00000)
    else if r = 0x10 then some (.sch, 0xFFFF0090)
    else if r = 0x14 then some (.sch, 0x3FFE0000)
    else if r = 0x18 then some (.sch, 0xE000E000)
    else if r = 0x2C then some (.sch, 0xFFFF0000)
    else if r < 0x2C then some (.sch, 0)
    else none
  else if 0x80000 ≤ o && o < 0xA0000 then some (.sch, if o % 8 = 0 then 0x80000000 else 0xFF800000)
  else if 0xA0000 ≤ o && o < 0xB0000 then some (.sch, 0xFFFC0000)
  else none

/-- SEC block (Table 13.11). -/
def secReg (o : Nat) : RegAt :=
  if o < 0x14 || (0x18 ≤ o && o < 0x30) || (0x40 ≤ o && o < 0x60) then some (.sec, 0) else none

/-- DEV block (Tables 6.13, 9.5, 11.11, 12.11 to 12.13, 15.6 and 16.4). -/
def devReg (o : Nat) : RegAt :=
  if o = 0 then some (.dev, 0xFFFF0000)
  else if 8 ≤ o && o < 0x28 then some (.dev, 0)
  else if o = 0x28 then some (.dev, 0xFF)
  else if o = 0x2C then some (.dev, 0xFFE0E0E0)
  else if 0x40 ≤ o && o < 0x60 then some (.dev, 0)
  else if o = 0x60 then some (.dev, 0xFF8000)
  else if o = 0x70 then some (.dev, 0xFFFF0000)
  else if o = 0x74 then some (.dev, 0x7FFF0000)
  else if o = 0x100 then some (.dev, 0x700000F0)
  else if o = 0x104 || o = 0x108 || o = 0x114 then some (.dev, 0)
  else if o = 0x10C then some (.dev, 0xFFF80000)
  else if o = 0x110 then some (.dev, 0x3FFFFFF8)
  else if 0x120 ≤ o && o < 0x140 then some (.dev, 0x1FFFFFF8)
  else if o = 0x140 then some (.dev, 0x7FFFFFFF)
  else if o = 0x1000 then some (.dev, 0xFFF)
  else if o = 0x1010 then some (.dev, 0x3F800FFE)
  else if o = 0x1014 then some (.dev, 0xF800FC)
  else if 0x1000 ≤ o && o < 0x1054 then some (.dev, 0)
  else if o = 0x2008 then some (.devFlt, 0xFFFFFFFE)
  else if o = 0x200C then some (.devFlt, 0x7FFF0000)
  else if o = 0x2018 then some (.devFlt, 0xFFFF0000)
  else if 0x2000 ≤ o && o < 0x2024 then some (.devFlt, 0)
  else if 0x2100 ≤ o && o < 0x2120 then some (.devFlt, 0x7FE00000)
  else if 0x2200 ≤ o && o < 0x2500 then
    some (.devFlt, if o % 0x10 = 4 then 0xFFFF0000 else if o % 0x10 = 8 then 0xFFFFFF00 else 0)
  else if 0x20000 ≤ o && o < 0x28000 then
    let r := o % 0x20
    if r = 0 then some (.devFlt, 0x1FFF00FF)
    else if r = 4 then some (.devFlt, 0x3FFFFFFF)
    else if r < 0x1C then some (.devFlt, 0)
    else none
  else if 0x30000 ≤ o && o < 0x34000 then (if o % 0x10 = 4 then some (.devFlt, 0x7FFFFFFF) else some (.devCtx, 0))
  else if 0x80000 ≤ o && o < 0x88000 then (if o % 0x20 < 0x1C then some (.devCtx, 0) else none)
  else if 0x90000 ≤ o && o < 0x94000 then (if o % 0x40 < 0x2C then some (.devCtx, 0) else none)
  else none

/-- A tile's window (Tables 2.3, 3.8, 4.8, 4.10, 5.15, 6.12, 7.14 and 12.14). -/
def tileReg (r : Nat) : RegAt :=
  if r = 0 then some (.tileUnit, 0xFFFFFF38)
  else if r = 4 then some (.tileUnit, 0xFFFFFFE0)
  else if r = 0x100 then some (.tileUnit, 0xFFFF00E0)
  else if r = 0x104 || r = 0x108 then some (.tileUnit, 0)
  else if r = 0x10C then some (.tileUnit, 0x3FFF)
  else if r = 0x140 then some (.tileUnit, 0xFFFF00F0)
  else if r = 0x144 || r = 0x148 then some (.tileUnit, 0)
  else if r = 0x14C then some (.tileUnit, 0xFFFE0000)
  else if r = 0x180 then some (.tileUnit, 0xFFFF00F8)
  else if r = 0x184 || r = 0x188 then some (.tileUnit, 0xFFFC0000)
  else if r = 0x18C then some (.tileUnit, 0x7FFFF000)
  else if 0x190 ≤ r && r < 0x1B0 then some (.tileUnit, 0)
  else if r = 0x1B0 then some (.tileUnit, 0xFFFFFF80)
  else if r = 0x1B4 then some (.tileUnit, 0xFFFF0000)
  else if r = 0x1B8 then some (.tileUnit, 0xFFFFFFC0)
  else if r = 0x1BC then some (.tileUnit, 0)
  else if 0x200 ≤ r && r < 0x300 then
    let i := r % 32
    if i < 0x10 then some (.tileUnit, 0) else if i = 0x10 then some (.tileUnit, 0x1FFE0000)
    else if i = 0x14 then some (.tileUnit, 0xFFFE0000) else none
  else if r = 0x300 then some (.tileUnit, 0xFFFFFFFC)
  else if r = 0x304 || r = 0x340 || r = 0x344 then some (.tileUnit, 0)
  else if r = 0x380 || r = 0x384 then some (.brm, 0xFFFF0000)
  else if r = 0x388 then some (.brm, 0x7FFF0000)
  else if r = 0x38C then some (.brm, 0xFFFC)
  else if r = 0x3C0 || r = 0x3C4 || r = 0x3C8 then some (.tileHealth, 0)
  else none

/-- A doorbell page (Table 5.12). -/
def queueReg (r : Nat) : RegAt :=
  if r < 0x10 then some (.queue, 0)
  else if r = 0x10 then some (.queue, 0x3F)
  else if r = 0x14 then some (.queue, 0xFFFF0000)
  else if r = 0x18 then some (.queue, 0xFF800000)
  else if r = 0x1C then some (.queue, 0x70000000)
  else if r = 0x20 then some (.queue, 0xFFFFFFFC)
  else if r = 0x24 then some (.queue, 0xFFFF00F8)
  else none

/-- A set bit of a register's mask is reserved: the write sets RSVD_SET (R8). -/
def rsvdHit (mask : Nat) (w : W32) : Bool := (w &&& BitVec.ofNat 32 mask) != 0

end Sys2Proof

namespace Sys2Proof.Machine

/-- The register at a 4-byte aligned offset of BAR0 (Table 15.3). -/
def bar0Reg (o : Nat) : RegAt :=
  if o < hrtBase then hifReg o
  else if o < fabBase then hrtReg (o - hrtBase)
  else if o < memBase then fabReg (o - fabBase)
  else if o < schBase then memReg (o - memBase)
  else if o < secBase then schReg (o - schBase)
  else if o < devBase then secReg (o - secBase)
  else if o < 0xD00000 then devReg (o - devBase)
  else if tileBase ≤ o && o < 0x3000000 && ptileOk ((o - tileBase) / 1024) then tileReg ((o - tileBase) % 1024)
  else none

/-- The register at an offset of BAR0 or BAR2; none where the offset is reserved or not aligned (R443, R444). -/
def regAt (bar o : Nat) : RegAt :=
  if o % 4 ≠ 0 then none else if bar = 0 then bar0Reg o else queueReg (o % 64)

end Sys2Proof.Machine
end

