-- ==== Sys2Proof/Machine/RegRead.lean ====
section
/-! DEFINITION. What each register of BAR0 and BAR2 reads as (R402, R404, R444, Table 0.4): reserved and write-only fields
read 0. -/
namespace Sys2Proof

/-- Who reads: the Host through a BAR, or the Owner through a control-class packet. -/
inductive Reader where
  | host | owner
deriving DecidableEq, Repr

/-- Word `i` of a byte string. -/
def byteWord (bs : List Byte) (i : Nat) : Nat := leNat ((bs.drop (4 * i)).take 4)

/-- Half `hi` of a 64-bit value. -/
def half (v : Nat) (hi : Bool) : Nat := if hi then v / 2 ^ 32 % 2 ^ 32 else v % 2 ^ 32

/-- DEV_PARK_CTL.STATE (Table 16.4). -/
def ParkSt.code : ParkSt → Nat
  | .run => 0 | .idle => 1 | .deep => 2 | .waking => 3 | .entering => 4
/-- DEV_LOAD_STAT.STATE (Table 11.11). -/
def LoadSt.code : LoadSt → Nat
  | .idle => 0 | .check => 1 | .apply => 2
/-- TILE_CP_STAT.STATE (Table 5.15). -/
def CpState.code : CpState → Nat
  | .idle => 0 | .running => 1 | .waiting => 2 | .faulted => 3

/-- A local table entry (Table 8.7). -/
def LocalEnt.word (e : LocalEnt) : Nat :=
  b2n e.v * 2 ^ 31 + e.port.toNat * 2 ^ 25 + b2n e.av * 2 ^ 24 + e.alt.toNat * 2 ^ 19
/-- A group table entry (Table 8.8). -/
def GroupEnt.word (e : GroupEnt) : Nat :=
  b2n e.v * 2 ^ 63 + e.gw0.toNat * 2 ^ 58 + e.gk0.toNat * 2 ^ 54
    + b2n e.v1 * 2 ^ 53 + e.gw1.toNat * 2 ^ 48 + e.gk1.toNat * 2 ^ 44
    + b2n e.av0 * 2 ^ 43 + e.via0.toNat * 2 ^ 34 + b2n e.av1 * 2 ^ 33 + e.via1.toNat * 2 ^ 24

/-- HIF registers (Table 15.5). -/
def Hif.reg (h : Hif) (o : Nat) : Nat :=
  if o = 0 then 2 ^ 24 + h.agreed * 2 ^ 16 + h.request
  else if o = 4 then (if h.linkUp then b2n h.flit * 2 ^ 10 + h.width * 2 ^ 4 + h.rate else 0)
  else if o = 0x10 then b2n h.winEn * 2 ^ 31 + h.winCtx
  else if o = 0x14 then h.winBase % 2 ^ 32
  else if o = 0x18 then h.winBase / 2 ^ 32
  else if o = 0x1C then h.log2
  else if o = 0x40 then h.errCount.toNat * 2 ^ 16 + h.errLast.code * 2 ^ 8 + h.errNext * 2 ^ 4 + b2n h.err
  else if o = 0x44 then b2n h.errIrq * 2 ^ 31 + h.errVec
  else if o < 0x100 then
    match SMap.get? h.errLog ((o - 0x80) / 8) with
    | some e => if o % 8 = 0 then e.off % 2 ^ 32 else e.st.code * 2 ^ 24 + e.bar * 2 ^ 22 + b2n e.write * 2 ^ 21 + e.off / 2 ^ 32 % 2 ^ 9
    | none => 0
  else if o < 0x88000 then (h.msixWord ((o - 0x80000) / 4)).toNat
  else
    let i := (o - 0x88000) / 4
    (List.range 32).foldl (fun a j => if h.pba.contains (32 * i + j) then a + 2 ^ j else a) 0

/-- The lock that HRT_LOCK_HOLDER shows (Table 14.9). -/
def Lock.word (l : Lock) : Nat := l.kind * 2 ^ 29 + l.act * 2 ^ 26 + l.eid % 2 ^ 10 * 2 ^ 16 + l.scope % 2 ^ 16

/-- Tier counters of Table 7.13. -/
def MemSys.tierReg (m : MemSys) (t r : Nat) : Nat :=
  let c := if t = 1 then m.t1 else if t = 2 then m.t2 else m.t3
  if r = 0 then m.frames t
  else if r = 4 then m.freeCnt t
  else if r = 8 then (if t = 3 then 0 else m.pinned t false)
  else if r = 0xC then (m.retired t).length
  else if r = 0x10 then c.fills.toNat
  else if r = 0x14 then c.evicts.toNat
  else if r = 0x18 then c.zfills.toNat
  else if r = 0x1C then c.ce.toNat
  else if r = 0x20 then c.ue.toNat
  else if r = 0x24 then m.poisonCnt t
  else if r = 0x28 then c.stalls.toNat
  else c.lowater.toNat

/-- MEM registers (Tables 7.12 and 7.13). -/
def MemSys.reg (m : MemSys) (o : Nat) : Nat :=
  if o = 0 then m.committed
  else if o = 4 then m.objs.length
  else if o = 8 then m.scrubPeriod.toNat
  else if o = 0xC then b2n m.scrubBehind
  else m.tierReg (o / 0x100) (o % 0x100)

/-- SEC registers (Table 13.11). -/
def Sec.reg (x : Sec) (o : Nat) : Nat :=
  if o = 0 then x.stateWord
  else if o = 4 then x.tenancy.toNat
  else if o = 8 then x.keysWord
  else if o = 0xC then b2n x.fine
  else if o = 0x10 then x.tdi.code
  else if o < 0x20 then half (Sys2Proof.Machine.keyIdOf x.owner) (o = 0x1C)
  else if o < 0x28 then half (Sys2Proof.Machine.keyIdOf x.tkey) (o = 0x24)
  else if o < 0x30 then (if x.st = .maintenance then half x.challenge.toNat (o = 0x2C) else 0)
  else byteWord x.record.bytes ((o - 0x40) / 4)

/-- A context's numerics (Table 6.13). -/
def Ctx.numReg (x : Ctx) (r : Nat) : Nat :=
  if r = 0 || r = 4 then half x.seed.toNat (r = 4)
  else if r = 8 then ofS 8 x.lsExp * 2 ^ 16 + x.clean.toNat
  else if r = 0xC then b2n x.vote * 2 ^ 16 + x.grow.toNat
  else if r = 0x10 then
    x.lateFlags.toNat * 2 ^ 16 + x.lastResult.toNat * 2 ^ 8 + b2n x.voted * 4 + b2n x.psn * 2 + b2n x.ovf
  else if r = 0x14 then x.voteStep.toNat
  else x.psnSkips.toNat * 2 ^ 16 + x.ovfSkips.toNat

/-- A context's SCH registers (Table 10.10). -/
def Ctx.schReg (x : Ctx) (r : Nat) : Nat :=
  if r = 0 then b2n x.serve * 2 ^ 31 + x.part * 2 ^ 16
  else if r = 4 then x.lbase * 2 ^ 16 + x.lcount
  else if r = 8 then (match x.rq with | some q => 2 ^ 31 + q | none => 0)
  else if r = 0xC then x.admVer.toNat * 2 ^ 16 + x.bstepVer.toNat
  else if r = 0x10 then
    x.schErr.code * 2 ^ 8 + b2n x.barrierErr * 2 ^ 6 + b2n x.swErr * 2 ^ 5 + b2n x.preempted.isSome * 2 ^ 3
      + b2n x.preempting.isSome * 2 ^ 2 + b2n x.switching * 2 + b2n x.bstep
  else if r = 0x14 then 0
  else if r = 0x18 then x.replaced * 2 ^ 16 + x.released
  else if r = 0x1C then x.bsteps.toNat
  else if r = 0x20 then x.overruns.toNat * 2 ^ 16 + x.skips.toNat
  else if r = 0x24 then x.maxOvr.toNat
  else if r = 0x28 then x.poisoned.toNat * 2 ^ 16 + x.preempts.toNat
  else x.switches.toNat

/-- A context's fault registers (Table 12.13); an undefined context reads as at reset. -/
def ctxFltReg (c : Option Ctx) (r : Nat) : Nat :=
  match c with
  | none => if r = 0 then 0xFFFF else 0
  | some x =>
    if r = 0 then x.flt.code * 2 ^ 29 + x.fltStatus.code * 2 ^ 16 + x.fltSource
    else if r = 4 then 0
    else if r = 8 then x.faults.toNat * 2 ^ 16 + x.resets.toNat
    else x.guilty.toNat * 2 ^ 16 + x.suspected.toNat

/-- A summary slot (Table 4.8). -/
def Slot.reg (x : Slot) (r : Nat) : Nat :=
  if r = 0 then x.max.toNat
  else if r = 4 then x.min.toNat
  else if r = 8 then x.sum.toNat
  else if r = 0xC then x.sumsq.toNat
  else if r = 0x10 then b2n x.valid * 2 ^ 31 + b2n x.fault * 2 ^ 30 + b2n x.nonfinite * 2 ^ 29 + x.nnz.toNat
  else x.argmax.toNat

/-- Registers of a tile's units that its own state gives (Tables 3.8, 4.10, 5.15, 6.12 and 7.14). -/
def Tile.reg (t : Tile) (r : Nat) : Nat :=
  if r = 4 then t.tol.toNat
  else if r = 0x100 then
    t.anvLastErr.code * 2 ^ 8 + b2n t.anvNonfinite * 16 + b2n t.anvMismatch * 8 + b2n t.anvReject * 4 + b2n t.anvActive.isSome * 2
      + b2n !t.anvJobs.isEmpty
  else if r = 0x104 then t.anvPasses.toNat
  else if r = 0x108 then t.anvSkipped.toNat * 2 ^ 16 + t.anvMismatches.toNat
  else if r = 0x10C then t.anvTbin.toNat * 2 ^ 27 + t.anvNbr.toNat * 2 ^ 23 + t.anvAccRow.toNat * 2 ^ 14
  else if r = 0x140 then
    t.vecLastErr.code * 2 ^ 8 + b2n t.vecLaneFault * 8 + b2n t.vecNonfinite * 4 + b2n t.vecReject * 2 + b2n !t.vecJobs.isEmpty
  else if r = 0x144 then t.vecInstrs.toNat
  else if r = 0x148 then t.vecElems.toNat
  else if r = 0x14C then t.vecFaultLast.toNat
  else if r = 0x180 then t.cpLastErr.code * 2 ^ 8 + t.cpState.code
  else if r = 0x184 then t.pc % 2 ^ 18
  else if r = 0x188 then t.faultPc.toNat
  else if r = 0x18C then (match t.ctx with | some c => 2 ^ 31 + c | none => 0)
  else if r < 0x1B0 then (SMap.getD t.x ((r - 0x190) / 4) 0).toNat
  else if r = 0x1B0 then t.semSel.toNat
  else if r = 0x1B4 then (t.sem t.semSel.toNat).toNat
  else if r < 0x300 then (SMap.getD t.slots ((r - 0x200) / 32) Slot.reset).reg (r % 32)
  else if r = 0x300 then b2n t.psn * 2 + b2n t.ovf
  else if r = 0x304 then t.srCount.toNat
  else if r = 0x340 then t.spdErrUe.toNat * 2 ^ 16 + t.spdErrCe.toNat
  else t.accErrUe.toNat * 2 ^ 16 + t.accErrCe.toNat

end Sys2Proof

namespace Sys2Proof.Machine

/-- The reader gets this item in quantised form only (R404, Table 13.6). -/
def State.quantised (s : State) (who : Reader) (i : RegItem) : Bool :=
  let lent := s.sec.st = .tenanted || s.sec.st = .handover
  match i, who with
  | .sens, .host => s.sec.st = .handover || (s.sec.st = .tenanted && !s.sec.fine)
  | .sens, .owner => lent
  | .brm, .host => s.sec.st = .handover
  | .brm, .owner => lent
  | _, _ => false

/-- A quantised value as last delivered. -/
def State.quantVal (s : State) (n : Nat) : Nat := (SMap.getD s.hrt.quant n 0).toNat

/-- The record that HRT_LOG_DATA shows, where the reader may read it (R403, Table 13.6). -/
def State.logShown (s : State) (who : Reader) : Option LogRec :=
  (s.hrt.ring.find? fun r => r.seq = s.hrt.logSel).filter fun r =>
    r.cls ≠ 1 || (who = .host && s.sec.st = .tenanted && s.sec.fine)

/-- HRT registers (Table 14.9). -/
def State.hrtRead (s : State) (who : Reader) (o : Nat) : Nat :=
  let h := s.hrt
  let q := s.quantised who .sens
  if o = 0 then h.image.ver.toNat * 2 ^ 16 + b2n h.other.valid * 4 + b2n h.slotB * 2 + b2n h.ready
  else if o = 4 then h.alarm.toNat
  else if o = 8 then h.seen.toNat
  else if o = 0x10 then h.nextSeq.toNat
  else if o = 0x14 then h.logSel.toNat
  else if o < 0x40 then (match s.logShown who with | some r => byteWord r.bytes ((o - 0x20) / 4) | none => 0)
  else if o = 0x40 then h.coalMs.toNat * 2 ^ 16 + h.rate.toNat
  else if o < 0x54 then (h.drops.getD ((o - 0x44) / 4) 0).toNat
  else if o < 0x68 then half h.hlogBase.toNat (o = 0x64)
  else if o = 0x68 then b2n h.hlogEn * 2 ^ 31 + h.hlogVec * 2 ^ 12 + h.hrsz
  else if o = 0x6C then h.hlogHead.toNat
  else if o = 0x70 then h.hlogTail.toNat
  else if o = 0x74 then h.hlogDrops.toNat
  else if o = 0x84 then h.lockStat.code
  else if o = 0x88 then (match h.holder with | some l => l.word | none => 0)
  else if o = 0xA4 then b2n (h.bists.any fun b => b.host) * 2 ^ 8 + h.bistStat.code
  else if o = 0x100 then h.plimOwner * 2 ^ 16 + h.plimHost
  else if o = 0x104 then (if q then s.quantVal 200 else h.powerW.toNat)
  else if 0x120 ≤ o && o < 0x140 then
    let d := (o - 0x120) / 4
    b2n (h.bfPause.contains d) * 2 ^ 17 + b2n (s.dieSlot d) * 2 ^ 16 + (if q then s.quantVal (400 + d) else s.dieMv d)
  else if 0x1000 ≤ o then
    let n := (o - 0x1000) / 4
    b2n (s.sensor n).valid * 2 ^ 31 + (if q then s.quantVal n else (s.sensor n).value.toNat)
  else 0

/-- FAB registers (Tables 2.5 and 8.15 to 8.17). A requester other than the host has no latch here (R56). -/
def State.fabRead (s : State) (who : Reader) (o : Nat) : Nat :=
  let f := s.fab
  if o = 0 then b2n f.idValid * 2 ^ 31 + f.self
  else if o = 4 then f.sysid.toNat
  else if o < 0x80 then ((linkWords f.links).getD ((o - 0x40) / 4) 0).toNat
  else if o = 0x100 then s.now % 2 ^ 32
  else if o = 0x104 then (if who = .host then s.time.hostLatch.toNat else 0)
  else if o = 0x108 then b2n s.time.stepped * 8 + rtCode s.time.st
  else if o = 0x10C then ofS 32 s.time.offset
  else if o = 0x110 then b2n f.onBackup * 2 ^ 31 + f.backup.toNat * 2 ^ 18 + f.primary.toNat * 2 ^ 12 + f.dmax.toNat
  else if o = 0x114 then f.delay.toNat
  else if o = 0x118 then f.invalid.toNat * 2 ^ 16 + f.valid.toNat
  else if o = 0x200 then f.fenceRec.toNat * 2 ^ 16 + f.fenceFwd.toNat
  else if o = 0x204 then f.fenceDrops.toNat
  else if o = 0x208 then f.epochDrops.toNat
  else if o = 0x20C then f.authDrops.toNat
  else if o = 0x210 then f.unroutable.toNat
  else if o = 0x214 then f.lateRsp.toNat
  else if o = 0x218 then f.lateFolds.toNat
  else if o = 0x21C then f.lateDrops.toNat
  else if o = 0x220 then f.late.length
  else if o < 0x2000 then
    let p := (o - 0x1000) / 0x40
    let x := f.port p
    let r := o % 0x40
    if r = 0 then
      x.seenDev.toNat * 2 ^ 16 + x.seenPort.toNat * 2 ^ 10 + x.kind * 2 ^ 8 + b2n x.spareInUse * 2 ^ 7 + x.sparedLane.toNat * 2 ^ 5 + x.state.code
    else if r = 4 then x.replays.toNat
    else if r = 8 then x.retrains.toNat * 2 ^ 16 + x.trainFails.toNat
    else if r = 0xC then x.parity.toNat
    else if r = 0x10 then x.fecCe.toNat
    else if r = 0x14 then x.fecUe.toNat
    else if r = 0x18 then (f.txns.filter fun e => e.2.port = p).length
    else x.pktErr.toNat
  else if o < 0x6000 then
    let c := (o - 0x2000) / 0x10
    let x := SMap.getD f.ctxs c FabCtx.reset
    let r := o % 0x10
    if r = 0 then x.epoch.toNat
    else if r = 4 then b2n x.fenced * 2 ^ 31 + (f.fences.filter fun e => e.ctx = c && e.epoch = x.epoch).length
    else x.drops.toNat * 2 ^ 16 + x.folds.toNat
  else if o < 0x100C0 then
    let x := f.port ((o - 0x10000) / 4)
    b2n x.en * 2 ^ 31 + x.kind * 2 ^ 29 + x.peerPort * 2 ^ 16 + x.peerDev
  else if o < 0x10180 then (match SMap.get? f.locals ((o - 0x10100) / 4) with | some e => e.word | none => 0)
  else (match SMap.get? f.groups ((o - 0x11000) / 8) with | some e => half e.word (o % 8 = 4) | none => 0)

/-- SCH registers (Tables 10.1, 10.6, 10.9 and 10.10). -/
def State.schRead (s : State) (o : Nat) : Nat :=
  let x := s.sch
  if o = 0 then b2n x.pend.isSome * 4 + b2n x.bank * 2 + b2n s.tableOn
  else if o = 4 then x.lastErr.code * 2 ^ 8 + b2n x.err
  else if o < 0x10 then half x.start.toNat (o = 0xC)
  else if o < 0x18 then half (x.pend.getD 0) (o = 0x14)
  else if o < 0x20 then half x.cycT (o = 0x1C)
  else if o = 0x20 then x.cycles.toNat
  else if o < 0x20000 then bankWord x.bankA (o - 0x10000)
  else if o < 0x30000 then bankWord x.bankB (o - 0x20000)
  else if o < 0x40000 then
    let y := SMap.getD x.slots ((o - 0x30000) / 16) SlotStat.reset
    let r := o % 16
    if r = 0 then y.open_ % 2 ^ 32
    else if r = 4 then y.used.toNat
    else if r = 8 then y.overruns.toNat * 2 ^ 16 + y.skips.toNat
    else y.empty.toNat * 2 ^ 16 + y.bfpre.toNat
  else if o < 0x80000 then (match s.ctx? ((o - 0x40000) / 0x40) with | some c => c.schReg (o % 0x40) | none => 0)
  else if o < 0xA0000 then
    let y := SMap.getD x.layers ((o - 0x80000) / 8) Layer.reset
    if o % 8 = 0 then y.rcnt * 2 ^ 23 + y.entrySem * 2 ^ 16 + y.entryTile else y.exitSem * 2 ^ 16 + y.exitTile
  else
    let y := SMap.getD x.layers ((o - 0xA0000) / 4) Layer.reset
    b2n y.failed * 2 ^ 17 + b2n y.released * 2 ^ 16 + y.lv.toNat

/-- A stage's registers (Table 9.5). -/
def State.stageRead (s : State) (g : Stage) (r : Nat) : Nat :=
  if r = 0 then g.quota * 2 ^ 24 + 2 ^ 23 + g.die * 2 ^ 16 + g.lgrp
  else if r = 4 then
    let fly := match g.qf, g.qb with | some f, some b => (s.counts f).2.1 - (s.counts b).2.2 | _, _ => 0
    fly % 256 * 2 ^ 24 + (match g.run with | some x => x.1 | none => 0) * 2 ^ 20 + g.ctx
  else if r = 8 then g.tF.toNat
  else if r = 0xC then g.tB.toNat
  else if r = 0x10 then g.tW.toNat
  else if r = 0x14 then g.tU.toNat
  else if r = 0x18 then g.tCredit.toNat
  else if r = 0x1C then g.tInput.toNat
  else if r = 0x20 then g.lastStep.toNat
  else if r = 0x24 then g.minCap.toNat
  else g.launches.toNat

/-- Logical tiles of a die left unmapped (R26). -/
def State.unmapped (s : State) (d : Nat) : Nat := (s.remap.filter fun e => e.2.isNone && logDie e.1 = d).length

/-- Free spares of a die. -/
def State.spares (s : State) (d : Nat) : Nat := ((List.range 128).filter fun i => s.freeSpare (4096 * d + 3200 + i)).length

/-- DEV global registers (Table 15.6, R452, R454, R455). -/
def State.devGlobal (s : State) (o : Nat) : Nat :=
  if o = 0 then (Sys2Proof.Config.stepping).toNat * 2 ^ 8 + 1
  else if o = 8 || o = 0xC then half (Sys2Proof.Config.serial).toNat (o = 0xC)
  else if o = 0x10 then 2 ^ 32 - 1
  else if o = 0x14 then 2 ^ 16 - 1
  else if o < 0x20 then 0
  else if o = 0x20 then 8 * 2 ^ 24 + 16 * 2 ^ 16 + 48 * 2 ^ 8 + 4
  else if o = 0x24 then 3328 * 2 ^ 16 + 3200
  else if o = 0x28 then 32 * 2 ^ 24 + 64 * 2 ^ 16 + 64 * 2 ^ 8
  else if o = 0x2C then 14 * 2 ^ 16 + 18 * 2 ^ 8 + 10
  else if o < 0x60 then let u := s.unmapped ((o - 0x40) / 4); u * 2 ^ 16 + (3200 - u)
  else if o = 0x60 then
    ((List.range 8).foldl (fun a d => if s.unmapped d = 0 then a else a + 2 ^ (24 + d)) 0) + ((List.range 8).map fun d => 3200 - s.unmapped d).sum
  else if o = 0x70 then s.hif.remapSel
  else match s.phys s.hif.remapSel with | some p => 2 ^ 31 + p | none => 0

/-- Reset registers (Table 16.4). -/
def State.resetRead (s : State) (o : Nat) : Nat :=
  let p := s.pwr
  if o = 0x100 then b2n p.new * 2 ^ 31 + p.widest * 2 ^ 24 + p.arg % 2 ^ 12 * 2 ^ 12 + p.source * 2 ^ 8 + p.kind
  else if o = 0x104 || o = 0x108 then half p.time (o = 0x108)
  else if o = 0x10C then p.groups
  else if o = 0x114 then p.warmCnt.toNat * 2 ^ 16 + p.dieCnt.toNat * 2 ^ 8 + p.sbyCnt.toNat
  else if 0x120 ≤ o && o < 0x140 then (s.die ((o - 0x120) / 4)).park.code
  else 0

/-- Load registers (Table 11.11). -/
def loadRead (x : Load) (o : Nat) : Nat :=
  if o < 0x1008 then half x.addr.toNat (o = 0x1004)
  else if o < 0x1010 then half x.len.toNat (o = 0x100C)
  else if o = 0x1010 then x.vec * 2 ^ 12 + b2n x.irqen
  else if o = 0x1014 then
    x.errSect * 2 ^ 24 + b2n x.frame * 2 ^ 18 + b2n x.program * 2 ^ 17 + b2n x.err * 2 ^ 16 + x.lastErr.code * 2 ^ 8 + x.st.code
  else if o = 0x1018 then x.errOff.toNat
  else if o = 0x101C then x.us.toNat
  else if o < 0x1050 then byteWord x.id ((o - 0x1020) / 4)
  else x.partials.toNat * 2 ^ 16 + x.fulls.toNat

/-- A partition's registers (Table 12.12). -/
def State.partRead (s : State) (p r : Nat) : Nat :=
  match s.part? p with
  | none => 0
  | some x =>
    if r = 0 then
      let pend := (s.flt.due.filter fun e => (s.logOf e.ptile).bind s.partOf == some p).length
      x.st.code * 2 ^ 29 + min pend 255 * 2 ^ 8
    else if r = 4 then 0
    else if r = 8 then x.unexpl.toNat * 2 ^ 16 + x.hangs.toNat
    else if r = 0xC || r = 0x10 then half (x.lastHang.getD 0) (r = 0x10)
    else if r = 0x14 then min (s.longWait p) 0xFFFFFFFF
    else x.quenches.toNat

/-- Fault global registers and margins (Table 12.11). -/
def State.fltRead (s : State) (o : Nat) : Nat :=
  let x := s.flt
  if o = 0x2000 then x.remoteMs.toNat * 2 ^ 16 + x.fillMs.toNat
  else if o = 0x2004 then x.replayMs.toNat * 2 ^ 16 + x.autoqMs.toNat
  else if o = 0x2008 then b2n x.autoq
  else if o = 0x200C then 0
  else if o = 0x2010 then x.toFill.toNat * 2 ^ 16 + x.toRemote.toNat
  else if o = 0x2014 then x.guilty.toNat * 2 ^ 24 + x.unexpl.toNat * 2 ^ 16 + x.confirmed.toNat
  else if o = 0x2018 then min x.retired.length 0xFFFF
  else if o = 0x201C || o = 0x2020 then
    let d := if o = 0x201C then 0 else 4
    s.spares d + s.spares (d + 1) * 2 ^ 8 + s.spares (d + 2) * 2 ^ 16 + s.spares (d + 3) * 2 ^ 24
  else if o < 0x2200 then
    let m := SMap.getD x.margins ((o - 0x2100) / 4) DieMargin.reset
    b2n m.valid * 2 ^ 31 + m.tbin * 2 ^ 16 + m.vreq.toNat
  else
    let y := s.fab.port ((o - 0x2200) / 0x10)
    let lane := fun (i : Nat) => (y.margin.getD i 0).toNat
    let r := o % 0x10
    if r = 0 then lane 0 + lane 1 * 2 ^ 8 + lane 2 * 2 ^ 16 + lane 3 * 2 ^ 24
    else if r = 4 then y.score.toNat / 256 * 2 ^ 8 + lane 4
    else if r = 8 then y.score.toNat % 256
    else y.cwRate.toNat

/-- DEV registers. -/
def State.devRead (s : State) (o : Nat) : Nat :=
  if o < 0x100 then s.devGlobal o
  else if o < 0x200 then s.resetRead o
  else if o < 0x2000 then loadRead s.load o
  else if o < 0x3000 then s.fltRead o
  else if o < 0x30000 then s.partRead ((o - 0x20000) / 0x20) (o % 0x20)
  else if o < 0x40000 then ctxFltReg (s.ctx? ((o - 0x30000) / 0x10)) (o % 0x10)
  else if o < 0x90000 then (match s.ctx? ((o - 0x80000) / 0x20) with | some c => c.numReg (o % 0x20) | none => 0)
  else (match SMap.get? s.stages ((o - 0x90000) / 0x40) with
    | some g => s.stageRead g (o % 0x40)
    | none => 0)

/-- A physical tile's window (Tables 2.3, 3.8, 4.8, 4.10, 5.15, 6.12, 7.14 and 12.14). -/
def State.tileRead (s : State) (who : Reader) (p r : Nat) : Nat :=
  let t := s.ptile p
  let b := s.brmOf p
  let h := s.health p
  if r = 0 then t.abftAct.toNat * 2 ^ 6 + b2n ((s.logOf p).any broadcastTile) * 4 + t.wchg.toNat
  else if r = 0x1B8 then
    (match t.tngSel with | some e => e.toNat | none => (match s.logOf p with | some l => logCol l | none => p % 64))
  else if r = 0x1BC then (match t.ctx.bind s.ctx? with | some c => c.step.toNat | none => 0)
  else if 0x380 ≤ r && r < 0x390 then
    if s.quantised who .brm then (if r = 0x380 then s.quantVal (300 + physDie p) else 0)
    else if r = 0x380 then b.cap.toNat
    else if r = 0x384 then b.act.toNat
    else if r = 0x388 then b.minCap.toNat
    else b.windows.toNat * 2 ^ 16 + b2n b.belowFloor * 2 + b2n b.valid
  else if r = 0x3C0 then h.score.toNat * 2 ^ 16 + h.cause * 2 ^ 4 + b2n (s.isRetired p) * 2 + b2n (s.isDue p)
  else if r = 0x3C4 then h.incidents.toNat
  else if r = 0x3C8 then b2n h.marginValid * 2 ^ 31 + h.drift.toNat
  else t.reg r

/-- A doorbell page (Table 5.12). -/
def State.queueRead (s : State) (q r : Nat) : Nat :=
  let x := s.queue q
  if r = 0 then x.tail.toNat
  else if r = 4 then x.head.toNat
  else if r = 8 then x.fetch.toNat
  else if r = 0xC then x.done.toNat
  else if r = 0x10 || r = 0x14 then half x.base (r = 0x14)
  else if r = 0x18 then
    x.vec * 2 ^ 12 + (if x.tileKind then 0 else x.die) * 2 ^ 9 + x.tcls * 2 ^ 7 + b2n x.tileProd * 2 ^ 6 + b2n x.tileKind * 2 ^ 5 + x.rsz
  else if r = 0x1C then b2n x.bound * 2 ^ 31 + x.ctx * 2 ^ 16 + (if x.tileKind then x.tile else 0)
  else if r = 0x20 then b2n x.irqen * 2 + b2n x.enable
  else
    x.lastErr.code * 2 ^ 8 + b2n (decide ((x.tail - x.head).toNat = 2 ^ x.rsz)) * 4 + b2n x.err * 2 + b2n (s.queueActive q)

/-- The value of the register at an offset of BAR0 or BAR2, for a reader that may read it; 0 where there is none. -/
def State.regRead (s : State) (who : Reader) (bar o : Nat) : W32 :=
  match regAt bar o with
  | none => 0
  | some _ =>
    BitVec.ofNat 32 (
      if bar ≠ 0 then s.queueRead (o / 64) (o % 64)
      else if o < hrtBase then s.hif.reg o
      else if o < fabBase then s.hrtRead who (o - hrtBase)
      else if o < memBase then s.fabRead who (o - fabBase)
      else if o < schBase then s.mem.reg (o - memBase)
      else if o < secBase then s.schRead (o - schBase)
      else if o < devBase then s.sec.reg (o - secBase)
      else if o < tileBase then s.devRead (o - devBase)
      else s.tileRead who ((o - tileBase) / 1024) ((o - tileBase) % 1024))

end Sys2Proof.Machine
end

