-- ==== Sys2Proof/Machine/RegWrite.lean ====
section
/-! DEFINITION. What a write does to each register of BAR0 and BAR2, once the access and its rights have been checked:
orders 3 to 6 of R444. -/
namespace Sys2Proof

/-- A field write of a 64-bit value's half. -/
def setHalf (v : Nat) (hi : Bool) (w : W32) : Nat := if hi then v % 2 ^ 32 + w.toNat * 2 ^ 32 else v / 2 ^ 32 * 2 ^ 32 + w.toNat

end Sys2Proof

namespace Sys2Proof.Machine

/-- A register without writable fields: a set reserved bit is refused, and nothing else happens (Table 0.4, R8). -/
def State.roWrite (s : State) (mask : Nat) (w : W32) : RegRes := (s, if rsvdHit mask w then some .rsvdSet else none)

/-! HIF (Table 15.5) -/

/-- HIF_ABI_VER (R451). -/
def State.abiReq (s : State) (w : W32) : RegRes :=
  let r := fld w 0 8
  if s.load.program then (s, some .busy)
  else if rsvdHit 0xFF00 w then (s, some .rsvdSet)
  else if r = 0 then (s, some .range)
  else ({ s with hif := { s.hif with request := r, agreed := min r 1 } }, none)

/-- HIF_WIN_CTX. -/
def State.winCtxReg (s : State) (w : W32) : RegRes :=
  if rsvdHit 0x7FFFFC00 w then (s, some .rsvdSet)
  else ({ s with hif := { s.hif with winCtx := fld w 0 10, winEn := w.getLsbD 31 } }, none)

/-- The window's conditions of R446. -/
def winFits (base log2 : Nat) : Bool := decide (base % 2 ^ log2 = 0) && decide (base + 2 ^ log2 ≤ 0x40000000000)

/-- HIF_WIN_BASE_LO and HIF_WIN_BASE_HI (R446). -/
def State.winBaseReg (s : State) (hi : Bool) (w : W32) : RegRes :=
  if rsvdHit (if hi then 0xFFFF0000 else 0x3FFFFFFF) w then (s, some .rsvdSet)
  else
    let b := setHalf s.hif.winBase hi w
    if winFits b s.hif.log2 then ({ s with hif := { s.hif with winBase := b } }, none) else (s, some .range)

/-- A word of the MSI-X table; only the mask bit of a vector control word is kept (R450, PCIe Base 6.0). -/
def State.msixReg (s : State) (i : Nat) (w : W32) : State :=
  let v := if i % 4 = 3 then w &&& 1 else w
  ({ s with hif := { s.hif with msix := SMap.setD s.hif.msix i v (if i % 4 = 3 then 1 else 0) } }).flushMsix

/-- A write to HIF. -/
def State.hifWrite (s : State) (o mask : Nat) (w : W32) : RegRes :=
  if o = 0 then s.abiReq w
  else if o = 0x10 then s.winCtxReg w
  else if o = 0x14 || o = 0x18 then s.winBaseReg (o = 0x18) w
  else if rsvdHit mask w then (s, some .rsvdSet)
  else if o = 0x40 then ({ s with hif := { s.hif with err := s.hif.err && !w.getLsbD 0 } }, none)
  else if o = 0x44 then ({ s with hif := { s.hif with errIrq := w.getLsbD 31, errVec := fld w 0 11 } }, none)
  else if 0x80000 ≤ o && o < 0x88000 then (s.msixReg ((o - 0x80000) / 4) w, none)
  else (s, none)

/-! HRT (Table 14.9) -/

/-- HRT_LOG_CFG (R423, R438). -/
def State.logCfg (s : State) (w : W32) : RegRes :=
  let rate := fld w 0 13
  if rate = 0 || decide (rate > 4096) then (s, some .range)
  else ({ s with hrt := { s.hrt with coalMs := BitVec.ofNat 16 (fld w 16 16), rate := BitVec.ofNat 13 rate } }, none)

/-- HRT_HLOG_BASE_LO and HRT_HLOG_BASE_HI: only while EN = 0. -/
def State.hlogBaseReg (s : State) (hi : Bool) (w : W32) : RegRes :=
  if s.hrt.hlogEn then (s, some .busy)
  else if !hi && fld w 0 6 ≠ 0 then (s, some .range)
  else ({ s with hrt := { s.hrt with hlogBase := BitVec.ofNat 64 (setHalf s.hrt.hlogBase.toNat hi w) } }, none)

/-- HRT_HLOG_CFG: HRSZ changes only while EN = 0. -/
def State.hlogCfg (s : State) (w : W32) : RegRes :=
  let n := fld w 0 5
  if s.hrt.hlogEn && n ≠ s.hrt.hrsz then (s, some .busy)
  else if rsvdHit 0x7F800FE0 w then (s, some .rsvdSet)
  else if n < 4 || decide (n > 20) then (s, some .range)
  else ({ s with hrt := { s.hrt with hlogEn := w.getLsbD 31, hlogVec := fld w 12 11, hrsz := n } }, none)

/-- BLW_PLIMIT.HOST (R420). -/
def State.plimitReg (s : State) (w : W32) : RegRes :=
  let n := fld w 0 16
  if n < 1000 || decide (n > 6500) then (s, some .range) else ({ s with hrt := { s.hrt with plimHost := n } }, none)

/-- A write to HRT. -/
def State.hrtWrite (s : State) (o mask : Nat) (pre : Bool) (w : W32) : RegRes :=
  if o = 0x80 then s.lockReq w
  else if o = 0xA0 then s.bistReq w pre
  else if o = 0x60 || o = 0x64 then s.hlogBaseReg (o = 0x64) w
  else if o = 0x68 then s.hlogCfg w
  else if rsvdHit mask w then (s, some .rsvdSet)
  else if o = 8 then s.seenClear w
  else if o = 0x14 then ({ s with hrt := { s.hrt with logSel := w } }, none)
  else if o = 0x40 then s.logCfg w
  else if o = 0x6C then s.hlogHead w
  else if o = 0x100 then s.plimitReg w
  else (s, none)

/-! FAB -/

/-- FAB_RT_STAT: the clear of STEPPED (R55). -/
def State.rtStat (s : State) (w : W32) : RegRes :=
  if rsvdHit 0xFFFFFFF0 w then (s, some .rsvdSet)
  else ({ s with time := { s.time with stepped := s.time.stepped && !w.getLsbD 3 } }, none)

/-! MEM (Tables 7.12 and 7.13) -/

/-- MEM_T1_LOWATER and MEM_T2_LOWATER (R218). -/
def State.lowaterReg (s : State) (t : Nat) (w : W32) : RegRes :=
  let n := w.toNat
  if n > s.mem.frames t then (s, some .range)
  else if t = 1 then ({ s with mem := { s.mem with t1 := { s.mem.t1 with lowater := BitVec.ofNat 21 n } } }, none)
  else ({ s with mem := { s.mem with t2 := { s.mem.t2 with lowater := BitVec.ofNat 21 n } } }, none)

/-- A write to MEM. -/
def State.memWrite (s : State) (o mask : Nat) (w : W32) : RegRes :=
  if rsvdHit mask w then (s, some .rsvdSet)
  else if o = 8 then (if w = 0 then (s, some .range) else ({ s with mem := { s.mem with scrubPeriod := w.setWidth 8 } }, none))
  else if o = 0x12C then s.lowaterReg 1 w
  else if o = 0x22C then s.lowaterReg 2 w
  else (s, none)

/-! SCH (Tables 10.9 and 10.10) -/

/-- A write to a bank: `b` tells which (R318). -/
def State.bankWrite (s : State) (b : Bool) (a : Nat) (w : W32) : RegRes :=
  if b = s.sch.bank || s.sch.pend.isSome then (s, some .busy)
  else
    let bs := leBytes 4 w.toNat
    ({ s with sch := if b then { s.sch with bankB := s.sch.bankB.wrN a bs } else { s.sch with bankA := s.sch.bankA.wrN a bs } }, none)

/-- SCH_START_LO and SCH_START_HI (R318). -/
def State.schStart (s : State) (hi : Bool) (w : W32) : RegRes :=
  if s.sch.pend.isSome then (s, some .busy)
  else ({ s with sch := { s.sch with start := BitVec.ofNat 64 (setHalf s.sch.start.toNat hi w) } }, none)

/-- A write to SCH; the block is BUSY while a load that touches it applies, and so are the registers of a context that the
load touches (R354). -/
def State.schWrite (s : State) (o mask : Nat) (w : W32) : RegRes :=
  let c := (o - 0x40000) / 0x40
  if o = 0 then s.schCtl w
  else if s.loadSch || (0x40000 ≤ o && o < 0x50000 && s.loadCtx c) then (s, some .busy)
  else if o = 8 || o = 0xC then s.schStart (o = 0xC) w
  else if 0x10000 ≤ o && o < 0x20000 then s.bankWrite false (o - 0x10000) w
  else if 0x20000 ≤ o && o < 0x30000 then s.bankWrite true (o - 0x20000) w
  else if 0x40000 ≤ o && o < 0x50000 && o % 0x40 = 0x14 then s.schCmd c w
  else if rsvdHit mask w then (s, some .rsvdSet)
  else if o = 4 then ({ s with sch := { s.sch with err := s.sch.err && !w.getLsbD 0 } }, none)
  else if 0x40000 ≤ o && o < 0x50000 && o % 0x40 = 0x10 then
    (s.modCtx c fun x => { x with barrierErr := x.barrierErr && !w.getLsbD 6, swErr := x.swErr && !w.getLsbD 5 }, none)
  else (s, none)

/-! DEV -/

/-- DEV_REMAP_SEL (R455). -/
def State.remapReg (s : State) (w : W32) : RegRes :=
  if rsvdHit 0xFFFF8000 w then (s, some .rsvdSet)
  else if !tileOk w.toNat then (s, some .range)
  else ({ s with hif := { s.hif with remapSel := w.toNat } }, none)

/-- DEV_LOAD_ADDR and DEV_LOAD_LEN (R355). -/
def State.loadRange (s : State) (o : Nat) (w : W32) : RegRes :=
  let x := s.load
  if x.st ≠ .idle then (s, some .busy)
  else if o = 0x1000 && rsvdHit 0xFFF w then (s, some .rsvdSet)
  else if o < 0x1008 then ({ s with load := { x with addr := BitVec.ofNat 64 (setHalf x.addr.toNat (o = 0x1004) w) } }, none)
  else ({ s with load := { x with len := BitVec.ofNat 64 (setHalf x.len.toNat (o = 0x100C) w) } }, none)

/-- DEV_FLT_TMO (R359). -/
def State.fltTmo (s : State) (w : W32) : RegRes :=
  if fld w 16 16 = 0 || fld w 0 16 = 0 then (s, some .range)
  else ({ s with flt := { s.flt with remoteMs := BitVec.ofNat 16 (fld w 16 16), fillMs := BitVec.ofNat 16 (fld w 0 16) } }, none)

/-- DEV_FLT_HANG (Table 12.11). -/
def State.fltHang (s : State) (w : W32) : RegRes :=
  if fld w 16 16 = 0 then (s, some .range)
  else ({ s with flt := { s.flt with replayMs := BitVec.ofNat 16 (fld w 16 16), autoqMs := BitVec.ofNat 16 (fld w 0 16) } }, none)

/-- A write to DEV. -/
def State.devWrite (s : State) (o mask : Nat) (w : W32) : RegRes :=
  if o = 0x70 then s.remapReg w
  else if o = 0x100 then s.causeReg w
  else if o = 0x10C then s.groupsReg w
  else if o = 0x110 then s.resetReq w
  else if 0x120 ≤ o && o < 0x140 then s.parkCtl ((o - 0x120) / 4) w
  else if o = 0x140 then s.standbyReg w
  else if 0x1000 ≤ o && o < 0x1010 then s.loadRange o w
  else if o = 0x1010 then s.loadCtl w
  else if o = 0x200C then s.retireReg w
  else if 0x20000 ≤ o && o < 0x28000 && o % 0x20 = 4 then s.partCtl ((o - 0x20000) / 0x20) w
  else if 0x30000 ≤ o && o < 0x34000 && o % 0x10 = 4 then s.ctxCtl ((o - 0x30000) / 0x10) w
  else if rsvdHit mask w then (s, some .rsvdSet)
  else if o = 0x1014 then ({ s with load := { s.load with err := s.load.err && !w.getLsbD 16 } }, none)
  else if o = 0x2000 then s.fltTmo w
  else if o = 0x2004 then s.fltHang w
  else if o = 0x2008 then ({ s with flt := { s.flt with autoq := w.getLsbD 0 } }, none)
  else (s, none)

/-! The tile window -/

/-- TILE_CFG and TILE_ABFT_TOL may not be written: a load touches the tile, or its partition has a running context (R86,
R354). -/
def State.cfgBusy (s : State) (p : Nat) : Bool :=
  s.loadTile p || (match (s.logOf p).bind s.partOf with | some q => s.partRunning q | none => false)

/-- TILE_CFG (R86). -/
def State.tileCfg (s : State) (p : Nat) (w : W32) : RegRes :=
  if s.cfgBusy p then (s, some .busy)
  else if rsvdHit 0xFFFFFF38 w || decide (fld w 0 2 ≥ 2) || decide (fld w 6 2 = 3) then (s, some .rsvdSet)
  else (s.setPtile p { s.ptile p with abftAct := BitVec.ofNat 2 (fld w 6 2), wchg := BitVec.ofNat 2 (fld w 0 2) }, none)

/-- TILE_ABFT_TOL (R86). -/
def State.tileTol (s : State) (p : Nat) (w : W32) : RegRes :=
  if s.cfgBusy p then (s, some .busy)
  else if rsvdHit 0xFFFFFFE0 w then (s, some .rsvdSet)
  else (s.setPtile p { s.ptile p with tol := w.setWidth 5 }, none)

/-- A write to a physical tile's window. -/
def State.tileWrite (s : State) (p r mask : Nat) (w : W32) : RegRes :=
  let t := s.ptile p
  if r = 0 then s.tileCfg p w
  else if r = 4 then s.tileTol p w
  else if r = 0x388 then s.brmMin p w
  else if rsvdHit mask w then (s, some .rsvdSet)
  else if r = 0x100 then
    (s.setPtile p { t with
      anvNonfinite := t.anvNonfinite && !w.getLsbD 4, anvMismatch := t.anvMismatch && !w.getLsbD 3, anvReject := t.anvReject && !w.getLsbD 2 }, none)
  else if r = 0x140 then
    (s.setPtile p { t with
      vecLaneFault := t.vecLaneFault && !w.getLsbD 3, vecNonfinite := t.vecNonfinite && !w.getLsbD 2, vecReject := t.vecReject && !w.getLsbD 1 }, none)
  else if r = 0x1B0 then (s.setPtile p { t with semSel := w.setWidth 7 }, none)
  else if r = 0x38C then (let b := s.brmOf p; (s.setBrm p { b with belowFloor := b.belowFloor && !w.getLsbD 1 }, none))
  else (s, none)

/-! Doorbell pages -/

/-- A write to a doorbell page (Table 5.12). -/
def State.queueWrite (s : State) (q r mask : Nat) (w : W32) : RegRes :=
  let x := s.queue q
  if r = 0 then s.doorbell q w
  else if x.bound && s.loadCtx x.ctx then s.queueRefuse q .busy
  else if r = 0x10 || r = 0x14 then
    s.queueShape q (rsvdHit mask w) (setHalf x.base (r = 0x14) (w &&& ~~~(BitVec.ofNat 32 mask))) x.rsz x.vec
  else if r = 0x18 then s.queueShape q (rsvdHit mask w) x.base (fld w 0 5) (fld w 12 11)
  else if rsvdHit mask w then s.queueRefuse q .rsvdSet
  else if r = 0x20 then s.queueCtl q (w.getLsbD 0) (w.getLsbD 1)
  else if r = 0x24 then (s.modQueue q fun x => { x with err := x.err && !w.getLsbD 1 }, none)
  else (s, none)

/-! Whole accesses -/

/-- A write of the register at an offset, past its rights. -/
def State.regSet (s : State) (bar o mask : Nat) (pre : Bool) (w : W32) : RegRes :=
  if bar ≠ 0 then s.queueWrite (o / 64) (o % 64) mask w
  else if o < hrtBase then s.hifWrite o mask w
  else if o < fabBase then s.hrtWrite (o - hrtBase) mask pre w
  else if o < memBase then (if o = fabBase + 0x108 then s.rtStat w else s.roWrite mask w)
  else if o < schBase then s.memWrite (o - memBase) mask w
  else if o < secBase then s.schWrite (o - schBase) mask w
  else if o < devBase then s.roWrite mask w
  else if o < tileBase then s.devWrite (o - devBase) mask w
  else s.tileWrite ((o - tileBase) / 1024) ((o - tileBase) % 1024) mask w

/-- A 4-byte write by the host: order 1 of R444, then the rest. -/
def State.write4 (s : State) (bar o : Nat) (pre : Bool) (w : W32) : State :=
  match regAt bar o with
  | none => s.record bar o true .range
  | some (item, mask) => s.regWrite bar o item fun s => s.regSet bar o mask pre w

end Sys2Proof.Machine
end

