-- ==== Sys2Proof/Machine/HifCmds.lean ====
section
/-! DEFINITION. Commands at the host interface: register writes without a row of their own, configuration space, MSI-X,
completions of T3 reads; and the CTRL packets that reach registers through the fabric (R250, R297, R399, R443 to R455). -/
namespace Sys2Proof

/-- The control-space offsets of a CTRL access: none where it does not lie wholly within the 64 MiB (R250). -/
def Packet.ctrlOffs (k : Packet) : Option (List Nat) :=
  let n := k.aux % 128
  if k.addr + 4 * n ≤ 2 ^ 26 then some ((List.range n).map (k.addr + 4 * ·)) else none

end Sys2Proof

namespace Sys2Proof.Machine

/-! Registers -/

/-- A register access by the host: one of 4 bytes, or an aligned one of 8 bytes in two parts, the lower address first;
any other records RANGE (R443). -/
def State.regAccess (s : State) (a : HostAcc) : State :=
  let bar := b2n a.bar2
  let lo := a.val.setWidth 32
  if s.barShut a.tee then s
  else if a.size = 4 && a.off % 4 = 0 && a.be % 16 = 15 then s.write4 bar a.off a.precond lo
  else if a.size = 8 && a.off % 8 = 0 && a.be % 256 = 255 then
    (s.write4 bar a.off a.precond lo).write4 bar (a.off + 4) a.precond (a.val.extractLsb' 32 32)
  else s.record bar a.off true .range

/-- REGISTER_WRITE (R443, R444). -/
def execRegisterWrite (a : HostAcc) (s : State) : Host.Outcome State Fault Refusal :=
  guardWf (Instr.wf (.registerWrite a)) s <| s.regAccess a

/-- ABI_NEGOTIATE: a write of HIF_ABI_VER (R451). -/
def execAbiNegotiate (request : Nat) (tee : Bool) (s : State) : Host.Outcome State Fault Refusal :=
  guardWf (decide (request < 256)) s <| s.hostWrite 0 hifBase .hif tee fun s => s.abiReq (BitVec.ofNat 32 request)

/-- REMAP_SELECT: a write of DEV_REMAP_SEL (R455). -/
def execRemapSelect (v : W32) (tee : Bool) (s : State) : Host.Outcome State Fault Refusal :=
  .next <| s.hostWrite 0 (devBase + 0x70) .dev tee fun s => s.remapReg v

/-- MSIX_UNMASK: the vector control word of one vector is written 0 (R450). -/
def execMsixUnmask (vec : Nat) (tee : Bool) (s : State) : Host.Outcome State Fault Refusal :=
  guardWf (Instr.wf (.msixUnmask vec tee)) s <|
    s.hostWrite 0 (hifBase + 0x80000 + 16 * vec + 12) .hif tee fun s => (s.msixReg (4 * vec + 3) 0, none)

/-! Configuration space -/

/-- A status recorded against a configuration access. The spec states no BAR and OFFSET for one: free values. -/
def State.recordCfg (s : State) (st : Status) : State :=
  let (o, s) := s.draw
  let (b, s) := s.draw
  s.record (b.toNat % 4) (o.toNat % 2 ^ 28) true st

/-- TDISP holds the configuration (R399). -/
def State.cfgLocked (s : State) : Bool := s.sec.tdi = .locked || s.sec.tdi = .run

/-- BAR4 gets a size; the window is disabled when that breaks the conditions on its base (R446). -/
def State.resize (s : State) (log2 : Nat) : State :=
  let s := { s with hif := { s.hif with log2 := log2 } }
  if winFits s.hif.winBase log2 then s else { s with hif := { s.hif with winEn := false } }.recordCfg .range

/-- BAR4_RESIZE (R446). -/
def execBar4Resize (log2 : Nat) (s : State) : Host.Outcome State Fault Refusal :=
  guardWf (Instr.wf (.bar4Resize log2)) s <|
    if !s.hif.linkUp || s.pwr.dom ≠ .on then s
    else if s.cfgLocked then s.recordCfg .denied
    else s.resize log2

/-- A configuration register is written (PCIe Base 6.0): the Command register's bus master bit, MSI-X enable and
function mask, the completion timeout; the rest is stored. -/
def State.cfgSet (s : State) (off : Nat) (v : W32) : State :=
  let s := { s with hif := { s.hif with cfg := SMap.setD s.hif.cfg off v 0 } }
  let s := if off = 4 then { s with hif := { s.hif with busMaster := v.getLsbD 2 } } else s
  let s := if off = Sys2Proof.Config.msixCap then { s with hif := { s.hif with msixEn := v.getLsbD 31, msixMask := v.getLsbD 30 } } else s
  let s := if off = Sys2Proof.Config.devControl2 then
      { s with hif := { s.hif with cplTmo := if fld v 0 4 = 0 then 50000000 else Sys2Proof.Config.cplTimeout (fld v 0 4) } }
    else s
  s.flushMsix

/-- CONFIG_SPACE_WRITE (R399, R449). -/
def execConfigSpaceWrite (off : Nat) (v : W32) (s : State) : Host.Outcome State Fault Refusal :=
  guardWf (Instr.wf (.configSpaceWrite off v)) s <|
    if !s.hif.linkUp || s.pwr.dom ≠ .on then s
    else if s.cfgLocked && Sys2Proof.Config.tdispLocks off then s.recordCfg .denied
    else s.cfgSet off v

/-! Reads of host memory -/

/-- A T3 read is over. -/
def State.t3Drop (s : State) (tag : Nat) : State :=
  { s with hif := { s.hif with
    t3 := SMap.erase s.hif.t3 tag
    held := s.hif.held.filter fun o => match o with | .t3Read t _ _ => t ≠ tag | _ => true } }

/-- Take the fabric request that waits for a T3 read. -/
def State.takeServed (s : State) (tag : Nat) : State × Option Packet :=
  match s.fab.served.find? fun x => x.tag = some tag with
  | some x => ({ s with fab := { s.fab with served := s.fab.served.filter fun y => y.tag ≠ some tag } }, some x.pkt)
  | none => (s, none)

/-- The piece of a descriptor that waits for a T3 read. -/
def State.t3Piece (s : State) (id k tag : Nat) : Bool :=
  match s.desc? id with
  | some d => (match d.body with
    | .move _ r => (match SMap.get? r.pieces k with | some p => p.st = .reading (.t3 tag) | none => false)
    | _ => false)
  | none => false

/-- The operation of a COLL that waits for a T3 read. -/
def State.t3Coll (s : State) (id tag : Nat) : Bool :=
  match s.desc? id with
  | some d => (match d.body with
    | .coll _ r => r.op.any fun o => o.via = .t3 tag
    | _ => false)
  | none => false

/-- What a T3 read's issuer gets: bytes, all of them unrecoverable when poisoned, or a failing status (R222, R449). -/
def State.t3Result (s : State) (tag : Nat) (x : T3Read) (st : Status) (bs : List Byte) : State :=
  let s := s.t3Drop tag
  match x.who with
  | some (id, k) =>
    if s.t3Coll id tag then
      (if st = .ok then s.collGot id bs []
      else if st = .parity then s.collGot id bs (List.range x.n)
      else s.collFail id st)
    else if !s.t3Piece id k tag then s
    else if st = .ok then s.gotData id k bs []
    else if st = .parity then (s.dataErr id).gotData id k bs (List.range x.n)
    else s.failPiece id k st
  | none =>
    match s.takeServed tag with
    | (s, some k) => s.reply k st (if st = .ok || st = .parity then some bs else none)
    | (s, none) => s

/-- T3_READ_COMPLETION (R222, R449): what comes when the completion timeout is over completes nothing. -/
def execT3ReadCompletion (tag : Nat) (res : T3Res) (s : State) : Host.Outcome State Fault Refusal :=
  .next <|
    match SMap.get? s.hif.t3 tag with
    | none => s
    | some x =>
      if !s.hif.linkUp || decide (x.since + s.hif.cplTmo ≤ s.now) then s
      else if s.t3Denied then (s.t3Result tag x .denied []).resume
      else
        match res with
        | .data bs => if bs.length = x.n then (s.t3Result tag x .ok bs).resume else s
        | .poisoned bs => if bs.length = x.n then (s.t3Result tag x .parity bs).resume else s
        | .unsupported => (s.t3Result tag x .denied []).resume

/-- T3_COMPLETION_TIMEOUT (R449). -/
def execT3CompletionTimeout (tag : Nat) (s : State) : Host.Outcome State Fault Refusal :=
  .next <|
    match SMap.get? s.hif.t3 tag with
    | none => s
    | some x => if s.now < x.since + s.hif.cplTmo then s else (s.t3Result tag x .abandoned []).resume

/-! CTRL packets -/

/-- Answer a CREAD or CWRITE (Table 8.5). -/
def State.ctrlReply (s : State) (k : Packet) (st : Status) (data : List W32) : State :=
  s.send .job (mkPacket 5 3 s.fab.self k.src 0 0 0 0 st.code data)

/-- CTRL accesses are answered DENIED outside OWNED_IDLE and TENANTED (R297, Table 13.6). -/
def State.ctrlOpen (s : State) : Bool := s.sec.st = .ownedIdle || s.sec.st = .tenanted

/-- CTRL_CREAD: every word the Owner may read; a reserved offset reads 0 (R250, R444, Table 13.6). -/
def execCtrlCread (port : Nat) (p : Packet) (s : State) : Host.Outcome State Fault Refusal :=
  guardWf (portOk port && packetOk p) s <| s.packetRow port p 5 (· = 1) fun s p =>
    match p.ctrlOffs with
    | none => s.ctrlReply p .range []
    | some os =>
      if !s.ctrlOpen || os.any fun o => (regAt 0 o).any fun r => !r.1.ownerRead then s.ctrlReply p .denied []
      else s.ctrlReply p .ok (os.map (s.regRead .owner 0))

/-- The words of a CWRITE that the Owner may write, in order; the first status that one of them meets is the answer's.
What the environment finds of the preconditions of a BIST is not in the packet: a free value. -/
def State.ctrlWords (s : State) (k : Packet) (os : List Nat) : RegRes :=
  os.zipIdx.foldl (fun (r : RegRes) x =>
    let (f, s) := r.1.draw
    let a := s.regSet 0 x.1 (((regAt 0 x.1).map Prod.snd).getD 0) (f.getLsbD 0) (k.pw x.2)
    (a.1, r.2.orElse fun _ => a.2)) (s, none)

/-- CTRL_CWRITE (R250, R297): the checks of R444 for every word first. -/
def execCtrlCwrite (port : Nat) (p : Packet) (s : State) : Host.Outcome State Fault Refusal :=
  guardWf (portOk port && packetOk p) s <| s.packetRow port p 5 (· = 2) fun s p =>
    match p.ctrlOffs with
    | none => s.ctrlReply p .range []
    | some os =>
      if !s.ctrlOpen then s.ctrlReply p .denied []
      else if os.any fun o => (regAt 0 o).isNone then s.ctrlReply p .range []
      else if os.any fun o => (regAt 0 o).any fun r => !r.1.ownerWrite then s.ctrlReply p .denied []
      else
        let r := s.ctrlWords p os
        r.1.ctrlReply p (r.2.getD .ok) []

/-- CTRL_CRSP: the block sends no CTRL request, so an answer completes nothing (R250). -/
def execCtrlCrsp (port : Nat) (p : Packet) (s : State) : Host.Outcome State Fault Refusal :=
  guardWf (portOk port && packetOk p) s <| s.packetRow port p 5 (· = 3) fun s _ => s

end Sys2Proof.Machine
end

