-- ==== Sys2Proof/Machine/MemCmds.lean ====
section
/-! DEFINITION. Movements of pages, their ages, patrol scrub and the retirement of frames (R206, R212 to R219, R221, R225 to
R227). -/
namespace Sys2Proof

/-- Where the place's bytes lie is within reach: a die that is up, or host memory that answers. -/
def Place.up (down : List Nat) (t3 : Bool) (l : Place) : Bool :=
  match l with | .bk _ => t3 | _ => !down.contains l.die

end Sys2Proof

namespace Sys2Proof.Machine

/-- Host memory can be reached now. -/
def State.t3Up (s : State) : Bool := s.hif.linkUp && !s.t3Denied

/-- A movement of a page can land: its source and its destination are within reach (R34, R219, R456). A fill whose T3 read
is denied ends at once. -/
def State.moveUp (s : State) (k : Nat) (t3 : Bool) : Bool :=
  let p := s.mem.page k
  match p.move with
  | some v => v.dst.up s.downDies t3 && (match p.loc with | some l => l.up s.downDies t3 | none => true)
  | none => false

/-- The page moves from the backing pool. -/
def State.fromBacking (s : State) (k : Nat) : Bool :=
  match (s.mem.page k).loc with | some (.bk _) => true | _ => false

/-- PAGE_FILL_COMPLETE (R214, R215, R221, R223, R225, R449): only a page of the backing pool can fail its read or its tag. -/
def execPageFillComplete (key : Nat) (res : FillRes) (s : State) : Host.Outcome State Fault Refusal :=
  .next <|
    let bk := s.fromBacking key
    let reach := s.moveUp key (s.hif.linkUp || s.t3Denied)
    let fill := match (s.mem.page key).move with | some v => v.kind = .fill || v.kind = .zfill | none => false
    if !s.computeOn || !reach || !fill then s
    else
      let (s, r) : State × FillEnd :=
        if bk && s.t3Denied then (s, .failed .denied)
        else match res with
          | .failed st => (s, if bk then .failed st else .copied [])
          | .tagFail => (s, if bk then .tagFail else .copied [])
          | .copied e => let (s, ws) := s.moveErrs key e; (s, .copied ws)
      let s := s.memStep fun m d b => m.fillDone d b key r
      let s := match r, s.mem.objOf key with
        | .tagFail, some o => s.ev 0x0202 7 o.ctx 3 (keyHandle key + keyIdx key * 2 ^ 32)
        | _, _ => s
      s.resume

/-- PAGE_EVICTION_COMPLETE (R213, R217, R221, R223): it lands only while its places are within reach; each page held lower
is recorded (R208). -/
def execPageEvictionComplete (key : Nat) (e : PageErr) (s : State) : Host.Outcome State Fault Refusal :=
  .next <|
    let evict := match (s.mem.page key).move with | some v => v.kind = .evict | none => false
    if !s.computeOn || !s.moveUp key s.t3Up || !evict then s
    else
      let o := s.mem.objOf key
      let (s, ws) := s.moveErrs key e
      let s := s.memStep fun m d b => m.evictDone d b key ws
      (match o with | some o => s.ev 0x02FF 7 o.ctx 0 (keyHandle key + keyIdx key * 2 ^ 32) | none => s).resume

/-- BACKGROUND_EVICT (R218). -/
def execBackgroundEvict (tier : Nat) (s : State) : Host.Outcome State Fault Refusal :=
  guardWf (decide (1 ≤ tier) && decide (tier ≤ 2)) s <|
    let m := s.mem
    if !s.computeOn || decide (m.freeCnt tier ≥ (m.cnt tier).lowater.toNat) || (tier = 2 && m.chooseBacking.isNone) then s
    else
      match m.victim s.downDies s.busy tier with
      | some v => s.memStep fun m d b => m.demand d b .backfill .evict v
      | none => s

/-- PAGE_AGE_TICK (R213). -/
def execPageAgeTick (s : State) : Host.Outcome State Fault Refusal :=
  .next <| if s.computeOn then { s with mem := s.mem.ageTick } else s

/-! Patrol scrub (R226) -/

/-- What a pass finds in one frame (R221, R227). -/
def State.scrubHit (s : State) (h : ScrubHit) : State :=
  if (s.mem.retired h.tier).contains h.frame then s
  else
    let l := placeOf h.tier h.frame
    let s := (List.range h.ce).foldl (fun (s : State) _ =>
      (s.memStep fun m d b => m.frameCe d b h.tier h.frame s.now).ev 0x0201 (unitOf l 0).1 (unitOf l 0).2 h.tier 0) s
    h.ue.foldl (fun (s : State) w =>
      let u := unitOf l (64 * (w % 32768))
      match s.mem.pages.findKey? fun _ p => decide (p.loc = some l) with
      | some k =>
        if (s.mem.page k).poison.contains (w % 32768) then s
        else (s.memStep fun m d b => m.wordUe d b k w).ev 0x0202 u.1 u.2 h.tier (keyHandle k + keyIdx k * 2 ^ 32)
      | none =>
        (s.memStep fun m d b => (m.setCnt h.tier fun c => { c with ue := satInc c.ue }).dueRetire d b h.tier h.frame).ev
          0x0202 u.1 u.2 h.tier 0) s

/-- SCRUB_PASS_START: the Hearth takes the page scrub lock when no activity conflicts (R226). A pass's reads are of BACKFILL
class (R30). -/
def execScrubPassStart (found : List ScrubHit) (s : State) : Host.Outcome State Fault Refusal :=
  guardWf (found.all fun f => decide (1 ≤ f.tier) && decide (f.tier ≤ 2) && decide (f.frame < tierFrames f.tier)) s <|
    let l : Lock := ⟨5, 0, actScrub, 0, 0⟩
    if !s.hrt.ready || !s.computeOn || s.mem.scrubSince.isSome || (s.lockHeldBy l).isSome then s
    else found.foldl (fun (s : State) h => s.scrubHit h) ({ s.lockGrant l with mem := { s.mem with scrubSince := some s.now } })

/-- SCRUB_PASS_END: the pass is within its period, which clears BEHIND (R226, Table 7.12). -/
def execScrubPassEnd (s : State) : Host.Outcome State Fault Refusal :=
  .next <|
    if s.mem.scrubSince.isNone then s
    else (({ s with mem := { s.mem with scrubBehind := false, scrubOk := true } }).scrubStop).refreshAlarm

/-- SCRUB_PERIOD_END: a period of PERIOD hours that ends with no pass finished in it sets BEHIND (R226, Table 7.12). -/
def execScrubPeriodEnd (s : State) : Host.Outcome State Fault Refusal :=
  .next <|
    if s.now < s.mem.scrubAt + s.mem.scrubPeriod.toNat * 3600 * 1000000000 then s
    else
      ({ s with mem := { s.mem with
          scrubBehind := s.mem.scrubBehind || !s.mem.scrubOk, scrubAt := s.now, scrubOk := false } }).refreshAlarm

/-- FRAME_RETIRE_MOVE_LANDED (R221, R223, R227). -/
def execFrameRetireMoveLanded (tier frame : Nat) (e : PageErr) (s : State) : Host.Outcome State Fault Refusal :=
  guardWf (decide (1 ≤ tier) && decide (tier ≤ 2) && decide (frame < tierFrames tier)) s <|
    match s.mem.pages.findKey? fun _ p => decide (p.loc = some (placeOf tier frame)) with
    | some k =>
      if !s.computeOn || !s.moveUp k s.t3Up then s
      else
        let (s, ws) := s.moveErrs k e
        (s.memStep fun m d b => m.retireMoveDone d b tier frame ws).resume
    | none => s

end Sys2Proof.Machine
end

