-- ==== Sys2Proof/Machine/VectorCmds.lean ====
section
/-! DEFINITION. The vector engine's commands (chapter 04). -/
namespace Sys2Proof.Machine

/-- VEC.SRST of the tile's context waits for the vote (R180). -/
def State.voting (s : State) (t : Tile) : Bool := match t.ctx with | some c => s.ctxIs c (·.vote) | none => false

/-- Step number of the context that holds the tile. -/
def State.stepOf (s : State) (t : Tile) : W32 := match t.ctx.bind s.ctx? with | some x => x.step | none => 0

/-- Hand a checked instruction to the vector engine, or reject it (R100, R111). -/
def State.vecHand (s : State) (l : Nat) (t : Tile) (len : Nat) (r : Except Status VecOp) : State :=
  match r with
  | .error e => (s.onTile l fun t => (t.vecRejectWith e, [])).faultTile l e t.pc
  | .ok o =>
    s.onTile l fun t => if t.vecFull then (t.waitFor .unit, []) else ((t.vecAccept o t.pc (s.voting t) (s.stepOf t)).advance len, [])

/-- VEC_MAP (R97, R100). -/
def execVecMap (tile : Nat) (s : State) : Host.Outcome State Fault Refusal :=
  guardWf (tileOk tile) s <| s.issue tile (fun o => o = 0x20) fun s t w len => s.vecHand tile t len (vecMapCheck w)

/-- VEC_SRST (R98, R189). -/
def execVecSrst (tile : Nat) (s : State) : Host.Outcome State Fault Refusal :=
  guardWf (tileOk tile) s <| s.issue tile (fun o => o = 0x22) fun s t w len => s.vecHand tile t len (vecSrstCheck w)

/-- VEC_SMV (R99, R104, R111): handed to the vector engine, where it waits for its slot's deposit and its turn; a slot
whose VALID no earlier instruction will set rejects it with RANGE. -/
def execVecSmv (tile : Nat) (s : State) : Host.Outcome State Fault Refusal :=
  guardWf (tileOk tile) s <| s.issue tile (fun o => o = 0x21) fun s t w len =>
    match vecSmvCheck w with
    | .error e => s.vecHand tile t len (.error e)
    | .ok o => s.vecHand tile t len (if t.smvEmpty o then .error .range else .ok o)

/-- VEC_GROUP_ISSUE (R90 to R96, R106 to R110). -/
def execVecGroupIssue (tile : Nat) (hw : List StoreErr) (s : State) : Host.Outcome State Fault Refusal :=
  guardWf (tileOk tile) s <|
    let c := (s.tile tile).ctx.bind s.ctx?
    s.onTile tile fun t =>
      let (t, e1) := t.hit hw
      let (t, e2) := t.vecGroup s.now ((c.map (·.seed)).getD 0)
      (t, e1 ++ e2)

/-- SRST_VOTE_RELEASE (R180): with the context's VOTED set, the waiting VEC.SRST reads the outcome once. -/
def execSrstVoteRelease (tile : Nat) (s : State) : Host.Outcome State Fault Refusal :=
  guardWf (tileOk tile) s <|
    match (s.tile tile).ctx.bind s.ctx? with
    | some x => if x.voted then s.onTile tile fun t => (t.voteRelease (x.lastResult = 1), []) else s
    | none => s

/-- SUMMARY_DEPOSIT (R102, R103). -/
def execSummaryDeposit (tile : Nat) (s : State) : Host.Outcome State Fault Refusal :=
  guardWf (tileOk tile) s <| s.onTile tile fun t => (t.deposit, [])

/-- VEC_COMPLETE (R96, R111). -/
def execVecComplete (tile : Nat) (s : State) : Host.Outcome State Fault Refusal :=
  guardWf (tileOk tile) s <| s.onTile tile fun t => t.vecComplete s.now

end Sys2Proof.Machine
end

