-- ==== Sys2Proof/Machine/Dispatch.lean ====
section
/-! DEFINITION. One arm for each command: a direct call of its meaning. -/
namespace Sys2Proof.Machine

/-- The effect of a command on everything but the queue. -/
def exec (i : Instr) (s : State) : Host.Outcome State Fault Refusal :=
  match i with
  | .registerWrite a => Sys2Proof.Machine.execRegisterWrite a s
  | .rtNowLoRead who tee => Sys2Proof.Machine.execRtNowLoRead who tee s
  | .brmMinClr ptile tee => Sys2Proof.Machine.execBrmMinClr ptile tee s
  | .brmWindowEnd w => Sys2Proof.Machine.execBrmWindowEnd w s
  | .bellowsTick b => Sys2Proof.Machine.execBellowsTick b s
  | .rtHoldoverTimeout => Sys2Proof.Machine.execRtHoldoverTimeout s
  | .anvPass tile => Sys2Proof.Machine.execAnvPass tile s
  | .anvWeightLoad tile hw => Sys2Proof.Machine.execAnvWeightLoad tile hw s
  | .anvPassIssue tile hw => Sys2Proof.Machine.execAnvPassIssue tile hw s
  | .anvRowLand tile hw errs => Sys2Proof.Machine.execAnvRowLand tile hw errs s
  | .anvPassComplete tile => Sys2Proof.Machine.execAnvPassComplete tile s
  | .vecMap tile => Sys2Proof.Machine.execVecMap tile s
  | .vecSrst tile => Sys2Proof.Machine.execVecSrst tile s
  | .vecSmv tile => Sys2Proof.Machine.execVecSmv tile s
  | .vecGroupIssue tile hw => Sys2Proof.Machine.execVecGroupIssue tile hw s
  | .srstVoteRelease tile => Sys2Proof.Machine.execSrstVoteRelease tile s
  | .summaryDeposit tile => Sys2Proof.Machine.execSummaryDeposit tile s
  | .vecComplete tile => Sys2Proof.Machine.execVecComplete tile s
  | .ctlNop tile => Sys2Proof.Machine.execCtlNop tile s
  | .ctlEnd tile => Sys2Proof.Machine.execCtlEnd tile s
  | .ctlEndDrained tile => Sys2Proof.Machine.execCtlEndDrained tile s
  | .ctlBr tile => Sys2Proof.Machine.execCtlBr tile s
  | .ctlSbr tile => Sys2Proof.Machine.execCtlSbr tile s
  | .ctlXset tile => Sys2Proof.Machine.execCtlXset tile s
  | .ctlXadd tile => Sys2Proof.Machine.execCtlXadd tile s
  | .ctlLoop tile => Sys2Proof.Machine.execCtlLoop tile s
  | .ctlPfx tile => Sys2Proof.Machine.execCtlPfx tile s
  | .ctlSemsig tile => Sys2Proof.Machine.execCtlSemsig tile s
  | .semSignalDeliver idx => Sys2Proof.Machine.execSemSignalDeliver idx s
  | .ctlSemwait tile => Sys2Proof.Machine.execCtlSemwait tile s
  | .ctlStep tile => Sys2Proof.Machine.execCtlStep tile s
  | .stepComplete ctx => Sys2Proof.Machine.execStepComplete ctx s
  | .ctlTime tile => Sys2Proof.Machine.execCtlTime tile s
  | .ctlQpop tile host => Sys2Proof.Machine.execCtlQpop tile host s
  | .tngExec tile hw => Sys2Proof.Machine.execTngExec tile hw s
  | .tngPush tile => Sys2Proof.Machine.execTngPush tile s
  | .doorbellWrite q tail tee => Sys2Proof.Machine.execDoorbellWrite q tail tee s
  | .qEnable q irqen tee => Sys2Proof.Machine.execQEnable q irqen tee s
  | .qDisable q irqen tee => Sys2Proof.Machine.execQDisable q irqen tee s
  | .descNop q host => Sys2Proof.Machine.execDescNop q host s
  | .descLaunch q host => Sys2Proof.Machine.execDescLaunch q host s
  | .launchStart id => Sys2Proof.Machine.execLaunchStart id s
  | .moveCopy q host => Sys2Proof.Machine.execMoveCopy q host s
  | .moveFill q host => Sys2Proof.Machine.execMoveFill q host s
  | .moveSkew16 q host => Sys2Proof.Machine.execMoveSkew16 q host s
  | .moveAccstore q host => Sys2Proof.Machine.execMoveAccstore q host s
  | .syncSignal q host => Sys2Proof.Machine.execSyncSignal q host s
  | .syncAtTime q host => Sys2Proof.Machine.execSyncAtTime q host s
  | .atTimeExpire id => Sys2Proof.Machine.execAtTimeExpire id s
  | .syncStepset q host => Sys2Proof.Machine.execSyncStepset q host s
  | .tongsOperationIssue id => Sys2Proof.Machine.execTongsOperationIssue id s
  | .tongsOperationDone id k res => Sys2Proof.Machine.execTongsOperationDone id k res s
  | .descriptorComplete id => Sys2Proof.Machine.execDescriptorComplete id s
  | .memctlPlace q host => Sys2Proof.Machine.execMemctlPlace q host s
  | .memctlRelease q host => Sys2Proof.Machine.execMemctlRelease q host s
  | .memctlPin q host => Sys2Proof.Machine.execMemctlPin q host s
  | .memctlUnpin q host => Sys2Proof.Machine.execMemctlUnpin q host s
  | .memctlPrefetch q host => Sys2Proof.Machine.execMemctlPrefetch q host s
  | .memctlDemote q host => Sys2Proof.Machine.execMemctlDemote q host s
  | .memctlQuery q host => Sys2Proof.Machine.execMemctlQuery q host s
  | .memctlBacking q host => Sys2Proof.Machine.execMemctlBacking q host s
  | .pageFillComplete key res => Sys2Proof.Machine.execPageFillComplete key res s
  | .pageEvictionComplete key e => Sys2Proof.Machine.execPageEvictionComplete key e s
  | .backgroundEvict tier => Sys2Proof.Machine.execBackgroundEvict tier s
  | .pageAgeTick => Sys2Proof.Machine.execPageAgeTick s
  | .scrubPassStart found => Sys2Proof.Machine.execScrubPassStart found s
  | .scrubPeriodEnd => Sys2Proof.Machine.execScrubPeriodEnd s
  | .frameRetireMoveLanded tier frame e => Sys2Proof.Machine.execFrameRetireMoveLanded tier frame e s
  | .flitDataReceive port fl => Sys2Proof.Machine.execFlitDataReceive port fl s
  | .flitNakReceive port fl => Sys2Proof.Machine.execFlitNakReceive port fl s
  | .flitIdleReceive port fl => Sys2Proof.Machine.execFlitIdleReceive port fl s
  | .flitIdentReceive port fl => Sys2Proof.Machine.execFlitIdentReceive port fl s
  | .identSendTick port => Sys2Proof.Machine.execIdentSendTick port s
  | .identTimeout port => Sys2Proof.Machine.execIdentTimeout port s
  | .portTrainDone port ok => Sys2Proof.Machine.execPortTrainDone port ok s
  | .portTrainTimeout port => Sys2Proof.Machine.execPortTrainTimeout port s
  | .portRetrainTimeout port => Sys2Proof.Machine.execPortRetrainTimeout port s
  | .portLightLost port lanes => Sys2Proof.Machine.execPortLightLost port lanes s
  | .portLightReturn port lanes => Sys2Proof.Machine.execPortLightReturn port lanes s
  | .packetForward port p => Sys2Proof.Machine.execPacketForward port p s
  | .reqRead port p res => Sys2Proof.Machine.execReqRead port p res s
  | .reqWrite port p res => Sys2Proof.Machine.execReqWrite port p res s
  | .reqPush port p => Sys2Proof.Machine.execReqPush port p s
  | .rspRdata port p => Sys2Proof.Machine.execRspRdata port p s
  | .rspAck port p => Sys2Proof.Machine.execRspAck port p s
  | .collData port p => Sys2Proof.Machine.execCollData port p s
  | .collSegend port p => Sys2Proof.Machine.execCollSegend port p s
  | .collResend port p => Sys2Proof.Machine.execCollResend port p s
  | .collGrant port p => Sys2Proof.Machine.execCollGrant port p s
  | .collCredit port p => Sys2Proof.Machine.execCollCredit port p s
  | .collArrive port p => Sys2Proof.Machine.execCollArrive port p s
  | .collDecide port p => Sys2Proof.Machine.execCollDecide port p s
  | .collDeadlineExpire id => Sys2Proof.Machine.execCollDeadlineExpire id s
  | .collReduce q host => Sys2Proof.Machine.execCollReduce q host s
  | .collAllreduce q host => Sys2Proof.Machine.execCollAllreduce q host s
  | .collReducescatter q host => Sys2Proof.Machine.execCollReducescatter q host s
  | .collAllgather q host => Sys2Proof.Machine.execCollAllgather q host s
  | .collBarrier q host => Sys2Proof.Machine.execCollBarrier q host s
  | .collVote q host => Sys2Proof.Machine.execCollVote q host s
  | .collPermute q host => Sys2Proof.Machine.execCollPermute q host s
  | .collXfer q host => Sys2Proof.Machine.execCollXfer q host s
  | .collFence q host => Sys2Proof.Machine.execCollFence q host s
  | .collEpochset q host => Sys2Proof.Machine.execCollEpochset q host s
  | .fencePacket port p => Sys2Proof.Machine.execFencePacket port p s
  | .fenceKeyAgeOut ctx epoch dev => Sys2Proof.Machine.execFenceKeyAgeOut ctx epoch dev s
  | .treqSendTick => Sys2Proof.Machine.execTreqSendTick s
  | .timeTreq port p => Sys2Proof.Machine.execTimeTreq port p s
  | .timeTrsp port p => Sys2Proof.Machine.execTimeTrsp port p s
  | .ctrlCread port p => Sys2Proof.Machine.execCtrlCread port p s
  | .ctrlCwrite port p => Sys2Proof.Machine.execCtrlCwrite port p s
  | .ctrlCrsp port p => Sys2Proof.Machine.execCtrlCrsp port p s
  | .lstateReceive port p => Sys2Proof.Machine.execLstateReceive port p s
  | .lstateSendTick => Sys2Proof.Machine.execLstateSendTick s
  | .stageArbiterDecide stage host => Sys2Proof.Machine.execStageArbiterDecide stage host s
  | .schCommit tee => Sys2Proof.Machine.execSchCommit tee s
  | .schCommitEffect => Sys2Proof.Machine.execSchCommitEffect s
  | .slotOpen entry => Sys2Proof.Machine.execSlotOpen entry s
  | .slotClose entry => Sys2Proof.Machine.execSlotClose entry s
  | .schPreempt ctx tee => Sys2Proof.Machine.execSchPreempt ctx tee s
  | .preemptComplete ctx => Sys2Proof.Machine.execPreemptComplete ctx s
  | .schResume ctx tee => Sys2Proof.Machine.execSchResume ctx tee s
  | .schSwitch ctx ver tee => Sys2Proof.Machine.execSchSwitch ctx ver tee s
  | .layerRelease ctx => Sys2Proof.Machine.execLayerRelease ctx s
  | .loadStart vec irqen tee => Sys2Proof.Machine.execLoadStart vec irqen tee s
  | .loadAbort vec irqen tee => Sys2Proof.Machine.execLoadAbort vec irqen tee s
  | .loadCheckDone c => Sys2Proof.Machine.execLoadCheckDone c s
  | .loadComplete r => Sys2Proof.Machine.execLoadComplete r s
  | .remoteTimeout op => Sys2Proof.Machine.execRemoteTimeout op s
  | .fillTimeout wait => Sys2Proof.Machine.execFillTimeout wait s
  | .retireRequest ptile tee => Sys2Proof.Machine.execRetireRequest ptile tee s
  | .autoqQuench part => Sys2Proof.Machine.execAutoqQuench part s
  | .autoqTimeout part => Sys2Proof.Machine.execAutoqTimeout part s
  | .partitionQuench part tee => Sys2Proof.Machine.execPartitionQuench part tee s
  | .quenchComplete part => Sys2Proof.Machine.execQuenchComplete part s
  | .partitionResume part tee => Sys2Proof.Machine.execPartitionResume part tee s
  | .contextReset ctx tee => Sys2Proof.Machine.execContextReset ctx tee s
  | .dieFaultReset die => Sys2Proof.Machine.execDieFaultReset die s
  | .dieResetRequest die tee => Sys2Proof.Machine.execDieResetRequest die tee s
  | .dieResetComplete die => Sys2Proof.Machine.execDieResetComplete die s
  | .warmResetRequest tee => Sys2Proof.Machine.execWarmResetRequest tee s
  | .warmResetComplete => Sys2Proof.Machine.execWarmResetComplete s
  | .hangScan => Sys2Proof.Machine.execHangScan s
  | .replayTimeout part => Sys2Proof.Machine.execReplayTimeout part s
  | .healthDecay => Sys2Proof.Machine.execHealthDecay s
  | .timingMarginDaily die => Sys2Proof.Machine.execTimingMarginDaily die s
  | .opticalMarginSample port margins => Sys2Proof.Machine.execOpticalMarginSample port margins s
  | .claim r => Sys2Proof.Machine.execClaim r s
  | .releaseOwner r => Sys2Proof.Machine.execReleaseOwner r s
  | .setOwnerFabric r => Sys2Proof.Machine.execSetOwnerFabric r s
  | .enrolTenant r => Sys2Proof.Machine.execEnrolTenant r s
  | .installGlove r => Sys2Proof.Machine.execInstallGlove r s
  | .rotateFabric r => Sys2Proof.Machine.execRotateFabric r s
  | .fabricPrevKeyExpire => Sys2Proof.Machine.execFabricPrevKeyExpire s
  | .grantHost r => Sys2Proof.Machine.execGrantHost r s
  | .handover r => Sys2Proof.Machine.execHandover r s
  | .handoverComplete failed => Sys2Proof.Machine.execHandoverComplete failed s
  | .enterMaint r => Sys2Proof.Machine.execEnterMaint r s
  | .debugUnlock r => Sys2Proof.Machine.execDebugUnlock r s
  | .exitMaint r => Sys2Proof.Machine.execExitMaint r s
  | .setMaintKey r => Sys2Proof.Machine.execSetMaintKey r s
  | .getMeasurements sess => Sys2Proof.Machine.execGetMeasurements sess s
  | .spdmKeyExchange key eid sideband => Sys2Proof.Machine.execSpdmKeyExchange key eid sideband s
  | .ideKmKeyProg sess stream => Sys2Proof.Machine.execIdeKmKeyProg sess stream s
  | .lockInterface sess => Sys2Proof.Machine.execLockInterface sess s
  | .startInterface sess => Sys2Proof.Machine.execStartInterface sess s
  | .stopInterface sess => Sys2Proof.Machine.execStopInterface sess s
  | .ideIntegrityFailure => Sys2Proof.Machine.execIdeIntegrityFailure s
  | .quantWindowEnd slow => Sys2Proof.Machine.execQuantWindowEnd slow s
  | .hearthLockstepError => Sys2Proof.Machine.execHearthLockstepError s
  | .hearthRestartDone => Sys2Proof.Machine.execHearthRestartDone s
  | .sensorSample vals => Sys2Proof.Machine.execSensorSample vals s
  | .alarmSeenClear w tee => Sys2Proof.Machine.execAlarmSeenClear w tee s
  | .eventRecordSubmit e => Sys2Proof.Machine.execEventRecordSubmit e s
  | .eventStageExpire idx => Sys2Proof.Machine.execEventStageExpire idx s
  | .rateWindowEnd => Sys2Proof.Machine.execRateWindowEnd s
  | .logDropClose => Sys2Proof.Machine.execLogDropClose s
  | .hlogHeadWrite v tee => Sys2Proof.Machine.execHlogHeadWrite v tee s
  | .hlogEntryWrite => Sys2Proof.Machine.execHlogEntryWrite s
  | .ownerPowerLimitSet sess watts => Sys2Proof.Machine.execOwnerPowerLimitSet sess watts s
  | .fwRequestUpdate sess img => Sys2Proof.Machine.execFwRequestUpdate sess img s
  | .activateFirmware sess => Sys2Proof.Machine.execActivateFirmware sess s
  | .fwActivationTimeout => Sys2Proof.Machine.execFwActivationTimeout s
  | .svnRaise => Sys2Proof.Machine.execSvnRaise s
  | .lockTake act scope tee => Sys2Proof.Machine.execLockTake act scope tee s
  | .lockRelease act scope tee => Sys2Proof.Machine.execLockRelease act scope tee s
  | .marginSweepStep die => Sys2Proof.Machine.execMarginSweepStep die s
  | .bistRequest who kind idx precond => Sys2Proof.Machine.execBistRequest who kind idx precond s
  | .bistComplete kind idx pass => Sys2Proof.Machine.execBistComplete kind idx pass s
  | .bar4Read off n tee res => Sys2Proof.Machine.execBar4Read off n tee res s
  | .bar4Write off bytes tee res => Sys2Proof.Machine.execBar4Write off bytes tee res s
  | .bar4Resize log2 => Sys2Proof.Machine.execBar4Resize log2 s
  | .abiNegotiate request tee => Sys2Proof.Machine.execAbiNegotiate request tee s
  | .remapSelect v tee => Sys2Proof.Machine.execRemapSelect v tee s
  | .t3ReadCompletion tag res => Sys2Proof.Machine.execT3ReadCompletion tag res s
  | .t3CompletionTimeout tag => Sys2Proof.Machine.execT3CompletionTimeout tag s
  | .msixUnmask vec tee => Sys2Proof.Machine.execMsixUnmask vec tee s
  | .pcieConventionalReset => Sys2Proof.Machine.execPcieConventionalReset s
  | .functionLevelReset => Sys2Proof.Machine.execFunctionLevelReset s
  | .linkDown => Sys2Proof.Machine.execLinkDown s
  | .linkDownTimeout => Sys2Proof.Machine.execLinkDownTimeout s
  | .powerOnReset => Sys2Proof.Machine.execPowerOnReset s
  | .domainPowerUp => Sys2Proof.Machine.execDomainPowerUp s
  | .powerUpComplete => Sys2Proof.Machine.execPowerUpComplete s
  | .parkIdle die tee => Sys2Proof.Machine.execParkIdle die tee s
  | .parkDeep die tee => Sys2Proof.Machine.execParkDeep die tee s
  | .parkWake die tee => Sys2Proof.Machine.execParkWake die tee s
  | .parkWakeDone die => Sys2Proof.Machine.execParkWakeDone die s
  | .standbyEnter tee => Sys2Proof.Machine.execStandbyEnter tee s
  | .computePowerStandby who => Sys2Proof.Machine.execComputePowerStandby who s
  | .computePowerOn who => Sys2Proof.Machine.execComputePowerOn who s
  | .resetCauseClear tee => Sys2Proof.Machine.execResetCauseClear tee s
  | .inputUndervoltage => Sys2Proof.Machine.execInputUndervoltage s
  | .inputDisconnect => Sys2Proof.Machine.execInputDisconnect s
  | .dieTrip die k => Sys2Proof.Machine.execDieTrip die k s
  | .dieTripRelease die => Sys2Proof.Machine.execDieTripRelease die s
  | .moduleTrip kind sensor => Sys2Proof.Machine.execModuleTrip kind sensor s
  | .standbyRailLoss => Sys2Proof.Machine.execStandbyRailLoss s
  | .laserUnitRemoved d => Sys2Proof.Machine.execLaserUnitRemoved d s
  | .laserUnitInserted d => Sys2Proof.Machine.execLaserUnitInserted d s
  | .laserReady d => Sys2Proof.Machine.execLaserReady d s
  | .linkUp rate width flit => Sys2Proof.Machine.execLinkUp rate width flit s
  | .parkEntryComplete die => Sys2Proof.Machine.execParkEntryComplete die s
  | .scrubPassEnd => Sys2Proof.Machine.execScrubPassEnd s
  | .cycleBoundary => Sys2Proof.Machine.execCycleBoundary s
  | .configSpaceWrite off v => Sys2Proof.Machine.execConfigSpaceWrite off v s
  | .reservedOpcode tile => Sys2Proof.Machine.execReservedOpcode tile s
  | .reservedDescriptorClass q host => Sys2Proof.Machine.execReservedDescriptorClass q host s

end Sys2Proof.Machine
end

