-- ==== Sys2Proof/Machine/Idle.lean ====
section
/-! DEFINITION. What a nanosecond without a command does: reference time advances (R52, R53), a stage's microsecond is
counted (R307), and what waits is looked at again. -/
namespace Sys2Proof

/-- Idle ticks between two nanoseconds of correction: 1,000 ppm in ACQUIRE, and otherwise the frequency correction of the last
exchange, of at most 100 ppm (Table 2.4); 0 where there is none. -/
def RefTime.slewEvery (r : RefTime) : Nat := if r.st = .acquire then 1000 else 1000000 / r.freq.natAbs

/-- Direction of the correction: of what remains of the offset, and in HOLDOVER of the frequency correction that it holds. -/
def RefTime.slewDir (r : RefTime) : Int :=
  match r.st with
  | .free => 0
  | .holdover => r.freq
  | _ => r.slew

/-- One nanosecond of the local clock, corrected by at most one nanosecond; the counter never decreases (R52, R53). -/
def RefTime.tick (r : RefTime) : RefTime :=
  if r.slewDir = 0 || r.slewEvery = 0 then { r with now := r.now + 1 }
  else if r.slewTick + 1 < r.slewEvery then { r with now := r.now + 1, slewTick := r.slewTick + 1 }
  else if 0 < r.slewDir then { r with now := r.now + 2, slewTick := 0, slew := if r.st = .holdover then r.slew else r.slew - 1 }
  else { r with slewTick := 0, slew := if r.st = .holdover then r.slew else r.slew + 1 }

end Sys2Proof

namespace Sys2Proof.Machine

/-- A microsecond of every stage. -/
def State.countUs (s : State) : State := { s with stages := SMap.mapV s.stages fun _ g => s.stageUs g }

/-- Slot openings that wait for their partition go on, or lapse (R321). -/
def State.openWaiting (s : State) : State :=
  (SMap.keys s.sch.parts).foldl (fun (s : State) p => if (s.schPart p).opening.isSome then s.schAdvance p else s) s

/-- A nanosecond in which no command comes: nothing while the fabric domain has no power; otherwise time passes, the ports
send what they have (R242, R257), and what waits goes on. -/
def State.idle (s : State) : State :=
  if s.pwr.dom = .off then s
  else
    let old := s.now
    let s := { s with time := s.time.tick }
    let s := if s.now / 1000 = old / 1000 then s else s.countUs.noteStages
    s.txFlits.openWaiting.resume

end Sys2Proof.Machine
end

