-- ==== Sys2Proof/Safety.lean ====
section
/-! DEFINITION. What counts as a safe run: no step stops; and where the secrets of a tenancy may be. -/
namespace Sys2Proof

/-- The tenant key, the Glove, and the memory and log keys exist only in TENANTED and HANDOVER (R392, R406), and an
EXIT_MAINT is under way only in MAINTENANCE (R413). -/
def Sec.confined (x : Sec) : Bool :=
  (x.st = .tenanted || x.st = .handover
    || (x.tkey.isNone && x.tload.isNone && x.tfab.isNone && x.tfabPrev.isNone && !x.memKeys && !x.logKey))
  && (!x.exiting || x.st = .maintenance)

end Sys2Proof

namespace Sys2Proof.Machine

/-- The secrets of a tenancy are where they may be. -/
def State.secretsConfined (s : State) : Bool := s.sec.confined

/-- An outcome goes on. -/
def goesOn (o : Host.Outcome State Fault Refusal) : Bool :=
  match o with
  | .next _ => true
  | .fault _ => false
  | .refused _ => false

/-- Every waiting command is well formed. -/
def State.queueWf (s : State) : Bool := s.pending.all Instr.wf

/-- A run of `k` steps meets no stop. -/
def safeFor (k : Nat) (s : State) : Bool := goesOn (Sys2Proof.core.run k s)

end Sys2Proof.Machine
end

