-- ==== Sys2Proof/Certificates/Slice0/Obligations.lean ====
section
/-! DEFINITION. The statements for the provers, and the words they are said in. -/
namespace Sys2Proof.Machine

/-- Logical tile `l` stands at physical tile `p`, may issue, and finds instruction `w` of `len` bytes with opcode `o`
at its PC. -/
abbrev AtInstr (s : State) (l p o w len : Nat) : Prop :=
  l < 25600 ∧ s.phys l = some p ∧ s.mayIssue l (s.ptile p) = true ∧ (s.ptile p).fetch = .instr w len ∧ nbits w 0 8 = o

/-- Between `s` and `u` nothing differs but physical tile `p` and the block's notes of waits. -/
abbrev TileOnly (s u : State) (p : Nat) : Prop :=
  u = { s with
    tiles := SMap.setD s.tiles p (u.ptile p) Tile.reset
    flt := { s.flt with waitAt := u.flt.waitAt, ended := u.flt.ended } }

end Sys2Proof.Machine

namespace Sys2Proof.Machine

/-- The next entry of queue `q` may be taken: nothing holds it back, its die runs, its context is not fenced, and it is
read, from host memory as `host` brings it or from the tiers, as the bytes `bs`; `v` is the state once they are read. -/
abbrev EntryIn (s : State) (q : Nat) (host : Fetched) (v : State) (bs : List Byte) : Prop :=
  q < 262144 ∧ entryBytesOk host = true ∧ s.canFetch q = true ∧ (s.die (s.queue q).die).park = .run ∧
    (s.fab.ctx (s.queue q).ctx).fenced = false ∧ s.readEntry q host = (v, .got bs) ∧ v.ordWaits q bs = false

/-- The next entry of dispatch queue `q`, read as `bs` in state `v`, is of a class and operation and passes orders 1 to 4 of
Table 5.5. -/
abbrev AtEntry (s : State) (q : Nat) (host : Fetched) (v : State) (bs : List Byte) (cls op : Nat) : Prop :=
  EntryIn s q host v bs ∧ s.rqMay q = true ∧ s.stageQueue q = false ∧ descCls bs = cls ∧ descOp bs = op ∧
    v.checkDesc (v.accepts q) (v.queue q).ctx bs = none

/-- FETCH of queue `q` has passed one entry. -/
abbrev State.taken (s : State) (q : Nat) : State :=
  { s with queues := SMap.setD s.queues q { s.queue q with fetch := (s.queue q).fetch + 1 } Queue.reset }

/-- The entry `bs` at index `i` of queue `q` is a descriptor of `w` on its way. -/
abbrev State.put (w : State) (q : Nat) (i : W32) (bs : List Byte) (body : DescBody) (st : DescSt) (detail : W32) : State :=
  { w with
    nextDesc := w.nextDesc + 1
    descs := SMap.set w.descs w.nextDesc
      ⟨.queue q i, DescHdr.ofBytes bs, body, st, .ok, detail, false, none, false, none, none, none⟩ }

/-- The entry `bs` of queue `q` has been taken, and its descriptor is on its way. -/
abbrev State.started (s : State) (q : Nat) (bs : List Byte) (body : DescBody) (st : DescSt) (detail : W32) : State :=
  (s.taken q).put q (s.queue q).fetch bs body st detail

end Sys2Proof.Machine

namespace Sys2Proof.Machine

/-- Packet `k` heads what port `p` has received, ends here, opens to `x` under a key of its class, and passes every check
that packets of its class meet (R251, R252, R265, R269). -/
abbrev PacketIn (s : State) (p : Nat) (k x : Packet) (cls op : Nat) : Prop :=
  portOk p = true ∧ packetOk k = true ∧ s.atHead p k = true ∧ k.cls = cls ∧ k.op = op ∧ s.fab.route false k = .deliver ∧
    (p = 3 → cls = 3 ∨ cls = 5) ∧ s.opened k = some x ∧ x.check = none ∧
    (cls = 3 ∨ cls = 5 ∨ (s.wrongEpoch x = false ∧ s.srcFenced x = false))

/-- A COLL packet from the member of its context's group that its RANK names; `v` is the state once the packet is taken and
the instances that nothing asks for any more are gone, and its own has not closed without its work. -/
abbrev CollIn (s : State) (p : Nat) (k x : Packet) (op : Nat) (g : CGroup) (v : State) : Prop :=
  PacketIn s p k x 2 op ∧ (s.takePkt p k).dropOver = v ∧ v.group? x.collKey.cgrp = some g ∧ g.ctx = x.ctx ∧
    g.members[x.rank]? = some x.src ∧ x.rank ≠ g.rank ∧ v.collGone x.collKey = false

/-- Between `s` and `u`, packet `k` has joined the queue of output port `p`. -/
abbrev QueuedOn (s u : State) (p : Nat) (k : TxPkt) : Prop :=
  (u.fab.port p).queue k.pkt.chan = (s.fab.port p).queue k.pkt.chan ++ [k]

/-- Tiles, queues, contexts, descriptors and memory are the same in both states. -/
abbrev WorkKept (s u : State) : Prop :=
  u.tiles = s.tiles ∧ u.queues = s.queues ∧ u.ctxs = s.ctxs ∧ u.descs = s.descs ∧ u.mem = s.mem

end Sys2Proof.Machine

namespace Sys2Proof.Machine

/-- A host write to a register of this item reaches the block, with the rights it needs (R399, R444). -/
abbrev HostMay (s : State) (item : RegItem) (tee : Bool) : Prop :=
  s.barShut tee = false ∧ item.hostWrite s.sec.st = true ∧ (s.sec.st = .handover → item = .hif)

end Sys2Proof.Machine

namespace Sys2Proof.Machine

/-- A Gauntlet command of this number passes the checks of R393 with this body length and role, in one of these states. -/
abbrev GauntletMay (s : State) (r : GReq) (cmd len : Nat) (role : GRole) (sts : List SecSt) : Prop :=
  s.hrt.ready = true ∧ fld r.word 0 8 = cmd ∧ fld r.word 8 4 = 1 ∧ fld r.word 12 20 = 0 ∧ r.body.length = len ∧
    s.gRole r role = true ∧ s.sec.st ∈ sts

end Sys2Proof.Machine

namespace Sys2Proof

/-- The T bit of a command by which the host reaches a BAR of the block; none for every other command. -/
def Instr.hostTee : Instr → Option Bool
  | .registerWrite a => some a.tee
  | .rtNowLoRead .host tee | .brmMinClr _ tee | .doorbellWrite _ _ tee | .qEnable _ _ tee | .qDisable _ _ tee
  | .schCommit tee | .schPreempt _ tee | .schResume _ tee | .schSwitch _ _ tee | .loadStart _ _ tee | .loadAbort _ _ tee
  | .retireRequest _ tee | .partitionQuench _ tee | .partitionResume _ tee | .contextReset _ tee | .dieResetRequest _ tee
  | .warmResetRequest tee | .alarmSeenClear _ tee | .hlogHeadWrite _ tee | .lockTake _ _ tee | .lockRelease _ _ tee
  | .bistRequest (.host tee) _ _ _ | .bar4Read _ _ tee _ | .bar4Write _ _ tee _ | .abiNegotiate _ tee | .remapSelect _ tee
  | .msixUnmask _ tee | .parkIdle _ tee | .parkDeep _ tee | .parkWake _ tee | .standbyEnter tee | .resetCauseClear tee => some tee
  | _ => none

end Sys2Proof

section
open Sys2Proof Sys2Proof.Machine

/-- The queue of commands, first in first out (the model's own rule, log entry 1): a step with a command at the front of
the queue is that command's effect on the state with the queue's rest. -/
def Obligations.StepRunsFrontCommand : Prop :=
  ∀ (c : Instr) (rest : List Instr) (s : State), s.pending = c :: rest →
    step s = exec c { s with pending := rest }

/-- R72 to R75 (Tables 3.2 to 3.4): an ANV.PASS that passes its checks, with room in the Anvil's queue, is accepted: it
joins the queue at its place in program order, and PC goes past its 16 bytes. R73, R138 (Table 3.4): a rejected ANV.PASS sets REJECT and LAST_ERR, starts nothing, and the tile program faults at
its address. -/
def Obligations.AnvPassIsAcceptedOrFaults : Prop :=
  (∀ (s : State) (l p w : Nat) (q : AnvPass),
    AtInstr s l p 0x10 w 16 →
    (anvCheck (s.ptile p) (broadcastTile l) w).toOption = some q →
    (s.ptile p).anvFull = false →
    ∃ u, exec (.anvPass l) s = .next u ∧ (u.ptile p = { s.ptile p with
        anvJobs := (s.ptile p).anvJobs ++ [⟨q, (s.ptile p).pc, (s.ptile p).seq, !(q.real && q.neww), !q.real, [], 0, 0, 0, 0, (s.ptile p).tol, (s.ptile p).abftAct⟩]
        anvShape := if q.real && q.neww then some (q.wfmt, q.k, q.n) else (s.ptile p).anvShape
        seq := (s.ptile p).seq + 1, pc := (s.ptile p).pc + 16, patches := [], cpState := .running, wait := none }) ∧
      TileOnly s u p) ∧
  (∀ (s : State) (l p w : Nat) (e : Status),
    AtInstr s l p 0x10 w 16 →
    (match anvCheck (s.ptile p) (broadcastTile l) w with | .error x => some x | .ok _ => none) = some e →
    ∃ u, exec (.anvPass l) s = .next u ∧ (u.ptile p).anvReject = true ∧
      (u.ptile p).anvLastErr = e ∧
      (u.ptile p).anvJobs = (s.ptile p).anvJobs ∧
      (u.ptile p).acc = (s.ptile p).acc ∧
      (u.ptile p).spd = (s.ptile p).spd ∧
      (u.ptile p).cpState = .faulted ∧
      (u.ptile p).cpLastErr = e ∧
      (u.ptile p).faultPc = BitVec.ofNat 18 (s.ptile p).pc)

/-- R63, R68 to R71, R78: with no storage error, the next weight block is read into the pending registers; a pass whose
block is there moves it into the active registers and streams its rows. -/
def Obligations.AnvilLoadsAndIssues : Prop :=
  (∀ (s : State) (l p i : Nat) (j : AnvJob),
    l < 25600 →
    s.phys l = some p →
    (s.ptile p).anvLoadDue = some (i, j) →
    (s.ptile p).spdUeIn j.pass.wAddr (imageBytes j.pass.wfmt) = 0 →
    ∃ u, exec (.anvWeightLoad l []) s = .next u ∧ u.ptile p = { s.ptile p with
        anvPending := some ((s.ptile p).readBlock j.pass), anvJobs := listSet (s.ptile p).anvJobs i { j with loaded := true } } ∧
      TileOnly s u p) ∧
  (∀ (s : State) (l p i : Nat) (j : AnvJob) (b : WBlock),
    l < 25600 →
    s.phys l = some p →
    (s.ptile p).spdUe = [] →
    (s.ptile p).anvJobs.findIdx? (fun j => !j.issued) = some i →
    (s.ptile p).anvJobs[i]? = some j →
    (if j.pass.neww then (if j.loaded then (s.ptile p).anvPending else none) else (s.ptile p).anvActive) = some b →
    ∃ u, exec (.anvPassIssue l []) s = .next u ∧ (u.ptile p = { s.ptile p with
        anvActive := some b, anvPending := if j.pass.neww then none else (s.ptile p).anvPending
        anvJobs := listSet (s.ptile p).anvJobs i
          { j with issued := true, rows := (List.range j.pass.m).map ((s.ptile p).passRow j.pass b) } }) ∧
      TileOnly s u p)

/-- R63, R75, R79 to R83, R127: the next row of a pass is written to its accumulator row and, with a check value within the
tolerance, changes no ABFT register; an issued pass whose rows have all landed completes, counts, and signals SEM. R82 to R84, R360 (Table 3.8): a row whose check value lies beyond the tolerance is counted and captured; ABFT_ACT as the
pass was accepted with it decides what else happens. -/
def Obligations.AnvilLandsChecksAndCompletes : Prop :=
  (∀ (s : State) (l p i r : Nat) (errs : List (Nat × W32)) (j : AnvJob),
    l < 25600 →
    (errs.all fun x => decide (x.1 ≤ 16)) = true →
    s.phys l = some p →
    (s.ptile p).landDue = some (i, j, r) →
    j.pass.k ≠ 0 →
    (s.ptile p).accUe = [] →
    (injectErr (j.rows.getD j.landed ⟨[], 0, true⟩) errs).ue = false →
    abftCompare j.tol.toNat (injectErr (j.rows.getD j.landed ⟨[], 0, true⟩) errs).p (injectErr (j.rows.getD j.landed ⟨[], 0, true⟩) errs).c = some false →
    ∃ u, exec (.anvRowLand l [] errs) s = .next u ∧ u.ptile p = { ((s.ptile p).writeRow j.pass.acc r (injectErr (j.rows.getD j.landed ⟨[], 0, true⟩) errs).p).1 with
        anvNonfinite := (s.ptile p).anvNonfinite || ((s.ptile p).writeRow j.pass.acc r (injectErr (j.rows.getD j.landed ⟨[], 0, true⟩) errs).p).2.2
        anvJobs := listSet (s.ptile p).anvJobs i { j with landed := j.landed + 1 } } ∧
      TileOnly s u p) ∧
  (∀ (s : State) (l p i r : Nat) (errs : List (Nat × W32)) (j : AnvJob),
    l < 25600 →
    (errs.all fun x => decide (x.1 ≤ 16)) = true →
    s.phys l = some p →
    (s.ptile p).landDue = some (i, j, r) →
    j.pass.k ≠ 0 →
    (s.ptile p).accUe = [] →
    (injectErr (j.rows.getD j.landed ⟨[], 0, true⟩) errs).ue = false →
    abftCompare j.tol.toNat (injectErr (j.rows.getD j.landed ⟨[], 0, true⟩) errs).p (injectErr (j.rows.getD j.landed ⟨[], 0, true⟩) errs).c = none →
    ∃ u, exec (.anvRowLand l [] errs) s = .next u ∧ u.ptile p = { ((s.ptile p).writeRow j.pass.acc r (injectErr (j.rows.getD j.landed ⟨[], 0, true⟩) errs).p).1 with
        anvNonfinite := true, anvSkipped := satInc (s.ptile p).anvSkipped
        anvJobs := listSet (s.ptile p).anvJobs i { j with landed := j.landed + 1 } } ∧
      TileOnly s u p) ∧
  (∀ (s : State) (l p i r : Nat) (errs : List (Nat × W32)) (j : AnvJob),
    l < 25600 →
    (errs.all fun x => decide (x.1 ≤ 16)) = true →
    s.phys l = some p →
    (s.ptile p).landDue = some (i, j, r) →
    j.pass.k = 0 →
    ∃ u, exec (.anvRowLand l [] errs) s = .next u ∧ u.ptile p = { (s.ptile p).writeEmpty j.pass with anvJobs := listSet (s.ptile p).anvJobs i { j with landed := j.pass.m } } ∧
      TileOnly s u p) ∧
  (∀ (s : State) (l p : Nat) (j : AnvJob) (js : List AnvJob),
    l < 25600 →
    s.phys l = some p →
    (s.ptile p).anvJobs = j :: js →
    j.issued = true →
    j.due = 0 →
    j.mism = 0 →
    ∃ u, exec (.anvPassComplete l) s = .next u ∧ (u.ptile p = { s.ptile p with
        anvJobs := js, anvPasses := if j.pass.real then (s.ptile p).anvPasses + 1 else (s.ptile p).anvPasses }) ∧
      (u.sigs = (if j.pass.sig then s.sigs ++ [⟨l, j.pass.sem, 1, none, some j.pc, none, (s.ptile p).ctx.getD 0, none⟩] else s.sigs)) ∧
      TileOnly { s with sigs := u.sigs } u p) ∧
  (∀ (s : State) (l p i r : Nat) (errs : List (Nat × W32)) (j : AnvJob),
    l < 25600 →
    (errs.all fun x => decide (x.1 ≤ 16)) = true →
    s.phys l = some p →
    (s.ptile p).landDue = some (i, j, r) →
    j.pass.k ≠ 0 →
    (s.ptile p).accUe = [] →
    (injectErr (j.rows.getD j.landed ⟨[], 0, true⟩) errs).ue = false →
    j.pass.acc = false →
    j.act ≠ 2 →
    abftCompare j.tol.toNat (injectErr (j.rows.getD j.landed ⟨[], 0, true⟩) errs).p (injectErr (j.rows.getD j.landed ⟨[], 0, true⟩) errs).c = some true →
    ∃ u, exec (.anvRowLand l [] errs) s = .next u ∧ (u.ptile p).anvMismatches = satInc (s.ptile p).anvMismatches ∧
      (u.ptile p).anvMismatch = true ∧
      (u.ptile p).anvTbin = BitVec.ofNat 5 (s.tbin (logDie l)) ∧
      (u.ptile p).anvNbr = BitVec.ofNat 4 (s.nbr l) ∧
      (u.ptile p).anvAccRow = BitVec.ofNat 9 r ∧
      (u.ptile p).psn = (decide (j.act = 1) || (s.ptile p).psn) ∧
      (u.ptile p).acc = ((s.ptile p).writeRow false r (injectErr (j.rows.getD j.landed ⟨[], 0, true⟩) errs).p).1.acc) ∧
  (∀ (s : State) (l p i r : Nat) (errs : List (Nat × W32)) (j : AnvJob),
    l < 25600 →
    (errs.all fun x => decide (x.1 ≤ 16)) = true →
    s.phys l = some p →
    (s.ptile p).landDue = some (i, j, r) →
    j.pass.k ≠ 0 →
    (s.ptile p).accUe = [] →
    (injectErr (j.rows.getD j.landed ⟨[], 0, true⟩) errs).ue = false →
    j.pass.acc = false →
    j.act = 2 →
    (s.ptile p).cpState = .running →
    abftCompare j.tol.toNat (injectErr (j.rows.getD j.landed ⟨[], 0, true⟩) errs).p (injectErr (j.rows.getD j.landed ⟨[], 0, true⟩) errs).c = some true →
    ∃ u, exec (.anvRowLand l [] errs) s = .next u ∧ (u.ptile p).anvMismatches = satInc (s.ptile p).anvMismatches ∧
      (u.ptile p).anvMismatch = true ∧
      (u.ptile p).anvAccRow = BitVec.ofNat 9 r ∧
      (u.ptile p).cpState = .faulted ∧
      (u.ptile p).cpLastErr = .abftMismatch ∧
      (u.ptile p).faultPc = BitVec.ofNat 18 j.pc)

/-- R97 to R100, R111 (Tables 4.4 to 4.7): a checked vector instruction, with room in the engine's queue, is accepted at its
place in program order. -/
def Obligations.VectorInstructionsAreAccepted : Prop :=
  (∀ (s : State) (l p w : Nat) (q : VecOp),
    AtInstr s l p 0x20 w 32 →
    (vecMapCheck w).toOption = some q →
    (s.ptile p).vecFull = false →
    q.srst = false →
    ∃ u, exec (.vecMap l) s = .next u ∧ u.ptile p = { s.ptile p with
        vecJobs := (s.ptile p).vecJobs ++ [⟨q, (s.ptile p).pc, (s.ptile p).seq, 0, none, some true, none, SumAcc.empty, none, q.smv, s.stepOf (s.ptile p)⟩]
        seq := (s.ptile p).seq + 1, pc := (s.ptile p).pc + 32, patches := [], cpState := .running, wait := none } ∧
      TileOnly s u p) ∧
  (∀ (s : State) (l p w : Nat) (q : VecOp),
    AtInstr s l p 0x22 w 32 →
    (vecSrstCheck w).toOption = some q →
    (s.ptile p).vecFull = false →
    q.srst = true →
    ∃ u, exec (.vecSrst l) s = .next u ∧ (u.ptile p = { s.ptile p with
        vecJobs := (s.ptile p).vecJobs ++ [⟨q, (s.ptile p).pc, (s.ptile p).seq, 0, none, if s.voting (s.ptile p) then none else some true, none, SumAcc.empty, none, q.smv, s.stepOf (s.ptile p)⟩]
        seq := (s.ptile p).seq + 1, pc := (s.ptile p).pc + 32, patches := [], cpState := .running, wait := none }) ∧
      TileOnly s u p) ∧
  (∀ (s : State) (l p w : Nat) (q : VecOp),
    AtInstr s l p 0x21 w 16 →
    (vecSmvCheck w).toOption = some q →
    (s.ptile p).smvEmpty q = false →
    (s.ptile p).vecFull = false →
    q.srst = false →
    ∃ u, exec (.vecSmv l) s = .next u ∧ u.ptile p = { s.ptile p with
        vecJobs := (s.ptile p).vecJobs ++ [⟨q, (s.ptile p).pc, (s.ptile p).seq, 0, none, some true, none, SumAcc.empty, none, q.smv, s.stepOf (s.ptile p)⟩]
        seq := (s.ptile p).seq + 1, pc := (s.ptile p).pc + 16, patches := [], cpState := .running, wait := none } ∧
      TileOnly s u p)

/-- R90 to R96, R99, R102, R106 to R108: a group of a vector instruction computes its live elements and writes them to the
destination; VEC.SMV writes one field of a slot into an accumulator element. R96, R102, R103, R111, R127, R180: the vote reaches a waiting VEC.SRST, a summary reaches its slot, and an instruction
completes and signals. -/
def Obligations.VectorGroupsVotesAndDeposits : Prop :=
  (∀ (s : State) (l p k c : Nat) (j : VecJob) (x : Ctx),
    l < 25600 →
    s.phys l = some p →
    (s.ptile p).ctx = some c →
    s.ctx? c = some x →
    (s.ptile p).spdUe = [] →
    (s.ptile p).accUe = [] →
    (s.ptile p).vecNext = some k →
    (s.ptile p).vecJobs[k]? = some j →
    j.vote.isSome = true →
    (s.ptile p).groupFree j = true →
    j.op.smv = false →
    j.op.grad = true →
    let j1 := if j.op.bloc = .scalar && j.bval.isNone then { j with bval := some ((s.ptile p).accRd j.op.b, (s.ptile p).accUe.contains j.op.b) } else j
    ∃ u, exec (.vecGroupIssue l []) s = .next u ∧ ((u.ptile p).acc = ((s.ptile p).storeGroup j1 (j1.live.map ((s.ptile p).lane j1)) fun i r => srst r x.seed (BitVec.ofNat 32 j1.op.tid) (j1.op.eidx + i) j1.step).1.acc) ∧
      ((u.ptile p).spd = ((s.ptile p).storeGroup j1 (j1.live.map ((s.ptile p).lane j1)) fun i r => srst r x.seed (BitVec.ofNat 32 j1.op.tid) (j1.op.eidx + i) j1.step).1.spd) ∧
      (u.ptile p).vecElems = (s.ptile p).vecElems + BitVec.ofNat 32 j1.live.length ∧
      (u.ptile p).slots = (s.ptile p).slots ∧
      (u.ptile p).pc = (s.ptile p).pc ∧
      (u.ptile p).x = (s.ptile p).x ∧
      (u.ptile p).sems = (s.ptile p).sems ∧
      ((u.ptile p).vecJobs = listSet (s.ptile p).vecJobs k { j1 with
        group := j.group + 1
        sums := if j.op.sumen then (j1.live.map ((s.ptile p).lane j1)).foldl (fun a e => a.add e.i e.r) j.sums else j.sums }) ∧
      u.queues = s.queues ∧
      u.descs = s.descs ∧
      u.mem = s.mem) ∧
  (∀ (s : State) (l p k c : Nat) (j : VecJob) (x : Ctx),
    l < 25600 →
    s.phys l = some p →
    (s.ptile p).ctx = some c →
    s.ctx? c = some x →
    (s.ptile p).spdUe = [] →
    (s.ptile p).accUe = [] →
    (s.ptile p).vecNext = some k →
    (s.ptile p).vecJobs[k]? = some j →
    j.vote.isSome = true →
    (s.ptile p).groupFree j = true →
    j.op.smv = false →
    j.op.grad = false →
    let j1 := if j.op.bloc = .scalar && j.bval.isNone then { j with bval := some ((s.ptile p).accRd j.op.b, (s.ptile p).accUe.contains j.op.b) } else j
    ∃ u, exec (.vecGroupIssue l []) s = .next u ∧ ((u.ptile p).acc = ((s.ptile p).storeGroup j1 (j1.live.map ((s.ptile p).lane j1)) fun i r => srst r x.seed (BitVec.ofNat 32 j1.op.tid) (j1.op.eidx + i) j1.step).1.acc) ∧
      ((u.ptile p).spd = ((s.ptile p).storeGroup j1 (j1.live.map ((s.ptile p).lane j1)) fun i r => srst r x.seed (BitVec.ofNat 32 j1.op.tid) (j1.op.eidx + i) j1.step).1.spd) ∧
      (u.ptile p).vecElems = (s.ptile p).vecElems + BitVec.ofNat 32 j1.live.length ∧
      (u.ptile p).slots = (s.ptile p).slots ∧
      (u.ptile p).pc = (s.ptile p).pc ∧
      (u.ptile p).x = (s.ptile p).x ∧
      (u.ptile p).sems = (s.ptile p).sems ∧
      ((u.ptile p).vecJobs = listSet (s.ptile p).vecJobs k { j1 with
        group := j.group + 1
        sums := if j.op.sumen then (j1.live.map ((s.ptile p).lane j1)).foldl (fun a e => a.add e.i e.r) j.sums else j.sums }) ∧
      u.queues = s.queues ∧
      u.descs = s.descs ∧
      u.mem = s.mem ∧
      TileOnly s u p) ∧
  (∀ (s : State) (l p k : Nat) (j : VecJob),
    l < 25600 →
    s.phys l = some p →
    (s.ptile p).vecNext = some k →
    (s.ptile p).vecJobs[k]? = some j →
    j.vote.isSome = true →
    j.op.smv = true →
    (s.ptile p).groupFree j = true →
    (s.ptile p).depositBefore j.op.slot j.seq = false →
    ∃ u, exec (.vecGroupIssue l []) s = .next u ∧ (u.ptile p).acc = SMap.setD (s.ptile p).acc j.op.dAddr (((s.ptile p).slot j.op.slot).fieldF32 j.op.b) 0 ∧
      (u.ptile p).vecElems = (s.ptile p).vecElems + 1 ∧
      (u.ptile p).vecJobs = listSet (s.ptile p).vecJobs k { j with group := 1 } ∧
      (u.ptile p).slots = (s.ptile p).slots ∧
      (u.ptile p).spd = (s.ptile p).spd ∧
      TileOnly s u p) ∧
  (∀ (s : State) (l p k c : Nat) (j : VecJob) (x : Ctx),
    l < 25600 →
    s.phys l = some p →
    (s.ptile p).ctx = some c →
    s.ctx? c = some x →
    x.voted = true →
    (s.ptile p).vecJobs.findIdx? (fun j => j.vote.isNone) = some k →
    (s.ptile p).vecJobs[k]? = some j →
    ((s.ptile p).vecJobs.take k).all (·.issued) = true →
    (if j.op.count = 0 then decide (k = 0) else (s.ptile p).groupFree j) = true →
    ∃ u, exec (.srstVoteRelease l) s = .next u ∧ u.ptile p = { s.ptile p with vecJobs := listSet (s.ptile p).vecJobs k { j with vote := some (x.lastResult = 1) } } ∧
      TileOnly s u p) ∧
  (∀ (s : State) (l p k : Nat) (j : VecJob),
    l < 25600 →
    s.phys l = some p →
    (s.ptile p).vecJobs.findIdx? (fun j => j.op.sumen && !j.deposited) = some k →
    (s.ptile p).vecJobs[k]? = some j →
    j.issued = true →
    j.vote.isSome = true →
    ∃ u, exec (.summaryDeposit l) s = .next u ∧ u.ptile p = { s.ptile p with
        slots := SMap.set (s.ptile p).slots j.op.slot (j.sums.slot j.lowFault.isSome)
        vecJobs := listSet (s.ptile p).vecJobs k { j with deposited := true } } ∧
      (j.sums.slot j.lowFault.isSome).valid = true ∧
      TileOnly s u p) ∧
  (∀ (s : State) (l p : Nat) (j : VecJob) (js : List VecJob),
    l < 25600 →
    s.phys l = some p →
    (s.ptile p).vecJobs = j :: js →
    j.vote = some true →
    j.issued = true →
    (!j.op.sumen || j.deposited) = true →
    j.lowFault = none →
    ∃ u, exec (.vecComplete l) s = .next u ∧ (u.ptile p = { s.ptile p with
        vecJobs := js, vecInstrs := if j.op.count = 0 then (s.ptile p).vecInstrs else (s.ptile p).vecInstrs + 1 }) ∧
      (u.sigs = (if j.op.sig then s.sigs ++ [⟨l, j.op.sem, 1, none, some j.pc, none, (s.ptile p).ctx.getD 0, none⟩] else s.sigs)) ∧
      TileOnly { s with sigs := u.sigs } u p)

/-- R122: the two instructions that write an index register, their reserved bits zero (R119). -/
def Obligations.IndexRegistersAreSetAndAdded : Prop :=
  (∀ (s : State) (l p w : Nat),
    AtInstr s l p 0x04 w 16 →
    onlyFields w [(0, 8), (8, 3), (32, 32)] = true →
    ∃ u, exec (.ctlXset l) s = .next u ∧ u.ptile p = { s.ptile p with x := SMap.setD (s.ptile p).x (nbits w 8 3) (BitVec.ofNat 32 (nbits w 32 32)) 0, pc := (s.ptile p).pc + 16, patches := [], cpState := .running, wait := none } ∧
      TileOnly s u p) ∧
  (∀ (s : State) (l p w : Nat),
    AtInstr s l p 0x05 w 16 →
    onlyFields w [(0, 8), (8, 3), (11, 3), (14, 1), (32, 32)] = true →
    (nbit w 14 = true → nbits w 32 32 = 0) →
    (nbit w 14 = false → nbits w 11 3 = 0) →
    ∃ u, exec (.ctlXadd l) s = .next u ∧ (u.ptile p = { s.ptile p with x := SMap.setD (s.ptile p).x (nbits w 8 3) ((s.ptile p).xr (nbits w 8 3) + if nbit w 14 then (s.ptile p).xr (nbits w 11 3) else BitVec.ofNat 32 (nbits w 32 32)) 0, pc := (s.ptile p).pc + 16, patches := [], cpState := .running, wait := none }) ∧
      TileOnly s u p)

/-- R123: the counted loop, its reserved bits zero (R119). -/
def Obligations.LoopsCountDown : Prop :=
  (∀ (s : State) (l p w : Nat),
    AtInstr s l p 0x06 w 16 →
    onlyFields w [(0, 8), (8, 18), (26, 3)] = true →
    nbits w 8 18 % 16 = 0 →
    (s.ptile p).xr (nbits w 26 3) = 0 →
    ∃ u, exec (.ctlLoop l) s = .next u ∧ u.ptile p = { s.ptile p with pc := (s.ptile p).pc + 16, patches := [], cpState := .running, wait := none } ∧
      TileOnly s u p) ∧
  (∀ (s : State) (l p w : Nat),
    AtInstr s l p 0x06 w 16 →
    onlyFields w [(0, 8), (8, 18), (26, 3)] = true →
    nbits w 8 18 % 16 = 0 →
    (s.ptile p).xr (nbits w 26 3) ≠ 0 →
    ∃ u, exec (.ctlLoop l) s = .next u ∧ (u.ptile p = { s.ptile p with x := SMap.setD (s.ptile p).x (nbits w 26 3) ((s.ptile p).xr (nbits w 26 3) - 1) 0, pc := if (s.ptile p).xr (nbits w 26 3) = 1 then (s.ptile p).pc + 16 else nbits w 8 18, patches := [], cpState := .running, wait := none }) ∧
      TileOnly s u p)

/-- R104, R116, R118 to R121: CTL.NOP and the branches of the control core. -/
def Obligations.BranchesOfTheControlCore : Prop :=
  (∀ (s : State) (l p w : Nat),
    AtInstr s l p 0x00 w 16 →
    ctlBareOk w = true →
    ∃ u, exec (.ctlNop l) s = .next u ∧ u.ptile p = { s.ptile p with pc := (s.ptile p).pc + 16, patches := [], cpState := .running, wait := none } ∧
      TileOnly s u p) ∧
  (∀ (s : State) (l p w : Nat),
    AtInstr s l p 0x02 w 16 →
    onlyFields w [(0, 8), (8, 18), (26, 3), (29, 3), (32, 32)] = true →
    nbits w 29 3 ≠ 7 →
    (nbits w 29 3 = 0 → nbits w 26 3 = 0 ∧ nbits w 32 32 = 0) →
    nbits w 8 18 % 16 = 0 →
    ∃ u, exec (.ctlBr l) s = .next u ∧ (u.ptile p = { s.ptile p with pc := if brCmp (nbits w 29 3) ((s.ptile p).xr (nbits w 26 3)) (BitVec.ofNat 32 (nbits w 32 32)) then nbits w 8 18 else (s.ptile p).pc + 16, patches := [], cpState := .running, wait := none }) ∧
      TileOnly s u p) ∧
  (∀ (s : State) (l p w : Nat),
    AtInstr s l p 0x03 w 16 →
    onlyFields w [(0, 8), (8, 18), (26, 3), (29, 3), (32, 3), (64, 32)] = true →
    nbits w 29 3 ≠ 7 →
    nbits w 32 3 < 6 →
    nbits w 8 18 % 16 = 0 →
    (s.ptile p).depositDue (nbits w 26 3) = false →
    ((s.ptile p).slot (nbits w 26 3)).valid = true →
    ((s.ptile p).slot (nbits w 26 3)).fault = false →
    ∃ u, exec (.ctlSbr l) s = .next u ∧ (u.ptile p = { s.ptile p with pc := if (if nbits w 29 3 ≤ 3 then sbrF32 (nbits w 32 3) (((s.ptile p).slot (nbits w 26 3)).field (nbits w 29 3)) (BitVec.ofNat 32 (nbits w 64 32)) else sbrInt (nbits w 32 3) (((s.ptile p).slot (nbits w 26 3)).field (nbits w 29 3)) (BitVec.ofNat 32 (nbits w 64 32))) then nbits w 8 18 else (s.ptile p).pc + 16, patches := [], cpState := .running, wait := none }) ∧
      TileOnly s u p) ∧
  (∀ (s : State) (l p w : Nat),
    AtInstr s l p 0x03 w 16 →
    onlyFields w [(0, 8), (8, 18), (26, 3), (29, 3), (32, 3), (35, 1), (36, 3), (39, 3)] = true →
    nbit w 35 = true →
    nbits w 29 3 ≠ 7 →
    nbits w 39 3 ≠ 7 →
    nbits w 32 3 < 6 →
    nbits w 8 18 % 16 = 0 →
    (s.ptile p).depositDue (nbits w 26 3) = false →
    (s.ptile p).depositDue (nbits w 36 3) = false →
    ((s.ptile p).slot (nbits w 26 3)).valid = true →
    ((s.ptile p).slot (nbits w 36 3)).valid = true →
    ((s.ptile p).slot (nbits w 26 3)).fault = false →
    ((s.ptile p).slot (nbits w 36 3)).fault = false →
    ∃ u, exec (.ctlSbr l) s = .next u ∧ (u.ptile p = { s.ptile p with pc := if (if nbits w 29 3 ≤ 3 ∨ nbits w 39 3 ≤ 3 then sbrF32 (nbits w 32 3) (((s.ptile p).slot (nbits w 26 3)).fieldF32 (nbits w 29 3)) (((s.ptile p).slot (nbits w 36 3)).fieldF32 (nbits w 39 3)) else sbrInt (nbits w 32 3) (((s.ptile p).slot (nbits w 26 3)).field (nbits w 29 3)) (((s.ptile p).slot (nbits w 36 3)).field (nbits w 39 3))) then nbits w 8 18 else (s.ptile p).pc + 16, patches := [], cpState := .running, wait := none }) ∧
      TileOnly s u p)

/-- R124: CTL.PFX with no slot, and with any slots that fit the following instruction. R58, R128: CTL.TIME; where in its range the value lies is
open, and the statement holds for every choice. R126, R129, R130: the waits of the control core, and the end of a tile's part of its LAUNCH. -/
def Obligations.ControlCorePatchesTimeAndWaits : Prop :=
  (∀ (s : State) (l p w : Nat),
    AtInstr s l p 0x07 w 16 →
    onlyFields w [(0, 8), (8, 17), (25, 17), (42, 17)] = true →
    nbits w 8 17 = 0 →
    nbits w 25 17 = 0 →
    nbits w 42 17 = 0 →
    ∃ u, exec (.ctlPfx l) s = .next u ∧ u.ptile p = { s.ptile p with pc := (s.ptile p).pc + 16, patches := [], cpState := .running, wait := none } ∧
      TileOnly s u p) ∧
  (∀ (s : State) (l p w o n x : Nat),
    AtInstr s l p 0x07 w 16 →
    onlyFields w [(0, 8), (8, 17), (25, 17), (42, 17)] = true →
    (∀ b ∈ [8, 25, 42], nbit w b = true ∨ nbits w b 17 = 0) →
    (∃ b ∈ [8, 25, 42], nbit w b = true) →
    o = ((s.ptile p).spd.rd ((s.ptile p).pc + 16)).toNat →
    o ≠ 7 →
    n = (opcWords o).getD 1 →
    (s.ptile p).pc + 32 ≤ spdSize →
    x = (s.ptile p).rdLe ((s.ptile p).pc + 16) (16 * n) →
    (∀ e ∈ pfxSlots w, e.2.1 ≠ 0 ∧ 8 ≤ e.1 ∧ e.1 + e.2.1 ≤ 128 * n ∧ nbits x e.1 e.2.1 + ((s.ptile p).xr e.2.2).toNat < 2 ^ e.2.1) →
    pfxOverlap (pfxSlots w) = false →
    ∃ u, exec (.ctlPfx l) s = .next u ∧ (u.ptile p = { s.ptile p with
        pc := (s.ptile p).pc + 16, patches := (pfxSlots w).map (fun e => ⟨e.1, e.2.1, (s.ptile p).xr e.2.2⟩)
        cpState := .running, wait := none }) ∧
      TileOnly s u p) ∧
  (∀ (s : State) (l p w : Nat),
    AtInstr s l p 0x0B w 16 →
    (timeCheck w).toOption = some (nbits w 8 3) →
    s.now + 8 < 2 ^ 64 →
    ∃ u, exec (.ctlTime l) s = .next u ∧ (let v := ((u.ptile p).xr (nbits w 8 3)).toNat + ((u.ptile p).xr (nbits w 8 3 + 1)).toNat * 2 ^ 32
      (SMap.getD s.time.lastRead l 0).toNat ≤ v ∧
        (v = (SMap.getD s.time.lastRead l 0).toNat ∨ (v ≤ s.now + 8 ∧ s.now ≤ v + 8))) ∧
      (u.ptile p).pc = (s.ptile p).pc + 16 ∧
      (u.ptile p).wait = none ∧
      (u.ptile p).patches = [] ∧
      (u.ptile p).sems = (s.ptile p).sems ∧
      (u.ptile p).spd = (s.ptile p).spd ∧
      u.time.now = s.time.now ∧
      u.queues = s.queues ∧
      u.ctxs = s.ctxs ∧
      u.descs = s.descs ∧
      u.mem = s.mem) ∧
  (∀ (s : State) (l p w : Nat),
    AtInstr s l p 0x01 w 16 →
    ctlBareOk w = true →
    ∃ u, exec (.ctlEnd l) s = .next u ∧ u.ptile p = { s.ptile p with cpState := .waiting, wait := some .fin } ∧
      TileOnly s u p) ∧
  (∀ (s : State) (l p w : Nat),
    AtInstr s l p 0x09 w 16 →
    onlyFields w [(0, 8), (8, 7), (16, 16)] = true →
    nbits w 16 16 ≤ ((s.ptile p).sem (nbits w 8 7)).toNat →
    ∃ u, exec (.ctlSemwait l) s = .next u ∧ u.ptile p = { s.ptile p with sems := SMap.setD (s.ptile p).sems (nbits w 8 7) ((s.ptile p).sem (nbits w 8 7) - BitVec.ofNat 16 (nbits w 16 16)) 0, pc := (s.ptile p).pc + 16, patches := [], cpState := .running, wait := none } ∧
      TileOnly s u p) ∧
  (∀ (s : State) (l p w : Nat),
    AtInstr s l p 0x09 w 16 →
    onlyFields w [(0, 8), (8, 7), (16, 16)] = true →
    ((s.ptile p).sem (nbits w 8 7)).toNat < nbits w 16 16 →
    ∃ u, exec (.ctlSemwait l) s = .next u ∧ u.ptile p = { s.ptile p with cpState := .waiting, wait := some (.sem (nbits w 8 7) (nbits w 16 16)) } ∧
      TileOnly s u p) ∧
  (∀ (s : State) (l p w : Nat),
    AtInstr s l p 0x0A w 16 →
    ctlBareOk w = true →
    s.inStep ((s.ptile p).ctx.getD 0) l = true →
    ∃ u, exec (.ctlStep l) s = .next u ∧ u.ptile p = { s.ptile p with cpState := .waiting, wait := some .step } ∧
      TileOnly s u p) ∧
  (∀ (s : State) (l p id e g n c : Nat) (args : List W32) (left : List Nat) (d : Desc),
    l < 25600 →
    s.phys l = some p →
    (s.ptile p).cpState = .waiting →
    (s.ptile p).wait = some .fin →
    (s.ptile p).unitsIdle = true →
    s.execCount l = 0 →
    (s.ptile p).launch = some id →
    (s.ptile p).ctx = some c →
    s.desc? id = some d →
    d.body = .launch e g args left n →
    ∃ u, exec (.ctlEndDrained l) s = .next u ∧ u.ptile p = { s.ptile p with cpState := .idle, wait := none, patches := [], launch := none } ∧
      (u.desc? id = some { d with
        body := .launch e g args (left.filter (· ≠ l)) (n + 1), detail := BitVec.ofNat 32 (n + 1)
        st := if (left.filter (· ≠ l)).isEmpty then .finished else d.st }) ∧
      u.queues = s.queues ∧
      u.ctxs = s.ctxs ∧
      u.mem = s.mem)

/-- R117, R119, R138: an opcode outside Table 5.1 is rejected with RSVD_SET, and the tile program faults. R10, R140, R141: a reserved class or operation. -/
def Obligations.ReservedEncodingsAreRejected : Prop :=
  (∀ (s : State) (l p o w : Nat),
    AtInstr s l p o w 16 →
    opcWords o = none →
    ∃ u, exec (.reservedOpcode l) s = .next u ∧ (u.ptile p).cpState = .faulted ∧
      (u.ptile p).cpLastErr = .rsvdSet ∧
      (u.ptile p).faultPc = BitVec.ofNat 18 (s.ptile p).pc ∧
      (u.ptile p).x = (s.ptile p).x ∧
      (u.ptile p).sems = (s.ptile p).sems ∧
      (u.ptile p).spd = (s.ptile p).spd ∧
      (u.ptile p).acc = (s.ptile p).acc) ∧
  (∀ (s v : State) (q : Nat) (host : Fetched) (bs : List Byte) (st : Status),
    EntryIn s q host v bs →
    s.rqMay q = true →
    s.stageQueue q = false →
    (knownOp (descCls bs) (descOp bs) = false ∨ descCls bs = 4) →
    v.checkDesc (v.accepts q) (v.queue q).ctx bs = some st →
    ∃ u, exec (.reservedDescriptorClass q host) s = .next u ∧ (u.queue q).fetch = (s.queue q).fetch + 1 ∧
      (u.queue q).lastErr = st ∧
      (u.queue q).err = true ∧
      (descVer bs = 1 → knownOp (descCls bs) (descOp bs) = false → st = .rsvdSet) ∧
      u.descs = s.descs ∧
      u.nextDesc = s.nextDesc ∧
      u.tiles = s.tiles ∧
      u.mem.objs = s.mem.objs)

/-- R125 to R127: signals and semaphores. -/
def Obligations.SignalsReachTheirSemaphore : Prop :=
  (∀ (s : State) (l p w n tl sem : Nat) (rem : Bool),
    AtInstr s l p 0x08 w 16 →
    (semsigCheck w).toOption = some (n, tl, rem, sem) →
    (rem = true → s.tileGiven ((s.ptile p).ctx.getD 0) tl = true) →
    ∃ u, exec (.ctlSemsig l) s = .next u ∧ u.ptile p = { s.ptile p with pc := (s.ptile p).pc + 16, patches := [], cpState := .running, wait := none } ∧
      (u.sigs = (if n = 0 then s.sigs else s.sigs ++ [⟨if rem then tl else l, sem, n, some (l, (s.ptile p).pc), none, some l, (s.ptile p).ctx.getD 0, none⟩])) ∧
      TileOnly { s with sigs := u.sigs } u p) ∧
  (∀ (s : State) (i p : Nat) (g : Signal),
    s.sigs[i]? = some g →
    s.phys g.tile = some p →
    (s.ptile p).ctx = some g.ctx →
    s.isExitSem g.ctx g.tile g.sem = false →
    ((s.ptile p).sem g.sem).toNat + g.count ≤ 65535 →
    (match (s.ptile p).wait with
      | some (.sem k n) => decide (k = g.sem) && decide (n ≤ ((s.ptile p).sem g.sem).toNat + g.count) && s.mayIssue g.tile (s.ptile p)
      | _ => false) = false →
    ∃ u, exec (.semSignalDeliver i) s = .next u ∧ u.sigs = s.sigs.eraseIdx i ∧
      u.ptile p = { s.ptile p with sems := SMap.setD (s.ptile p).sems g.sem (BitVec.ofNat 16 (((s.ptile p).sem g.sem).toNat + g.count)) 0 } ∧
      u.queues = s.queues ∧
      u.ctxs = s.ctxs ∧
      u.descs = s.descs ∧
      u.mem = s.mem) ∧
  (∀ (s : State) (i p n : Nat) (g : Signal),
    s.sigs[i]? = some g →
    s.phys g.tile = some p →
    (s.ptile p).ctx = some g.ctx →
    s.isExitSem g.ctx g.tile g.sem = false →
    ((s.ptile p).sem g.sem).toNat + g.count ≤ 65535 →
    (s.ptile p).wait = some (.sem g.sem n) →
    n ≤ ((s.ptile p).sem g.sem).toNat + g.count →
    s.mayIssue g.tile (s.ptile p) = true →
    ∃ u, exec (.semSignalDeliver i) s = .next u ∧ u.sigs = s.sigs.eraseIdx i ∧
      (u.ptile p).sem g.sem = BitVec.ofNat 16 (((s.ptile p).sem g.sem).toNat + g.count - n) ∧
      (u.ptile p).pc = (s.ptile p).pc + 16 ∧
      (u.ptile p).cpState = .running ∧
      (u.ptile p).wait = none ∧
      (u.ptile p).x = (s.ptile p).x ∧
      u.queues = s.queues ∧
      u.ctxs = s.ctxs ∧
      u.mem = s.mem)

/-- R130, R153, R177: a step completes. -/
def Obligations.StepCompletionMovesTheStepOn : Prop :=
  ∀ (s : State) (c : Nat) (x : Ctx),
    c < 1024 →
    s.ctx? c = some x →
    x.flt = .run →
    s.stepless c = false →
    ((s.stepTiles c).all fun l => (s.tile l).ctx = some c && (s.tile l).wait = some .step && (s.tile l).unitsIdle && s.execCount l = 0) = true →
    ∃ u, exec (.stepComplete c) s = .next u ∧ (u.ctx? c).map (·.step) = some (x.step + 1) ∧
      (u.ctx? c).map (·.stepAt) = some s.now ∧
      (u.ctx? c).map (·.ovf) = some false ∧
      (u.ctx? c).map (·.psn) = some false ∧
      (u.ctx? c).map (·.voted) = some false ∧
      (∀ l ∈ s.stepTiles c, s.stepTiles c = [l] → s.stepHolds x.part = false → (u.tile l).pc = (s.tile l).pc + 16 ∧ (u.tile l).wait = none)

/-- R134 to R136, R259, R263: queue entries of tile programs. R133, R136: TNG.EXEC. -/
def Obligations.TilesReachQueuesAndTongs : Prop :=
  (∀ (s v : State) (l p w q : Nat) (host : Fetched) (bs : List Byte),
    AtInstr s l p 0x0C w 16 →
    entryBytesOk host = true →
    (qpopCheck w).toOption = some q →
    (s.queue q).bound = true →
    (s.queue q).tileKind = true →
    (s.queue q).tile = l →
    (s.ptile p).ctx = some (s.queue q).ctx →
    (s.queue q).enable = true →
    (s.queue q).fetch ≠ (s.queue q).tail →
    s.readEntry q host = (v, .got bs) →
    ((s.queue q).tileProd = true ∨ v.checkDesc (fun cls _ => cls = 4) (s.queue q).ctx bs = none) →
    v.ordWaits q bs = false →
    ∃ u, exec (.ctlQpop l host) s = .next u ∧ (u.queue q) = { v.queue q with fetch := (s.queue q).fetch + 1 } ∧
      ((List.range 8).map (u.ptile p).xr = (List.range 8).map (fun i => BitVec.ofNat 32 (dn bs (0x14 + 4 * i) 4))) ∧
      (u.ptile p).pc = (s.ptile p).pc + 16 ∧
      (u.ptile p).sems = (s.ptile p).sems ∧
      (u.ptile p).spd = (s.ptile p).spd ∧
      u.nextDesc = s.nextDesc + 1) ∧
  (∀ (s : State) (l p w q : Nat),
    AtInstr s l p 0x31 w 16 →
    (pushCheck w).toOption = some (q, none) →
    s.execCount l < 8 →
    s.pushRefused q ((s.ptile p).ctx.getD 0) = none →
    (s.queue q).full = false →
    localRange ((s.queue q).entryAddr (s.queue q).tail) = .t3 →
    s.t3Denied = false →
    s.hif.linkUp = true →
    ∃ u, exec (.tngPush l) s = .next u ∧ u.queue q = { s.queue q with tail := (s.queue q).tail + 1 } ∧
      u.out = s.out ++ [.t3Write (t3Addr ((s.queue q).entryAddr (s.queue q).tail)) (pushBytes ((s.ptile p).ctx.getD 0) ((List.range 8).map (s.ptile p).xr)) false] ∧
      (u.ptile p).pc = (s.ptile p).pc + 16 ∧
      (u.ptile p).x = (s.ptile p).x) ∧
  (∀ (s v : State) (l p w q : Nat),
    AtInstr s l p 0x31 w 16 →
    (pushCheck w).toOption.map (fun a => (a.1, a.2.filter fun d => d ≠ s.selfDev)) = some (q, none) →
    s.execCount l < 8 →
    s.pushRefused q ((s.ptile p).ctx.getD 0) = none →
    (s.queue q).full = false →
    s.appendEntry (s.tileCls l) q (pushBytes ((s.ptile p).ctx.getD 0) ((List.range 8).map (s.ptile p).xr)) = (v, .done) →
    exec (.tngPush l) s = .next ((v.supplied ((s.ptile p).ctx.getD 0, .queue q) l).onTile l fun t => (t.advance 16, []))) ∧
  (∀ (s v : State) (l p w q d n : Nat) (w8 w9 : W32) (f : Fab),
    AtInstr s l p 0x31 w 16 →
    (pushCheck w).toOption = some (q, some d) →
    d ≠ s.selfDev →
    s.execCount l < 8 →
    s.fab.isFenced ((s.ptile p).ctx.getD 0) d = false →
    s.pushWords ((s.ptile p).ctx.getD 0) l = some (w8, w9, f) →
    s.request (s.tileCls l) (.push l (s.ptile p).pc) d ((s.ptile p).ctx.getD 0) 3 q 0 ((List.range 8).map (s.ptile p).xr ++ [w8, w9]) s.now = (v, some n) →
    exec (.tngPush l) s = .next (({ v with fab := { v.fab with pushOrd := f.pushOrd, pushSerial := f.pushSerial } } : State).onTile l fun t => (t.advance 16, []))) ∧
  (∀ (s : State) (l p w q d c : Nat),
    AtInstr s l p 0x31 w 16 →
    (pushCheck w).toOption = some (q, some d) →
    d ≠ s.selfDev →
    (s.ptile p).ctx = some c →
    s.execCount l < 8 →
    s.fab.isFenced c d = false →
    s.stepless c = true →
    s.fab.txns.length < 4096 →
    ∃ u, exec (.tngPush l) s = .next u ∧ u.fab.seq = s.fab.seq + 1 ∧
      SMap.get? u.fab.txns s.fab.seq.toNat = some ⟨d, c, (SMap.get? u.fab.txns s.fab.seq.toNat).elim 0 (·.port), .push l (s.ptile p).pc, s.now⟩ ∧
      (u.ptile p).pc = (s.ptile p).pc + 16 ∧
      (u.ptile p).x = (s.ptile p).x ∧
      u.queues = s.queues) ∧
  (∀ (s v : State) (l p w d : Nat) (sx dx : Option Nat) (raw bs : List Byte) (hw : List StoreErr),
    AtInstr s l p 0x30 w 16 →
    (execCheck w).toOption = some (d, sx, dx) →
    s.execCount l < 8 →
    s.spdRead l d 64 hw = (v, .got raw []) →
    (patchDesc raw (sx.map fun r => ((s.ptile p).xr r).toNat) (dx.map fun r => ((s.ptile p).xr r).toNat)).toOption = some bs →
    v.checkDesc execAccepts ((s.ptile p).ctx.getD 0) bs = none →
    (descCls bs = 5 → v.checkColl bs = none) →
    exec (.tngExec l hw) s = .next ((v.onTile l fun t => (t.advance 16, [])).startExec l (s.ptile p).pc (v.engineOf l) bs)) ∧
  (∀ (s : State) (l p w d c : Nat) (bs : List Byte),
    AtInstr s l p 0x30 w 16 →
    (execCheck w).toOption = some (d, none, none) →
    (s.ptile p).ctx = some c →
    s.execCount l < 8 →
    (s.ptile p).spdUe = [] →
    (s.ptile p).wait = none →
    (s.ptile p).spd.rdN d 64 = bs →
    descCls bs = 2 →
    s.checkDesc execAccepts c bs = none →
    (MoveBody.ofBytes (descOp bs) (bs.drop 0x14)).noop = false →
    ∃ u, exec (.tngExec l []) s = .next u ∧ u.nextDesc = s.nextDesc + 1 ∧
      u.descs = SMap.set s.descs s.nextDesc ⟨.exec l (s.ptile p).pc, DescHdr.ofBytes bs,
        .move (MoveBody.ofBytes (descOp bs) (bs.drop 0x14)) ⟨logDie l, s.engineOf l, 0, 0, 0, [], 0, false, 0, false⟩,
        .running, .ok, 0, false, none, false, none, none, none⟩ ∧
      (u.ptile p).pc = (s.ptile p).pc + 16 ∧
      (u.ptile p).x = (s.ptile p).x ∧
      (u.ptile p).spd = (s.ptile p).spd ∧
      u.queues = s.queues ∧
      u.sigs = s.sigs)

/-- R151, R156, R451: a doorbell write that Table 5.13 accepts. R156, R451, R453: while AGREED is 0 every doorbell write records VERSION and has no effect on the queue's indexes. -/
def Obligations.DoorbellsAreTakenOrRefused : Prop :=
  (∀ (s : State) (q : Nat) (tail : W32) (tee : Bool),
    q < 262144 →
    s.barShut tee = false →
    RegItem.queue.hostWrite s.sec.st = true →
    (s.queue q).bound = true →
    s.loadCtx (s.queue q).ctx = false →
    s.hif.agreed ≠ 0 →
    (s.queue q).enable = true →
    (s.queue q).tileProd = false →
    ((s.queue q).tail - (s.queue q).head).toNat < (tail - (s.queue q).head).toNat →
    (tail - (s.queue q).head).toNat ≤ 2 ^ (s.queue q).rsz →
    exec (.doorbellWrite q tail tee) s = .next ({ s with queues := SMap.setD s.queues q { s.queue q with tail := tail } Queue.reset })) ∧
  (∀ (s : State) (q : Nat) (tail : W32) (tee : Bool),
    q < 262144 →
    s.barShut tee = false →
    RegItem.queue.hostWrite s.sec.st = true →
    (s.queue q).bound = true →
    s.loadCtx (s.queue q).ctx = false →
    s.hif.agreed ≠ 0 →
    (s.queue q).enable = true →
    (s.queue q).tileProd = false →
    tail - (s.queue q).head = (s.queue q).tail - (s.queue q).head →
    exec (.doorbellWrite q tail tee) s = .next (s)) ∧
  (∀ (s : State) (q : Nat) (tail : W32) (tee : Bool) (st : Status),
    q < 262144 →
    s.barShut tee = false →
    RegItem.queue.hostWrite s.sec.st = true →
    ((s.queue q).bound && s.loadCtx (s.queue q).ctx || decide (s.hif.agreed = 0) || !(s.queue q).bound || !(s.queue q).enable || (s.queue q).tileProd || decide ((tail - (s.queue q).head).toNat < ((s.queue q).tail - (s.queue q).head).toNat) || decide (2 ^ (s.queue q).rsz < (tail - (s.queue q).head).toNat) && decide (((s.queue q).tail - (s.queue q).head).toNat < (tail - (s.queue q).head).toNat)) = true →
    st = (if (s.queue q).bound && s.loadCtx (s.queue q).ctx then .busy else if s.hif.agreed = 0 then .version else if !(s.queue q).bound || !(s.queue q).enable || (s.queue q).tileProd then .denied else .range) →
    ∃ u, exec (.doorbellWrite q tail tee) s = .next u ∧ u.queue q = { s.queue q with lastErr := st, err := true } ∧
      u.hif.errLast = st ∧
      u.hif.err = true ∧
      u.hif.errCount = satInc s.hif.errCount ∧
      u.hif.errNext = (s.hif.errNext + 1) % 16 ∧
      SMap.get? u.hif.errLog s.hif.errNext = some ⟨64 * q, 1, true, st⟩ ∧
      u.tiles = s.tiles ∧
      u.mem = s.mem ∧
      u.descs = s.descs)

/-- R153, R156, R157, R263: Q_CTL. -/
def Obligations.QueuesAreEnabledAndDisabled : Prop :=
  (∀ (s : State) (q : Nat) (irqen tee : Bool),
    q < 262144 →
    s.barShut tee = false →
    RegItem.queue.hostWrite s.sec.st = true →
    (s.queue q).bound = true →
    s.loadCtx (s.queue q).ctx = false →
    (s.queue q).tileProd = false →
    (s.queue q).ringOk = true →
    (s.queue q).enable = false →
    ∃ u, exec (.qEnable q irqen tee) s = .next u ∧ u.queue q = { s.queue q with
        irqen := irqen, enable := true, head := (s.queue q).tail, fetch := (s.queue q).tail, done := (s.queue q).tail, fin := [], wait := none } ∧
      (u.fab.pushRecs = s.fab.pushRecs.filter fun r => r.queue ≠ q) ∧
      u.tiles = s.tiles ∧
      u.mem = (s.dropWait? (s.queue q).wait).mem ∧
      u.descs = s.descs) ∧
  (∀ (s : State) (q : Nat) (irqen tee : Bool),
    q < 262144 →
    s.barShut tee = false →
    RegItem.queue.hostWrite s.sec.st = true →
    (s.queue q).bound = true →
    s.loadCtx (s.queue q).ctx = false →
    (s.queue q).tileProd = false →
    (s.queue q).ringOk = true →
    (s.queue q).enable = true →
    ∃ u, exec (.qEnable q irqen tee) s = .next u ∧ u.queue q = { s.queue q with irqen := irqen } ∧
      u.tiles = s.tiles ∧
      u.mem = s.mem ∧
      u.descs = s.descs ∧
      (u.hif = s.hif)) ∧
  (∀ (s : State) (q : Nat) (irqen tee : Bool),
    q < 262144 →
    s.barShut tee = false →
    RegItem.queue.hostWrite s.sec.st = true →
    (s.queue q).bound = true →
    s.loadCtx (s.queue q).ctx = false →
    (s.queue q).tileProd = false →
    ∃ u, exec (.qDisable q irqen tee) s = .next u ∧ u.queue q = { s.queue q with irqen := irqen, enable := false } ∧
      u.tiles = s.tiles ∧
      u.mem = s.mem ∧
      u.descs = s.descs ∧
      (u.hif = s.hif))

/-- R142, R144 to R147, R152, R158 (Tables 5.6, 5.7, 5.9): the start of NOP and MOVE entries. -/
def Obligations.MoveEntriesAreStarted : Prop :=
  (∀ (s v : State) (q : Nat) (host : Fetched) (bs : List Byte),
    AtEntry s q host v bs 0 0 →
    exec (.descNop q host) s = .next (v.started q bs .none .finished 0)) ∧
  (∀ (s v : State) (q : Nat) (host : Fetched) (bs : List Byte),
    AtEntry s q host v bs 2 1 →
    exec (.moveCopy q host) s = .next (if (MoveBody.ofBytes 1 (bs.drop 0x14)).noop then v.started q bs .none .finished 0
      else v.started q bs (.move (MoveBody.ofBytes 1 (bs.drop 0x14)) ⟨(v.queue q).die, (v.taken q).pickEngine (v.queue q).die (MoveBody.ofBytes 1 (bs.drop 0x14)).ssp (MoveBody.ofBytes 1 (bs.drop 0x14)).src (MoveBody.ofBytes 1 (bs.drop 0x14)).dsp (MoveBody.ofBytes 1 (bs.drop 0x14)).dst, 0, 0, 0, [], 0, false, 0, false⟩) .running 0)) ∧
  (∀ (s v : State) (q : Nat) (host : Fetched) (bs : List Byte),
    AtEntry s q host v bs 2 2 →
    exec (.moveFill q host) s = .next (if (MoveBody.ofBytes 2 (bs.drop 0x14)).noop then v.started q bs .none .finished 0
      else v.started q bs (.move (MoveBody.ofBytes 2 (bs.drop 0x14)) ⟨(v.queue q).die, (v.taken q).pickEngine (v.queue q).die (MoveBody.ofBytes 2 (bs.drop 0x14)).ssp (MoveBody.ofBytes 2 (bs.drop 0x14)).src (MoveBody.ofBytes 2 (bs.drop 0x14)).dsp (MoveBody.ofBytes 2 (bs.drop 0x14)).dst, 0, 0, 0, [], 0, false, 0, false⟩) .running 0)) ∧
  (∀ (s v : State) (q : Nat) (host : Fetched) (bs : List Byte),
    AtEntry s q host v bs 2 3 →
    exec (.moveSkew16 q host) s = .next (if (MoveBody.ofBytes 3 (bs.drop 0x14)).noop then v.started q bs .none .finished 0
      else v.started q bs (.move (MoveBody.ofBytes 3 (bs.drop 0x14)) ⟨(v.queue q).die, (v.taken q).pickEngine (v.queue q).die (MoveBody.ofBytes 3 (bs.drop 0x14)).ssp (MoveBody.ofBytes 3 (bs.drop 0x14)).src (MoveBody.ofBytes 3 (bs.drop 0x14)).dsp (MoveBody.ofBytes 3 (bs.drop 0x14)).dst, 0, 0, 0, [], 0, false, 0, false⟩) .running 0)) ∧
  (∀ (s v : State) (q : Nat) (host : Fetched) (bs : List Byte),
    AtEntry s q host v bs 2 4 →
    exec (.moveAccstore q host) s = .next (if (MoveBody.ofBytes 4 (bs.drop 0x14)).noop then v.started q bs .none .finished 0
      else v.started q bs (.move (MoveBody.ofBytes 4 (bs.drop 0x14)) ⟨(v.queue q).die, (v.taken q).pickEngine (v.queue q).die (MoveBody.ofBytes 4 (bs.drop 0x14)).ssp (MoveBody.ofBytes 4 (bs.drop 0x14)).src (MoveBody.ofBytes 4 (bs.drop 0x14)).dsp (MoveBody.ofBytes 4 (bs.drop 0x14)).dst, 0, 0, 0, [], 0, false, 0, false⟩) .running 0))

/-- R132, R142, R143, R147, R152: the start of LAUNCH and SYNC entries. -/
def Obligations.SyncAndLaunchEntriesAreStarted : Prop :=
  (∀ (s v : State) (q : Nat) (host : Fetched) (bs : List Byte),
    AtEntry s q host v bs 1 1 →
    exec (.descLaunch q host) s = .next (v.started q bs (.launch (nbits (dn bs 0x14 4) 0 18) (dn bs 0x18 2) ((List.range 8).map fun i => BitVec.ofNat 32 (dn bs (0x1C + 4 * i) 4)) (v.lgrpTiles (dn bs 0x18 2)) 0)
      (if (v.lgrpTiles (dn bs 0x18 2)).isEmpty then .finished else .waiting) 0)) ∧
  (∀ (s v : State) (q : Nat) (host : Fetched) (bs : List Byte),
    AtEntry s q host v bs 3 1 →
    exec (.syncSignal q host) s = .next (v.started q bs .none .finished 0)) ∧
  (∀ (s v : State) (q : Nat) (host : Fetched) (bs : List Byte),
    AtEntry s q host v bs 3 2 →
    exec (.syncAtTime q host) s = .next (if v.now ≥ dn bs 0x14 8 then v.started q bs .none .finished 0 else v.started q bs (.atTime (dn bs 0x14 8)) .running 0)) ∧
  (∀ (s v : State) (q : Nat) (host : Fetched) (bs : List Byte),
    AtEntry s q host v bs 3 3 →
    v.stepRuns (v.queue q).ctx = false →
    exec (.syncStepset q host) s = .next ({ v.started q bs .none .finished 0 with
      ctxs := SMap.adj v.ctxs (v.queue q).ctx fun x => { x with step := BitVec.ofNat 32 (dn bs 0x14 4), stepAt := v.now } })) ∧
  (∀ (s v : State) (q : Nat) (host : Fetched) (bs : List Byte),
    AtEntry s q host v bs 3 3 →
    v.stepRuns (v.queue q).ctx = true →
    ∃ u, exec (.syncStepset q host) s = .next u ∧ u = { v.taken q with nextDesc := u.nextDesc, descs := u.descs } ∧
      u.desc? v.nextDesc = some ⟨.queue q (v.queue q).fetch, DescHdr.ofBytes bs, .none, .finished, .busy, 0, false, none, false, none, none, none⟩)

/-- R205, R206, R210, R211 (Tables 7.6, 7.7): PLACE, RELEASE, UNPIN and BACKING. R206, R209, R213, R217 (Table 7.6): PIN, PREFETCH, DEMOTE and QUERY. -/
def Obligations.MemctlEntriesAreStarted : Prop :=
  (∀ (s v : State) (q : Nat) (host : Fetched) (bs : List Byte),
    AtEntry s q host v bs 6 1 →
    memctlClass5 v bs = none →
    (MemctlBody.ofBytes bs).pin = false →
    exec (.memctlPlace q host) s = .next (if (MemctlBody.ofBytes bs).pages = 0 then v.started q bs .none .finished 0 else ({ v.taken q with mem := { v.mem with objs := SMap.set v.mem.objs (MemctlBody.ofBytes bs).handle ⟨(DescHdr.ofBytes bs).ctx, (MemctlBody.ofBytes bs).home, (MemctlBody.ofBytes bs).aff, (MemctlBody.ofBytes bs).spill = 1, false, false, false, (MemctlBody.ofBytes bs).base / pageSize, (MemctlBody.ofBytes bs).pages⟩ } } : State).put q (v.queue q).fetch bs .none .finished (BitVec.ofNat 32 (MemctlBody.ofBytes bs).pages))) ∧
  (∀ (s v : State) (q : Nat) (host : Fetched) (bs : List Byte) (w : State) (ws : List Nat),
    AtEntry s q host v bs 6 1 →
    memctlClass5 v bs = none →
    (MemctlBody.ofBytes bs).pin = true →
    (MemctlBody.ofBytes bs).pages ≠ 0 →
    ({ v.taken q with mem := { v.mem with objs := SMap.set v.mem.objs (MemctlBody.ofBytes bs).handle ⟨(DescHdr.ofBytes bs).ctx, (MemctlBody.ofBytes bs).home, (MemctlBody.ofBytes bs).aff, (MemctlBody.ofBytes bs).spill = 1, false, true, false, (MemctlBody.ofBytes bs).base / pageSize, (MemctlBody.ofBytes bs).pages⟩ } } : State).bringIn ((v.taken q).srcCls (DescHdr.ofBytes bs).ctx (.queue q (v.queue q).fetch)) ((List.range (MemctlBody.ofBytes bs).pages).map (pageKey (MemctlBody.ofBytes bs).handle)) = (w, ws) →
    exec (.memctlPlace q host) s = .next ((w : State).put q (v.queue q).fetch bs (.memctl ⟨1, (MemctlBody.ofBytes bs).handle, (MemctlBody.ofBytes bs).addr, ws, [], [], 0⟩) .running 0)) ∧
  (∀ (s v : State) (q : Nat) (host : Fetched) (bs : List Byte),
    AtEntry s q host v bs 6 2 →
    memctlClass5 v bs = none →
    exec (.memctlRelease q host) s = .next ((((v.taken q).modObj (MemctlBody.ofBytes bs).handle fun o => { o with releasing := true, pin := false }) : State).put q (v.queue q).fetch bs (.memctl ⟨2, (MemctlBody.ofBytes bs).handle, (MemctlBody.ofBytes bs).addr, [], [], [], 0⟩) .running 0)) ∧
  (∀ (s v : State) (q : Nat) (host : Fetched) (bs : List Byte),
    AtEntry s q host v bs 6 4 →
    memctlClass5 v bs = none →
    exec (.memctlUnpin q host) s = .next (((((v.taken q).modObj (MemctlBody.ofBytes bs).handle fun o => { o with pin := false }).memStep fun m d z => m.serve d z) : State).put q (v.queue q).fetch bs .none .finished 0)) ∧
  (∀ (s v : State) (q : Nat) (host : Fetched) (bs : List Byte) (w : State),
    AtEntry s q host v bs 6 8 →
    memctlClass5 v bs = none →
    w = (({ v.taken q with mem := { v.mem with pool := v.mem.pool ++ [(t3Addr (MemctlBody.ofBytes bs).addr / pageSize, (MemctlBody.ofBytes bs).pages)] } } : State).memStep fun m d z => m.serve d z) →
    exec (.memctlBacking q host) s = .next (if (MemctlBody.ofBytes bs).pages = 0 then v.started q bs .none .finished 0 else (w : State).put q (v.queue q).fetch bs .none .finished (BitVec.ofNat 32 w.mem.poolPages))) ∧
  (∀ (s v : State) (q : Nat) (host : Fetched) (bs : List Byte) (o : Obj) (w : State) (ws : List Nat),
    AtEntry s q host v bs 6 3 →
    memctlClass5 v bs = none →
    SMap.get? v.mem.objs (MemctlBody.ofBytes bs).handle = some o →
    ((v.taken q).modObj (MemctlBody.ofBytes bs).handle fun o => { o with pinning := true }).bringIn ((v.taken q).srcCls (DescHdr.ofBytes bs).ctx (.queue q (v.queue q).fetch)) ((List.range o.pages).map (pageKey (MemctlBody.ofBytes bs).handle)) = (w, ws) →
    exec (.memctlPin q host) s = .next ((w : State).put q (v.queue q).fetch bs (.memctl ⟨3, (MemctlBody.ofBytes bs).handle, (MemctlBody.ofBytes bs).addr, ws, [], [], 0⟩) .running 0)) ∧
  (∀ (s v : State) (q : Nat) (host : Fetched) (bs : List Byte) (w : State) (ws : List Nat),
    AtEntry s q host v bs 6 5 →
    memctlClass5 v bs = none →
    (v.taken q).bringIn ((v.taken q).srcCls (DescHdr.ofBytes bs).ctx (.queue q (v.queue q).fetch)) ((MemctlBody.ofBytes bs).keys v.mem) = (w, ws) →
    exec (.memctlPrefetch q host) s = .next (if (MemctlBody.ofBytes bs).pages = 0 then v.started q bs .none .finished 0 else (w : State).put q (v.queue q).fetch bs (.memctl ⟨5, (MemctlBody.ofBytes bs).handle, (MemctlBody.ofBytes bs).addr, ws, [], [], 0⟩) .running 0)) ∧
  (∀ (s : State) (c : TCls) (k : Nat), s.mem.resident k = true → (s.mem.demands.any fun d => d.key = k && d.kind = .evict) = false →
    s.bringIn c [k] = ({ s with mem := s.mem.setPage k { s.mem.page k with age := 0 } }, [])) ∧
  (∀ (s v : State) (q : Nat) (host : Fetched) (bs : List Byte) (w : State) (ks : List Nat),
    AtEntry s q host v bs 6 6 →
    memctlClass5 v bs = none →
    (v.taken q).demotePages ((v.taken q).srcCls (DescHdr.ofBytes bs).ctx (.queue q (v.queue q).fetch)) ((MemctlBody.ofBytes bs).keys v.mem) = (w, ks) →
    exec (.memctlDemote q host) s = .next (if (MemctlBody.ofBytes bs).pages = 0 then v.started q bs .none .finished 0 else (w : State).put q (v.queue q).fetch bs (.memctl ⟨6, (MemctlBody.ofBytes bs).handle, (MemctlBody.ofBytes bs).addr, [], ks, [], ks.length⟩) .running (BitVec.ofNat 32 (ks.length)))) ∧
  (∀ (s v : State) (q : Nat) (host : Fetched) (bs : List Byte) (o : Obj),
    AtEntry s q host v bs 6 7 →
    memctlClass5 v bs = none →
    SMap.get? v.mem.objs (MemctlBody.ofBytes bs).handle = some o →
    exec (.memctlQuery q host) s = .next (v.started q bs (.memctl ⟨7, (MemctlBody.ofBytes bs).handle, (MemctlBody.ofBytes bs).addr, [], [], v.mem.record (MemctlBody.ofBytes bs).handle o, 0⟩) .running 0))

/-- R115, R142, R143: the start of a LAUNCH, and the tiles that it leaves alone. -/
def Obligations.WaitingLaunchStarts : Prop :=
  (∀ (s a : State) (id g e : Nat) (d : Desc) (args : List W32),
    s.desc? id = some d →
    d.launchOf = some (g, e, args) →
    s.mayLaunch d = true →
    ((s.lgrpTiles g).all fun l => (s.phys l).isSome && s.dieRuns (logDie l) && s.tileFree l && !s.reserved d.hdr.ctx l) = true →
    a = (if s.ctxIs d.hdr.ctx (fun x => x.serve && !x.bstep && !s.slotPart x.part) then s.admitStep d.hdr.ctx none else s) →
    ∃ u, exec (.launchStart id) s = .next u ∧ u.desc? id = some { d with st := .running, chosen := false } ∧
      (∀ l ∈ s.lgrpTiles g, (u.tile l).ctx = some d.hdr.ctx ∧ (u.tile l).launch = some id ∧ (u.tile l).pc = e ∧ (u.tile l).cpState = .running ∧ (u.tile l).wait = none ∧
        (List.range 8).map (u.tile l).xr = (List.range 8).map fun i => args.getD i 0) ∧
      u.starts = s.starts + 1 ∧
      u.queues = s.queues ∧
      u.ctxs = a.ctxs ∧
      u.mem = s.mem ∧
      u.sigs = a.sigs) ∧
  (∀ (s : State) (id g e p : Nat) (d : Desc) (args : List W32), s.desc? id = some d → d.launchOf = some (g, e, args) →
    (∀ l ∈ s.lgrpTiles g, s.phys l ≠ some p) → ∃ u, exec (.launchStart id) s = .next u ∧ u.ptile p = s.ptile p)

/-- R300 to R304 (Tables 9.2, 9.3): one decision of a stage arbiter. -/
def Obligations.StageArbiterStartsTheReadyRole : Prop :=
  (∀ (s v : State) (n role q : Nat) (g : Stage) (host : Fetched) (bs : List Byte),
    n < 256 →
    SMap.get? s.stages n = some g →
    g.run = none →
    (s.fab.ctx g.ctx).fenced = false →
    EntryIn s q host v bs →
    s.readyRole g = some (role, q) →
    role ≠ 4 →
    v.stageCheck g q bs = none →
    ∃ u, exec (.stageArbiterDecide n host) s = .next u ∧ (SMap.get? u.stages n) = some { g with run := some (role, s.nextDesc) } ∧
      u.queue q = { v.queue q with fetch := (s.queue q).fetch + 1 } ∧
      u.nextDesc = s.nextDesc + 1 ∧
      (SMap.get? u.descs s.nextDesc = some ⟨.queue q (s.queue q).fetch, DescHdr.ofBytes bs, .launch (nbits (dn bs 0x14 4) 0 18) (dn bs 0x18 2) ((List.range 8).map fun i => BitVec.ofNat 32 (dn bs (0x1C + 4 * i) 4)) (s.lgrpTiles (dn bs 0x18 2)) 0,
        if (s.lgrpTiles (dn bs 0x18 2)).isEmpty then .finished else .waiting, .ok, 0, false, none, false, none, some (n, role), none⟩) ∧
      u.tiles = s.tiles ∧
      u.mem = v.mem ∧
      u.ctxs = s.ctxs) ∧
  (∀ (s v : State) (n role q t k : Nat) (g : Stage) (host : Fetched) (bs : List Byte),
    n < 256 →
    SMap.get? s.stages n = some g →
    g.run = none →
    (s.fab.ctx g.ctx).fenced = false →
    EntryIn s q host v bs →
    s.readyRole g = some (role, q) →
    role = 4 →
    g.gu = some (t, k) →
    s.gateLeft n g 4 = true →
    (v.takeGate g 4).stageCheck g q bs = none →
    ∃ u, exec (.stageArbiterDecide n host) s = .next u ∧ (SMap.get? u.stages n) = some { g with run := some (role, s.nextDesc) } ∧
      u.queue q = { v.queue q with fetch := (s.queue q).fetch + 1 } ∧
      u.nextDesc = s.nextDesc + 1 ∧
      (SMap.get? u.descs s.nextDesc = some ⟨.queue q (s.queue q).fetch, DescHdr.ofBytes bs, .launch (nbits (dn bs 0x14 4) 0 18) (dn bs 0x18 2) ((List.range 8).map fun i => BitVec.ofNat 32 (dn bs (0x1C + 4 * i) 4)) (s.lgrpTiles (dn bs 0x18 2)) 0,
        if (s.lgrpTiles (dn bs 0x18 2)).isEmpty then .finished else .waiting, .ok, 0, false, none, false, none, some (n, role), none⟩) ∧
      (u.tile t).sem k = (s.tile t).sem k - 1 ∧
      u.mem = v.mem ∧
      u.ctxs = s.ctxs) ∧
  (∀ (s v : State) (n role q : Nat) (g : Stage) (host : Fetched) (bs : List Byte),
    n < 256 →
    SMap.get? s.stages n = some g →
    g.run = none →
    (s.fab.ctx g.ctx).fenced = false →
    EntryIn s q host v bs →
    s.readyRole g = some (role, q) →
    role = 4 →
    g.gu = none →
    v.stageCheck g q bs = none →
    ∃ u, exec (.stageArbiterDecide n host) s = .next u ∧ (SMap.get? u.stages n) = some { g with run := some (role, s.nextDesc) } ∧
      u.queue q = { v.queue q with fetch := (s.queue q).fetch + 1 } ∧
      u.nextDesc = s.nextDesc + 1 ∧
      (SMap.get? u.descs s.nextDesc = some ⟨.queue q (s.queue q).fetch, DescHdr.ofBytes bs, .launch (nbits (dn bs 0x14 4) 0 18) (dn bs 0x18 2) ((List.range 8).map fun i => BitVec.ofNat 32 (dn bs (0x1C + 4 * i) 4)) (s.lgrpTiles (dn bs 0x18 2)) 0,
        if (s.lgrpTiles (dn bs 0x18 2)).isEmpty then .finished else .waiting, .ok, 0, false, none, false, none, some (n, role), none⟩) ∧
      u.tiles = s.tiles ∧
      u.mem = v.mem ∧
      u.ctxs = s.ctxs)

/-- R145, R158, R220: the operations of a MOVE, one at a time, and those of a collective. -/
def Obligations.TongsEngineMovesPieceByPiece : Prop :=
  (∀ (s : State) (id : Nat) (d : Desc) (e : Nat × Nat) (c : TCls) (b : MoveBody) (r : MoveRun) (k : Nat) (x : Piece) (bs : List Byte) (bad : List Nat),
    s.desc? id = some d →
    d.engine? = some e →
    s.engineGrant e = some (id, c) →
    d.body = .move b r →
    (r.pieces.find? fun y => match y.2.st with | .have_ _ _ => true | _ => false) = some (k, x) →
    x.st = .have_ bs bad →
    exec (.tongsOperationIssue id) s = .next ((s.engineGranted e id c).issueWrite id k d b x bs bad)) ∧
  (∀ (s : State) (id : Nat) (d : Desc) (e : Nat × Nat) (c : TCls) (b : MoveBody) (r : MoveRun) (k : Nat) (x : Piece) (bs : List Byte) (bad : List Nat),
    s.desc? id = some d →
    d.engine? = some e →
    s.engineGrant e = some (id, c) →
    d.body = .move b r →
    (r.pieces.find? fun y => match y.2.st with | .have_ _ _ => true | _ => false) = some (k, x) →
    x.st = .have_ bs bad →
    (match s.loc b.dsp (b.dstAt x.row x.off) with | .tile _ _ => true | .win y => (s.mem.find false d.hdr.ctx y).any s.mem.resident | .t3 _ => !s.t3Denied | .remote _ _ => false) = true →
    ∃ u, exec (.tongsOperationIssue id) s = .next u ∧ (u.desc? id = some { d with body := .move b { r with pieces := SMap.adj r.pieces k fun y => { y with st := .writing bs bad (.local none) } } }) ∧
      u = { s with descs := u.descs, engines := u.engines } ∧
      (∀ j, j ≠ id → u.desc? j = s.desc? j)) ∧
  (∀ (s : State) (id : Nat) (d : Desc) (e : Nat × Nat) (c : TCls) (b : MoveBody) (r : MoveRun) (a : Nat) (ch : Chunk),
    s.desc? id = some d →
    d.engine? = some e →
    s.engineGrant e = some (id, c) →
    d.body = .move b r →
    (r.pieces.find? fun x => match x.2.st with | .have_ _ _ => true | _ => false) = none →
    s.portPiece d b r = none →
    r.stop = false →
    b.chunk r.row r.off r.plane = some ch →
    ch.src = some a →
    (match s.loc b.ssp a with | .tile _ _ => true | .win y => (s.mem.find false d.hdr.ctx y).any s.mem.resident | .t3 _ => false | .remote _ _ => false) = true →
    ∃ u, exec (.tongsOperationIssue id) s = .next u ∧ u.desc? id = some { d with body := .move b { r with row := (b.advance ch).1, off := (b.advance ch).2.1, plane := (b.advance ch).2.2, nextPiece := r.nextPiece + 1, pieces := SMap.set r.pieces r.nextPiece ⟨ch.row, ch.off, ch.plane, ch.n, s.now, .reading (.local none)⟩ } } ∧
      u = { s with descs := u.descs, engines := u.engines } ∧
      (∀ j, j ≠ id → u.desc? j = s.desc? j)) ∧
  (∀ (s : State) (id : Nat) (d : Desc) (e : Nat × Nat) (c : TCls) (b : MoveBody) (r : MoveRun) (ch : Chunk),
    s.desc? id = some d →
    d.engine? = some e →
    s.engineGrant e = some (id, c) →
    d.body = .move b r →
    (r.pieces.find? fun x => match x.2.st with | .have_ _ _ => true | _ => false) = none →
    s.portPiece d b r = none →
    r.stop = false →
    b.chunk r.row r.off r.plane = some ch →
    ch.src = none →
    (match s.loc b.dsp (b.dstAt ch.row ch.off) with | .tile _ _ => true | .win y => (s.mem.find false d.hdr.ctx y).any s.mem.resident | .t3 _ => !s.t3Denied | .remote _ _ => false) = true →
    ∃ u, exec (.tongsOperationIssue id) s = .next u ∧ (u.desc? id = some { d with body := .move b { r with row := (b.advance ch).1, off := (b.advance ch).2.1, plane := (b.advance ch).2.2, nextPiece := r.nextPiece + 1, pieces := SMap.set r.pieces r.nextPiece ⟨ch.row, ch.off, ch.plane, ch.n, s.now, .writing (if b.op = 2 then b.fillData ch else List.replicate ch.n 0) [] (.local none)⟩ } }) ∧
      u = { s with descs := u.descs, engines := u.engines } ∧
      (∀ j, j ≠ id → u.desc? j = s.desc? j)) ∧
  (∀ (s : State) (id : Nat) (d : Desc) (e : Nat × Nat) (c : TCls) (b : MoveBody) (r : MoveRun) (a : Nat) (ch : Chunk),
    s.desc? id = some d →
    d.engine? = some e →
    s.engineGrant e = some (id, c) →
    d.body = .move b r →
    (r.pieces.find? fun x => match x.2.st with | .have_ _ _ => true | _ => false) = none →
    s.portPiece d b r = none →
    r.stop = false →
    b.chunk r.row r.off r.plane = some ch →
    ch.src = some a →
    exec (.tongsOperationIssue id) s = .next (((s.engineGranted e id c).modMove id fun r => { r with row := (b.advance ch).1, off := (b.advance ch).2.1, plane := (b.advance ch).2.2, nextPiece := r.nextPiece + 1, pieces := SMap.set r.pieces r.nextPiece ⟨ch.row, ch.off, ch.plane, ch.n, s.now, .reading (.local none)⟩ }).issueRead id r.nextPiece d b ⟨ch.row, ch.off, ch.plane, ch.n, s.now, .reading (.local none)⟩ a)) ∧
  (∀ (s : State) (id : Nat) (d : Desc) (e : Nat × Nat) (c : TCls) (b : CollBody) (r : CollRun) (sp a n : Nat) (wr : Bool),
    s.desc? id = some d →
    d.engine? = some e →
    s.engineGrant e = some (id, c) →
    d.body = .coll b r →
    d.st = .running →
    s.collNext id d = some (sp, a, n, wr) →
    (match s.loc sp a with | .tile _ _ => true | .win y => (s.mem.find false d.hdr.ctx y).any s.mem.resident | .t3 _ => wr && !s.t3Denied | .remote _ _ => false) = true →
    ∃ u, exec (.tongsOperationIssue id) s = .next u ∧ u.desc? id = some { d with body := .coll b { r with op := some ⟨.local none, sp, a⟩ } } ∧
      u = { s with descs := u.descs, engines := u.engines } ∧
      (∀ j, j ≠ id → u.desc? j = s.desc? j)) ∧
  (∀ (s : State) (id : Nat) (d : Desc) (e : Nat × Nat) (c : TCls) (b : CollBody) (r : CollRun),
    s.desc? id = some d →
    d.engine? = some e →
    s.engineGrant e = some (id, c) →
    d.body = .coll b r →
    d.st = .running →
    s.collNext id d = none →
    exec (.tongsOperationIssue id) s = .next ((s.engineGranted e id c).collIssue id)) ∧
  (∀ (s v : State) (id k a : Nat) (w : Option Nat) (d : Desc) (b : MoveBody) (r : MoveRun) (x : Piece) (res : OpRes) (hw : List StoreErr) (bs : List Byte),
    s.desc? id = some d →
    d.body = .move b r →
    d.st = .running →
    s.downDies.contains r.die = false →
    SMap.get? r.pieces k = some x →
    x.st = .reading (.local w) →
    s.waitOver w = true →
    s.waitRes w = .ok →
    r.stop = false →
    b.srcAt x.row x.off x.plane = some a →
    (res = .spd hw ∨ res = .ok ∧ hw = []) →
    (match s.loc b.ssp a with
      | .tile l y => (s.dropWait? w).spdRead l y x.n hw
      | .win y => (s.dropWait? w).winRead ⟨true, true, (s.dropWait? w).classOf d⟩ d.hdr.ctx y x.n
      | _ => (s.dropWait? w, .fail .range)) = (v, .got bs []) →
    v.desc? id = some d →
    ∃ u, exec (.tongsOperationDone id k res) s = .next u ∧ (u.desc? id = some { d with body := .move b { r with pieces := SMap.adj r.pieces k fun y => { y with st := .have_ bs [] } } }) ∧
      (∀ j, j ≠ id → u.desc? j = v.desc? j) ∧
      u.tiles = v.tiles ∧
      u.queues = s.queues ∧
      u.ctxs = s.ctxs ∧
      u.sigs = s.sigs) ∧
  (∀ (s v : State) (id k : Nat) (w : Option Nat) (d : Desc) (b : MoveBody) (r : MoveRun) (x : Piece) (bs : List Byte) (bad : List Nat),
    s.desc? id = some d →
    d.body = .move b r →
    d.st = .running →
    s.downDies.contains r.die = false →
    SMap.get? r.pieces k = some x →
    x.st = .writing bs bad (.local w) →
    bad.Nodup →
    s.waitOver w = true →
    s.waitRes w = .ok →
    (if b.op = 3 then (s.dropWait? w).skewWrite b x bs bad
      else match s.loc b.dsp (b.dstAt x.row x.off) with
      | .tile l y => (s.dropWait? w).spdWrite l y bs bad
      | .win y => if b.op = 4 then (s.dropWait? w).accWrite id ((s.dropWait? w).classOf d) d.hdr.ctx y b bs bad else (s.dropWait? w).winWrite ⟨true, true, (s.dropWait? w).classOf d⟩ d.hdr.ctx y bs bad
      | .t3 y => if s.t3Denied then (s.dropWait? w, .fail .denied) else ((s.dropWait? w).t3Out (.t3Write (t3Addr y) bs !bad.isEmpty), .done)
      | .remote _ _ => (s.dropWait? w, .fail .range)) = (v, .done) →
    v.desc? id = some d →
    ∃ u, exec (.tongsOperationDone id k .ok) s = .next u ∧ (u.desc? id = some { d with
        body := .move b { r with pieces := SMap.erase r.pieces k, written := r.written + pieceBytes b x }
        st := if (SMap.erase r.pieces k).isEmpty && (r.stop || (b.chunk r.row r.off r.plane).isNone) then .finished else d.st
        detail := if (SMap.erase r.pieces k).isEmpty && (r.stop || (b.chunk r.row r.off r.plane).isNone) then BitVec.ofNat 32 (r.written + pieceBytes b x) else d.detail }) ∧
      (∀ j, j ≠ id → u.desc? j = v.desc? j) ∧
      u.tiles = v.tiles ∧
      u.queues = s.queues ∧
      u.ctxs = v.ctxs ∧
      u.sigs = s.sigs) ∧
  (∀ (s : State) (id k p : Nat) (w : Option Nat) (d : Desc) (b : MoveBody) (r : MoveRun) (x : Piece) (bs : List Byte),
    s.desc? id = some d →
    d.body = .move b r →
    d.st = .running →
    s.downDies.contains r.die = false →
    SMap.get? r.pieces k = some x →
    x.st = .writing bs [] (.local w) →
    s.waitOver w = true →
    s.waitRes w = .ok →
    b.op = 1 →
    b.dsp = spTile →
    s.phys (addrTile (b.dstAt x.row x.off)) = some p →
    ∃ u, exec (.tongsOperationDone id k .ok) s = .next u ∧ (u.ptile p).spd = Mem.wrN (s.ptile p).spd (addrSpd (b.dstAt x.row x.off)) bs ∧
      (∀ q, q ≠ p → u.ptile q = s.ptile q) ∧
      u.queues = s.queues ∧
      u.ctxs = s.ctxs ∧
      u.sigs = s.sigs) ∧
  (∀ (s v : State) (id k sp a n : Nat) (w : Option Nat) (d : Desc) (b : CollBody) (r : CollRun) (bs : List Byte),
    s.desc? id = some d →
    d.body = .coll b r →
    d.st = .running →
    s.downDies.contains r.die = false →
    r.op = some ⟨.local w, sp, a⟩ →
    s.waitOver w = true →
    s.waitRes w = .ok →
    (s.dropWait? w).collNext id d = some (sp, a, n, false) →
    (s.dropWait? w).collLoad ⟨true, true, (s.dropWait? w).classOf d⟩ d.hdr.ctx sp a n r.die .ok = (v, .got bs []) →
    exec (.tongsOperationDone id k .ok) s = .next (v.collGot id bs [])) ∧
  (∀ (s : State) (id k sp a n : Nat) (w : Option Nat) (d : Desc) (b : CollBody) (r : CollRun) (res : OpRes),
    s.desc? id = some d →
    d.body = .coll b r →
    d.st = .running →
    s.downDies.contains r.die = false →
    r.op = some ⟨.local w, sp, a⟩ →
    s.waitOver w = true →
    s.waitRes w = .ok →
    (s.dropWait? w).collNext id d = some (sp, a, n, true) →
    exec (.tongsOperationDone id k res) s = .next ((s.dropWait? w).collWrote id ⟨true, true, (s.dropWait? w).classOf d⟩ d.hdr.ctx sp a n r.die res))

/-- R54, R147, R148, R151, R152: AT_TIME, and completion. -/
def Obligations.CompletionAdvancesTheQueue : Prop :=
  (∀ (s : State) (id q : Nat) (i : W32) (d : Desc),
    s.desc? id = some d →
    d.st = .finished →
    d.src = .queue q i →
    (match d.body with | .none => true | .move b _ => !b.accStat | _ => false) = true →
    d.crecWait = none →
    d.stage = none →
    d.skip = none →
    d.hdr.semsig = false →
    d.hdr.crec = false →
    d.hdr.irq = false →
    s.isRq q = false →
    ∃ u, exec (.descriptorComplete id) s = .next u ∧ (u.descs = SMap.erase (SMap.adj s.descs id fun d => { d with crecWait := none }) id) ∧
      (∀ k, k ≠ id → u.desc? k = s.desc? k) ∧
      u.desc? id = none ∧
      (u.queue q = (if s.stepless (s.queue q).ctx then { (s.queue q).finish i with head := ((s.queue q).finish i).done } else (s.queue q).finish i)) ∧
      (∀ k, k ≠ q → u.queue k = s.queue k) ∧
      u = { s with descs := u.descs, queues := u.queues, fab := { s.fab with serialSave := u.fab.serialSave } }) ∧
  (∀ (s : State) (id q : Nat) (i : W32) (d : Desc) (st : Status),
    s.desc? id = some d →
    d.st = .finished →
    d.src = .queue q i →
    (match d.body with | .none => true | .move b _ => !b.accStat | _ => false) = true →
    d.crecWait = none →
    d.stage = none →
    d.skip = none →
    s.isRq q = false →
    (d.hdr.crec = true → localRange d.hdr.cplAddr = .t3 ∧ s.t3Denied = false) →
    st = (if d.hdr.semsig && (s.phys d.hdr.cplTile).isNone then d.status.worse .degraded else d.status) →
    ∃ u, exec (.descriptorComplete id) s = .next u ∧ u.desc? id = none ∧
      (d.hdr.crec = true → Out.t3Write (t3Addr d.hdr.cplAddr) (crecBytes d.hdr st false q d.detail.toNat s.now) false ∈ u.out ++ u.hif.held) ∧
      (u.sigs = (if d.hdr.semsig then s.sigs ++ [⟨d.hdr.cplTile, d.hdr.cplSem, 1, none, none, none, d.hdr.ctx, if d.hdr.irq && (s.queue q).irqen then some (s.queue q).vec else none⟩] else s.sigs)) ∧
      (d.hdr.irq = true → (s.queue q).irqen = true → d.hdr.semsig = false → s.hif.msixOpen (s.queue q).vec = true → Out.msix (s.queue q).vec ∈ u.out) ∧
      (u.queue q).done = ((s.queue q).finish i).done ∧
      u.tiles = s.tiles) ∧
  (∀ (s w w1 w2 w3 : State) (id : Nat) (d : Desc) (x : Bool × Nat),
    s.settleMemctl id = w →
    w.desc? id = some d →
    d.st = .finished →
    w.waitOver d.crecWait = true →
    (w.waitRes d.crecWait = .ok ∨ w.waitRes d.crecWait = .abandoned) →
    ((w.dropWait? d.crecWait).modDesc id fun d => { d with crecWait := none }).countStat id = (w1, none) →
    w1.voteRecord false d = (w2, none) →
    x = (match d.src with | .exec l _ => (true, l) | .queue q _ => (false, q)) →
    (if d.hdr.crec then w2.recordTry false (w2.classOf d) d.hdr.ctx d.hdr.cplAddr (crecBytes d.hdr (w2.finalStatus d) x.1 x.2 d.detail.toNat w2.now) else (w2, none)) = (w3, none) →
    exec (.descriptorComplete id) s = .next (w3.completeRest id d (w2.finalStatus d))) ∧
  (∀ (s : State) (id t : Nat) (d : Desc),
    s.desc? id = some d →
    d.body = .atTime t →
    d.st = .running →
    t ≤ s.now →
    s.earlier t = false →
    ∃ u, exec (.atTimeExpire id) s = .next u ∧ u.desc? id = some { d with st := .finished } ∧
      (∀ k, k ≠ id → u.desc? k = s.desc? k) ∧
      u = { s with descs := u.descs })

/-- R213 to R217, R227: the end of a page's movement, with nothing waiting for a frame. -/
def Obligations.PageMovementsLand : Prop :=
  (∀ (s w : State) (k : Nat) (v : PageMove) (e : PageErr) (ws : List Nat),
    s.computeOn = true →
    (s.mem.page k).move = some v →
    (v.kind = .fill ∨ v.kind = .zfill) →
    s.moveUp k (s.hif.linkUp || s.t3Denied) = true →
    (s.fromBacking k = true → s.t3Denied = false) →
    s.moveErrs k e = (w, ws) →
    exec (.pageFillComplete k (.copied e)) s = .next ((w.memStep fun m dn bz =>
      ((((m.setPage k { (m.page k).poisonWords ws with loc := some v.dst, move := none, age := 0 }).setCnt v.dst.tier fun x =>
        { x with fills := x.fills + 1, zfills := if v.kind = .zfill then x.zfills + 1 else x.zfills }).rest dn bz k).settle dn bz)).resume)) ∧
  (∀ (s : State) (k : Nat) (v : PageMove) (o : Obj),
    s.computeOn = true →
    s.mem.demands = [] →
    s.fab.served = [] →
    s.hif.bar4 = [] →
    SMap.wf s.mem.waits = true →
    s.mem.retiring = [] →
    (s.mem.page k).move = some v →
    (v.kind = .fill ∨ v.kind = .zfill) →
    s.mem.objOf k = some o →
    v.dst.tier = o.home →
    s.fromBacking k = false →
    s.moveUp k (s.hif.linkUp || s.t3Denied) = true →
    ∃ u, exec (.pageFillComplete k (.copied ⟨0, [], [], none⟩)) s = .next u ∧ u.mem.page k = { s.mem.page k with loc := some v.dst, move := none, age := 0 } ∧
      (u.mem.cnt v.dst.tier = { s.mem.cnt v.dst.tier with fills := (s.mem.cnt v.dst.tier).fills + 1, zfills := (if v.kind = .zfill then (s.mem.cnt v.dst.tier).zfills + 1 else (s.mem.cnt v.dst.tier).zfills) }) ∧
      (u.mem.waits = s.mem.waits.mapV fun _ w => if w.key = k && w.res.isNone && !s.waitLapsed w then { w with res := some .ok } else w) ∧
      (∀ j, j ≠ k → u.mem.page j = s.mem.page j) ∧
      u.mem.objs = s.mem.objs ∧
      u.tiles = s.tiles ∧
      u.queues = s.queues ∧
      u.ctxs = s.ctxs ∧
      u.descs = s.descs) ∧
  (∀ (s w : State) (k : Nat) (v : PageMove) (l : Place) (o : Obj) (e : PageErr) (ws : List Nat),
    s.computeOn = true →
    (s.mem.page k).move = some v →
    v.kind = .evict →
    (s.mem.page k).loc = some l →
    v.dst.tier ≠ 3 →
    s.mem.objOf k = some o →
    s.moveUp k s.t3Up = true →
    s.moveErrs k e = (w, ws) →
    exec (.pageEvictionComplete k e) s = .next (((w.memStep fun m dn bz =>
      (((((m.setPage k { (m.page k).poisonWords ws with loc := some v.dst, move := none, age := v.age }).setCnt l.tier fun x =>
        { x with evicts := x.evicts + 1 }).favour k).settle dn bz).rest dn bz k)).ev 0x02FF 7 o.ctx 0 (keyHandle k + keyIdx k * 2 ^ 32)).resume)) ∧
  (∀ (s w : State) (k b : Nat) (v : PageMove) (l : Place) (o : Obj) (e : PageErr) (ws : List Nat),
    s.computeOn = true →
    (s.mem.page k).move = some v →
    v.kind = .evict →
    (s.mem.page k).loc = some l →
    v.dst = .bk b →
    s.mem.objOf k = some o →
    s.moveUp k s.t3Up = true →
    s.moveErrs k e = (w, ws) →
    exec (.pageEvictionComplete k e) s = .next (((w.memStep fun m dn bz =>
      (((({ (m.setPage k { (m.page k).poisonWords ws with loc := some v.dst, move := none, age := v.age }).setCnt l.tier (fun x =>
        { x with evicts := x.evicts + 1 }) with bkWrites := SMap.modD m.bkWrites b 0 (· + 1) } : MemSys).favour k).settle dn bz).rest dn bz k)).ev 0x02FF 7 o.ctx 0 (keyHandle k + keyIdx k * 2 ^ 32)).resume)) ∧
  (∀ (s : State) (k : Nat) (v : PageMove) (l : Place) (o : Obj),
    s.computeOn = true →
    s.mem.demands = [] →
    s.fab.served = [] →
    s.hif.bar4 = [] →
    s.mem.retiring = [] →
    (s.mem.page k).move = some v →
    v.kind = .evict →
    (s.mem.page k).loc = some l →
    s.mem.objOf k = some o →
    (s.mem.waits.any fun w => w.2.key = k && w.2.res.isNone) = false →
    s.moveUp k s.t3Up = true →
    ∃ u, exec (.pageEvictionComplete k ⟨0, [], [], none⟩) s = .next u ∧ u.mem.page k = { s.mem.page k with loc := some v.dst, move := none, age := v.age } ∧
      u.mem.cnt l.tier = { s.mem.cnt l.tier with evicts := (s.mem.cnt l.tier).evicts + 1 } ∧
      (∀ j, j ≠ k → u.mem.page j = s.mem.page j) ∧
      u.mem.objs = s.mem.objs ∧
      u.tiles = s.tiles ∧
      u.queues = s.queues ∧
      u.ctxs = s.ctxs ∧
      u.descs = s.descs) ∧
  (∀ (s w : State) (t f k : Nat) (v : PageMove) (e : PageErr) (ws : List Nat),
    s.computeOn = true →
    (t = 1 ∨ t = 2) →
    f < tierFrames t →
    s.mem.pages.findKey? (fun _ p => decide (p.loc = some (placeOf t f))) = some k →
    (s.mem.page k).move = some v →
    v.kind = .retire →
    s.moveUp k s.t3Up = true →
    s.moveErrs k e = (w, ws) →
    w.mem.pages.findKey? (fun _ p => decide (p.loc = some (placeOf t f)) && (match p.move with | some v => decide (v.kind = .retire) | none => false)) = some k →
    (w.mem.page k).move = some v →
    exec (.frameRetireMoveLanded t f e) s = .next ((w.memStep fun m dn bz =>
      (((m.setPage k { (m.page k).poisonWords ws with loc := some v.dst, move := none, age := v.age }).retireFrame t f).rest dn bz k).settle dn bz).resume)) ∧
  (∀ (s : State) (t f k : Nat) (v : PageMove),
    s.computeOn = true →
    s.mem.demands = [] →
    s.fab.served = [] →
    s.hif.bar4 = [] →
    (t = 1 ∨ t = 2) →
    f < tierFrames t →
    s.mem.retiring = [(t, f)] →
    s.mem.pages.findKey? (fun _ p => decide (p.loc = some (placeOf t f))) = some k →
    s.mem.pages.findKey? (fun _ p => decide (p.loc = some (placeOf t f)) && (match p.move with | some v => decide (v.kind = .retire) | none => false)) = some k →
    (s.mem.page k).move = some v →
    (s.mem.waits.any fun w => w.2.key = k && w.2.res.isNone) = false →
    s.moveUp k s.t3Up = true →
    ∃ u, exec (.frameRetireMoveLanded t f ⟨0, [], [], none⟩) s = .next u ∧ u.mem.page k = { s.mem.page k with loc := some v.dst, move := none, age := v.age } ∧
      u.mem.retired t = s.mem.retired t ++ [f] ∧
      u.mem.retiring = [] ∧
      (∀ j, j ≠ k → u.mem.page j = s.mem.page j) ∧
      u.mem.objs = s.mem.objs ∧
      u.tiles = s.tiles ∧
      u.queues = s.queues ∧
      u.ctxs = s.ctxs ∧
      u.descs = s.descs)

/-- R206, R213, R217, R218, R226, R358, R359, R431: what the tiers and the Hearth do beside the accesses. -/
def Obligations.BackgroundWorkOfTheTiers : Prop :=
  (∀ (s : State),
    s.computeOn = true →
    ∃ u, exec (.pageAgeTick) s = .next u ∧ (∀ k, SMap.get? u.mem.pages k = (SMap.get? s.mem.pages k).map fun p => if p.loc.isSome then { p with age := satInc p.age } else p) ∧
      u = { s with mem := { s.mem with pages := u.mem.pages } }) ∧
  (∀ (s : State) (t k : Nat) (l : Place) (o : Obj),
    s.computeOn = true →
    (t = 1 ∨ t = 2) →
    s.mem.freeCnt t < (s.mem.cnt t).lowater.toNat →
    (t = 2 → s.mem.chooseBacking.isSome = true) →
    s.mem.victim s.downDies s.busy t = some k →
    s.mem.objOf k = some o →
    (s.mem.page k).move = none →
    s.mem.lowerPlace s.downDies k = some l →
    (s.mem.demands.any fun d => d.key = k && d.kind = .evict) = false →
    ∃ u, exec (.backgroundEvict t) s = .next u ∧ u.mem.page k = { s.mem.page k with move := some ⟨.evict, l, (s.mem.page k).age⟩ } ∧
      (∀ j, j ≠ k → u.mem.page j = s.mem.page j) ∧
      u = { s with mem := { s.mem with pages := u.mem.pages } }) ∧
  (∀ (s : State) (t k : Nat),
    s.computeOn = true →
    (t = 1 ∨ t = 2) →
    s.mem.freeCnt t < (s.mem.cnt t).lowater.toNat →
    (t = 2 → s.mem.chooseBacking.isSome = true) →
    s.mem.victim s.downDies s.busy t = some k →
    exec (.backgroundEvict t) s = .next (s.memStep fun m dn bz => m.demand dn bz .backfill .evict k)) ∧
  (∀ (s : State) (found : List ScrubHit),
    (found.all fun f => decide (1 ≤ f.tier) && decide (f.tier ≤ 2) && decide (f.frame < tierFrames f.tier)) = true →
    s.hrt.ready = true →
    s.computeOn = true →
    s.mem.scrubSince = none →
    s.lockHeldBy ⟨5, 0, actScrub, 0, 0⟩ = none →
    ∃ u, exec (.scrubPassStart found) s = .next u ∧ u.mem.scrubSince = some s.now ∧
      u.hrt.locks = s.hrt.locks ++ [⟨5, 0, actScrub, 0, 0⟩] ∧
      u.tiles = s.tiles ∧
      u.queues = s.queues ∧
      u.ctxs = s.ctxs ∧
      u.descs = s.descs) ∧
  (∀ (s : State) (t : Nat),
    s.mem.scrubSince = some t →
    ∃ u, exec (.scrubPassEnd) s = .next u ∧ u.mem = { s.mem with scrubSince := none, scrubBehind := false, scrubOk := true } ∧
      (∀ l ∈ u.hrt.locks, l.act ≠ actScrub) ∧
      u.tiles = s.tiles ∧
      u.queues = s.queues ∧
      u.ctxs = s.ctxs ∧
      u.descs = s.descs) ∧
  (∀ (s : State),
    s.mem.scrubAt + s.mem.scrubPeriod.toNat * 3600 * 1000000000 ≤ s.now →
    ∃ u, exec (.scrubPeriodEnd) s = .next u ∧ u.mem = { s.mem with scrubBehind := s.mem.scrubBehind || !s.mem.scrubOk, scrubAt := s.now, scrubOk := false } ∧
      u.hrt.alarm = ({ s with mem := u.mem } : State).alarmNow ∧
      u.tiles = s.tiles ∧
      u.queues = s.queues ∧
      u.ctxs = s.ctxs ∧
      u.descs = s.descs) ∧
  (∀ (s a : State) (n : Nat) (w : PageWait),
    SMap.get? s.mem.waits n = some w →
    w.timed = true →
    w.res = none →
    w.since + s.flt.fillMs.toNat * 1000000 ≤ s.now →
    a = { s with mem := { s.mem with waits := SMap.adj s.mem.waits n fun w => { w with res := some .abandoned } }, flt := { s.flt with toFill := satInc s.flt.toFill } } →
    s.piecesOn n = [] →
    s.collsOn n = [] →
    exec (.fillTimeout n) s = .next ((match s.mem.objOf w.key with | some o => a.ev 0x0403 7 o.ctx o.home 0 | none => a).resume)) ∧
  (∀ (s a : State) (n id j c : Nat) (w : PageWait),
    SMap.get? s.mem.waits n = some w →
    w.timed = true →
    w.res = none →
    w.since + s.flt.fillMs.toNat * 1000000 ≤ s.now →
    a = { s with mem := { s.mem with waits := SMap.adj s.mem.waits n fun w => { w with res := some .abandoned } }, flt := { s.flt with toFill := satInc s.flt.toFill } } →
    s.piecesOn n = [(id, j, c)] →
    s.collsOn n = [] →
    exec (.fillTimeout n) s = .next ((((match s.mem.objOf w.key with | some o => a.ev 0x0403 7 o.ctx o.home 0 | none => a).dropWait n).pieceTimeout id j c).resume)) ∧
  (∀ (s : State) (n : Nat) (w : PageWait),
    SMap.get? s.mem.waits n = some w →
    w.timed = true →
    w.res = none →
    w.since + s.flt.fillMs.toNat * 1000000 ≤ s.now →
    s.piecesOn n = [] →
    s.collsOn n = [] →
    s.fab.served = [] →
    s.hif.bar4 = [] →
    ∃ u, exec (.fillTimeout n) s = .next u ∧ SMap.get? u.mem.waits n = some { w with res := some .abandoned } ∧
      u.flt.toFill = satInc s.flt.toFill ∧
      u.mem.pages = s.mem.pages ∧
      u.mem.objs = s.mem.objs ∧
      u.tiles = s.tiles ∧
      u.queues = s.queues ∧
      u.ctxs = s.ctxs ∧
      u.descs = s.descs)

/-- R241 to R243: DATA flits. R242 to R244: NAK and IDLE flits. -/
def Obligations.FlitsAreTakenReplayedAndAcknowledged : Prop :=
  (∀ (s : State) (p : Nat) (fl : Flit),
    p < 48 →
    flitOk fl = true →
    (fl.words.filter badParity) = [] →
    fl.ue = false →
    (s.fab.port p).state = .up →
    fl.ftype = 1 →
    fl.fseq = (s.fab.port p).rxSeq →
    ∃ u, exec (.flitDataReceive p fl) s = .next u ∧ (u.fab.port p = { ((({ s.fab.port p with fecCe := satAdd (s.fab.port p).fecCe fl.ce } : Port).ack fl.ack).credit fl.cvc fl.cred) with
        rxSeq := ((s.fab.port p).rxSeq + 1) % 4096, rxPkts := (s.fab.port p).rxPkts ++ (cutPackets 16 ((s.fab.port p).rxPart ++ (List.range 62).map fun i => fl.word (i + 2)) []).1, rxPart := (cutPackets 16 ((s.fab.port p).rxPart ++ (List.range 62).map fun i => fl.word (i + 2)) []).2, ackDue := true }) ∧
      u.out = s.out ∧
      (∀ q, q ≠ p → u.fab.port q = s.fab.port q) ∧
      WorkKept s u) ∧
  (∀ (s : State) (p : Nat) (fl : Flit),
    p < 48 →
    flitOk fl = true →
    (s.fab.port p).state = .up →
    ((fl.words.filter badParity) ≠ [] ∨ fl.ue = true ∨ 4 ≤ fl.ftype ∨ (fl.ftype = 1 ∧ fl.fseq ≠ (s.fab.port p).rxSeq)) →
    ∃ u, exec (.flitDataReceive p fl) s = .next u ∧ ((u.fab.port p).parity = (if (fl.words.filter badParity) = [] then (s.fab.port p).parity else satAdd (s.fab.port p).parity (fl.words.filter badParity).length)) ∧
      (u.fab.port p).rxSeq = (s.fab.port p).rxSeq ∧
      (u.fab.port p).rxPkts = (s.fab.port p).rxPkts ∧
      (u.fab.port p).rxPart = (s.fab.port p).rxPart ∧
      (u.fab.port p).state = .up ∧
      u.out = s.out ++ [.flit p (mkFlit (s.fab.port p).rxSeq (s.fab.port p).rxSeq 2 (s.fab.port p).owes.1 (s.fab.port p).owes.2 [])] ∧
      (∀ q, q ≠ p → u.fab.port q = s.fab.port q) ∧
      WorkKept s u) ∧
  (∀ (s : State) (p : Nat) (fl : Flit),
    p < 48 →
    flitOk fl = true →
    (fl.words.filter badParity) = [] →
    fl.ue = false →
    fl.ftype = 2 →
    (s.fab.port p).state = .up →
    (if ((({ s.fab.port p with fecCe := satAdd (s.fab.port p).fecCe fl.ce } : Port).ack fl.ack).credit fl.cvc fl.cred).nakRun ≠ 0 ∧ ((({ s.fab.port p with fecCe := satAdd (s.fab.port p).fecCe fl.ce } : Port).ack fl.ack).credit fl.cvc fl.cred).nakSeq = fl.fseq then ((({ s.fab.port p with fecCe := satAdd (s.fab.port p).fecCe fl.ce } : Port).ack fl.ack).credit fl.cvc fl.cred).nakRun + 1 else 1) < 8 →
    ∃ u, exec (.flitNakReceive p fl) s = .next u ∧ (u.fab.port p).replays = (s.fab.port p).replays + 1 ∧
      (u.fab.port p).score = satAdd (s.fab.port p).score 1 ∧
      (u.fab.port p).txBuf = ((({ s.fab.port p with fecCe := satAdd (s.fab.port p).fecCe fl.ce } : Port).ack fl.ack).credit fl.cvc fl.cred).txBuf ∧
      (u.fab.port p).credits = ((({ s.fab.port p with fecCe := satAdd (s.fab.port p).fecCe fl.ce } : Port).ack fl.ack).credit fl.cvc fl.cred).credits ∧
      (u.fab.port p).state = .up ∧
      (u.out = s.out ++ (((({ s.fab.port p with fecCe := satAdd (s.fab.port p).fecCe fl.ce } : Port).ack fl.ack).credit fl.cvc fl.cred).txBuf.dropWhile fun t => t.fseq ≠ fl.fseq).map fun t => .flit p (mkFlit t.fseq (s.fab.port p).rxSeq 1 t.cvc t.cred t.words)) ∧
      (∀ q, q ≠ p → u.fab.port q = s.fab.port q) ∧
      WorkKept s u) ∧
  (∀ (s : State) (p : Nat) (fl : Flit),
    p < 48 →
    flitOk fl = true →
    (fl.words.filter badParity) = [] →
    fl.ue = false →
    fl.ftype = 2 →
    (s.fab.port p).state = .up →
    8 ≤ (if ((({ s.fab.port p with fecCe := satAdd (s.fab.port p).fecCe fl.ce } : Port).ack fl.ack).credit fl.cvc fl.cred).nakRun ≠ 0 ∧ ((({ s.fab.port p with fecCe := satAdd (s.fab.port p).fecCe fl.ce } : Port).ack fl.ack).credit fl.cvc fl.cred).nakSeq = fl.fseq then ((({ s.fab.port p with fecCe := satAdd (s.fab.port p).fecCe fl.ce } : Port).ack fl.ack).credit fl.cvc fl.cred).nakRun + 1 else 1) →
    ∃ u, exec (.flitNakReceive p fl) s = .next u ∧ (u.fab.port p).replays = (s.fab.port p).replays + 1 ∧
      (u.fab.port p).retrains = satInc (s.fab.port p).retrains ∧
      ((u.fab.port p).state = (if ((s.fab.port p).retrainAt.filter fun t => decide (s.now < t + 1000000000)).length < 2 then .retrain else .failed)) ∧
      WorkKept s u) ∧
  (∀ (s : State) (p : Nat) (fl : Flit),
    p < 48 →
    flitOk fl = true →
    (fl.words.filter badParity) = [] →
    fl.ue = false →
    fl.ftype = 0 →
    ((s.fab.port p).state = .up ∨ (s.fab.port p).state = .ident) →
    ∃ u, exec (.flitIdleReceive p fl) s = .next u ∧ u.fab.port p = ((({ s.fab.port p with fecCe := satAdd (s.fab.port p).fecCe fl.ce } : Port).ack fl.ack).credit fl.cvc fl.cred) ∧
      u.out = s.out ∧
      (∀ q, q ≠ p → u.fab.port q = s.fab.port q) ∧
      WorkKept s u)

/-- R237, R241, R245 to R247 (Table 8.4): the states of a port. -/
def Obligations.PortsTrainAndIdentify : Prop :=
  (∀ (s : State) (p : Nat) (ok : BitVec 5),
    p < 48 →
    ((s.fab.port p).state = .train ∨ (s.fab.port p).state = .retrain) →
    ((List.range 4).all fun i => ok.getLsbD i) = true →
    ∃ u, exec (.portTrainDone p ok) s = .next u ∧ (u.fab.port p).state = .ident ∧
      (u.fab.port p).spareInUse = false ∧
      (u.fab.port p).since = s.now ∧
      (∀ q, q ≠ p → u.fab.port q = s.fab.port q) ∧
      WorkKept s u) ∧
  (∀ (s : State) (p i : Nat) (ok : BitVec 5),
    p < 48 →
    ((s.fab.port p).state = .train ∨ (s.fab.port p).state = .retrain) →
    4 ≤ litLanes ok →
    (List.range 4).find? (fun i => !ok.getLsbD i) = some i →
    ∃ u, exec (.portTrainDone p ok) s = .next u ∧ (u.fab.port p).state = .ident ∧
      (u.fab.port p).spareInUse = true ∧
      (u.fab.port p).sparedLane = BitVec.ofNat 2 i ∧
      (∀ q, q ≠ p → u.fab.port q = s.fab.port q) ∧
      WorkKept s u) ∧
  (∀ (s : State) (p : Nat) (ok : BitVec 5),
    p < 48 →
    ((s.fab.port p).state = .train ∨ (s.fab.port p).state = .retrain) →
    litLanes ok < 4 →
    ∃ u, exec (.portTrainDone p ok) s = .next u ∧ (u.fab.port p).state = .failed ∧
      (u.fab.port p).trainFails = satInc (s.fab.port p).trainFails ∧
      (u.fab.port p).txBuf = [] ∧ (u.fab.port p).txCur = none ∧
      WorkKept s u) ∧
  (∀ (s : State) (p : Nat) (fl : Flit),
    p < 48 →
    flitOk fl = true →
    (fl.words.filter badParity) = [] →
    fl.ue = false →
    fl.ftype = 3 →
    (s.fab.port p).state = .ident →
    s.fab.idValid = true →
    (fl.word 2 ≠ BitVec.allOnes 32 ∧ fl.word 3 = s.fab.sysid ∧ nbits (fl.word 2).toNat 0 16 = (s.fab.port p).peerDev ∧ nbits (fl.word 2).toNat 16 6 = (s.fab.port p).peerPort) →
    ∃ u, exec (.flitIdentReceive p fl) s = .next u ∧ (u.fab.port p).state = .up ∧
      (u.fab.port p).seenDev = BitVec.ofNat 16 (s.fab.port p).peerDev ∧
      (u.fab.port p).seenPort = BitVec.ofNat 6 (s.fab.port p).peerPort ∧
      (∀ q, q ≠ p → u.fab.port q = s.fab.port q) ∧
      WorkKept s u) ∧
  (∀ (s : State) (p : Nat) (fl : Flit),
    p < 48 →
    flitOk fl = true →
    (fl.words.filter badParity) = [] →
    fl.ue = false →
    fl.ftype = 3 →
    (s.fab.port p).state = .ident →
    s.fab.idValid = true →
    ¬ (fl.word 2 ≠ BitVec.allOnes 32 ∧ fl.word 3 = s.fab.sysid ∧ nbits (fl.word 2).toNat 0 16 = (s.fab.port p).peerDev ∧ nbits (fl.word 2).toNat 16 6 = (s.fab.port p).peerPort) →
    ∃ u, exec (.flitIdentReceive p fl) s = .next u ∧ (u.fab.port p).state = .mismatch ∧
      (u.fab.port p).txBuf = [] ∧ (u.fab.port p).txCur = none ∧
      WorkKept s u) ∧
  (∀ (s : State) (p : Nat),
    p < 48 →
    (s.fab.port p).state = .ident →
    ∃ u, exec (.identSendTick p) s = .next u ∧ u = { s with fab := u.fab, out := u.out } ∧
      u.fab = s.fab.setPort p { s.fab.port p with ackDue := false, owed := SMap.modD (s.fab.port p).owed (s.fab.port p).owes.1 0 (· - (s.fab.port p).owes.2) } ∧
      (u.out = s.out ++ [.flit p (mkFlit 0 (s.fab.port p).rxSeq 3 (s.fab.port p).owes.1 (s.fab.port p).owes.2 [if s.fab.idValid then BitVec.ofNat 32 (s.fab.self + p * 2 ^ 16) else BitVec.allOnes 32, s.fab.sysid])])) ∧
  (∀ (s : State) (p : Nat),
    p < 48 →
    (s.fab.port p).state = .ident →
    (s.fab.port p).identAt + 10000000 ≤ s.now →
    ∃ u, exec (.identTimeout p) s = .next u ∧ (u.fab.port p).state = .train ∧
      (u.fab.port p).since = s.now ∧
      (∀ q, q ≠ p → u.fab.port q = s.fab.port q) ∧
      WorkKept s u) ∧
  (∀ (s : State) (p : Nat),
    p < 48 →
    (s.fab.port p).state = .train →
    (s.fab.port p).since + 30000000 ≤ s.now →
    (s.fab.port p).attempts < 2 →
    ∃ u, exec (.portTrainTimeout p) s = .next u ∧ u.fab.port p = { s.fab.port p with attempts := (s.fab.port p).attempts + 1, trainFails := satInc (s.fab.port p).trainFails, since := s.now } ∧
      (∀ q, q ≠ p → u.fab.port q = s.fab.port q) ∧
      WorkKept s u) ∧
  (∀ (s : State) (p : Nat),
    p < 48 →
    (s.fab.port p).state = .train →
    (s.fab.port p).since + 30000000 ≤ s.now →
    2 ≤ (s.fab.port p).attempts →
    ∃ u, exec (.portTrainTimeout p) s = .next u ∧ (u.fab.port p).state = .failed ∧
      (u.fab.port p).trainFails = satInc (s.fab.port p).trainFails ∧
      (u.fab.port p).txBuf = [] ∧ (u.fab.port p).txCur = none ∧
      WorkKept s u) ∧
  (∀ (s : State) (p : Nat),
    p < 48 →
    (s.fab.port p).state = .retrain →
    (s.fab.port p).since + 5000000 ≤ s.now →
    ∃ u, exec (.portRetrainTimeout p) s = .next u ∧ (u.fab.port p).state = .failed ∧
      (u.fab.port p).trainFails = satInc (s.fab.port p).trainFails ∧
      (u.fab.port p).txBuf = [] ∧ (u.fab.port p).txCur = none ∧
      WorkKept s u) ∧
  (∀ (s : State) (p : Nat) (l : BitVec 5),
    p < 48 →
    ((s.fab.port p).state = .up ∨ (s.fab.port p).state = .train ∨ (s.fab.port p).state = .ident) →
    litLanes ((s.fab.port p).light &&& ~~~l) < 4 →
    ∃ u, exec (.portLightLost p l) s = .next u ∧ (u.fab.port p).state = .down ∧
      (u.fab.port p).light = (s.fab.port p).light &&& ~~~l ∧
      (u.fab.port p).txBuf = [] ∧ (u.fab.port p).txCur = none ∧
      WorkKept s u) ∧
  (∀ (s : State) (p : Nat) (l : BitVec 5),
    p < 48 →
    (s.fab.port p).state = .up →
    4 ≤ litLanes ((s.fab.port p).light &&& ~~~l) →
    ((List.range 5).any fun i => l.getLsbD i && (s.fab.port p).inUse i) = true →
    ∃ u, exec (.portLightLost p l) s = .next u ∧ ((u.fab.port p).state = (if ((s.fab.port p).retrainAt.filter fun t => decide (s.now < t + 1000000000)).length < 2 then .retrain else .failed)) ∧
      (u.fab.port p).light = (s.fab.port p).light &&& ~~~l ∧
      (u.fab.port p).retrains = satInc (s.fab.port p).retrains ∧
      WorkKept s u) ∧
  (∀ (s : State) (p : Nat) (l : BitVec 5),
    p < 48 →
    ((s.fab.port p).state = .down ∨ (s.fab.port p).state = .failed ∨ (s.fab.port p).state = .mismatch) →
    (s.fab.port p).en = true →
    (s.fab.port p).bistBad = false →
    4 ≤ litLanes ((s.fab.port p).light ||| l) →
    ∃ u, exec (.portLightReturn p l) s = .next u ∧ (u.fab.port p).state = .train ∧
      (u.fab.port p).light = (s.fab.port p).light ||| l ∧
      (∀ q, q ≠ p → u.fab.port q = s.fab.port q) ∧
      WorkKept s u)

/-- R236, R250, R252, R254, R256: forwarding. -/
def Obligations.PacketsArePassedOn : Prop :=
  (∀ (s : State) (p q : Nat) (k k2 : Packet),
    p < 48 →
    packetOk k = true →
    s.atHead p k = true →
    k.cls ≠ 4 →
    k.ver = 1 →
    k.dst < 2 ^ 14 →
    k.hop ≤ 4 →
    (p = 3 → k.cls = 3 ∨ k.cls = 5) →
    (q = 3 → k.cls = 3 ∨ k.cls = 5) →
    s.fab.route false k = .send q k2 →
    ∃ u, exec (.packetForward p k) s = .next u ∧ QueuedOn s u q ⟨k2.setF 0 24 3 (k.hop + 1), some p, .job⟩ ∧
      (u.fab.port p).rxPkts = (s.fab.port p).rxPkts.tail ∧
      WorkKept s u) ∧
  (∀ (s : State) (p : Nat) (k : Packet),
    p < 48 →
    packetOk k = true →
    s.atHead p k = true →
    k.cls ≠ 4 →
    k.ver = 1 →
    k.dst < 2 ^ 14 →
    k.hop ≤ 4 →
    (p = 3 → k.cls = 3 ∨ k.cls = 5) →
    s.fab.route false k = .drop →
    ∃ u, exec (.packetForward p k) s = .next u ∧ u.fab.unroutable = s.fab.unroutable + 1 ∧
      (u.fab.port p).rxPkts = (s.fab.port p).rxPkts.tail ∧
      u.out = s.out ∧
      WorkKept s u) ∧
  (∀ (s : State) (p : Nat) (k : Packet),
    p < 48 →
    packetOk k = true →
    s.atHead p k = true →
    k.cls ≠ 4 →
    s.fab.route false k ≠ .deliver →
    (k.ver ≠ 1 ∨ 2 ^ 14 ≤ k.dst ∨ 5 ≤ k.hop ∨ (p = 3 ∧ k.cls ≠ 3 ∧ k.cls ≠ 5)) →
    ∃ u, exec (.packetForward p k) s = .next u ∧ (u.fab.port p).pktErr = satInc (s.fab.port p).pktErr ∧
      (u.fab.port p).rxPkts = (s.fab.port p).rxPkts.tail ∧
      u.out = s.out ∧
      WorkKept s u) ∧
  (∀ (s : State) (p : Nat) (k x : Packet),
    p < 48 →
    packetOk k = true →
    s.atHead p k = true →
    k.cls ≠ 4 →
    s.fab.route false k = .deliver →
    k.noRow = true →
    (p = 3 → k.cls = 5) →
    s.opened k = some x →
    ∃ u, exec (.packetForward p k) s = .next u ∧ (u.fab.port p).pktErr = satInc (s.fab.port p).pktErr ∧
      (u.fab.port p).rxPkts = (s.fab.port p).rxPkts.tail ∧
      u.out = s.out ∧
      WorkKept s u)

/-- R134, R222, R261, R262: requests that other modules make. -/
def Obligations.RequestsOfOtherModulesAreServed : Prop :=
  (∀ (s v : State) (p : Nat) (k x : Packet) (st : Status) (data : Option (List Byte)) (res : OpRes),
    PacketIn s p k x 0 1 →
    (s.takePkt p k).serveOp false x res = (v, .reply st data) →
    exec (.reqRead p k res) s = .next (v.reply x st data)) ∧
  (∀ (s v : State) (p : Nat) (k x : Packet) (w tag : Option Nat) (res : OpRes),
    PacketIn s p k x 0 1 →
    (s.takePkt p k).serveOp false x res = (v, .hold w tag) →
    exec (.reqRead p k res) s = .next ({ v with fab := { v.fab with served := v.fab.served ++ [⟨x, w, tag, res⟩] } })) ∧
  (∀ (s v : State) (p : Nat) (k x : Packet) (st : Status) (data : Option (List Byte)) (res : OpRes),
    PacketIn s p k x 0 2 →
    (s.takePkt p k).serveOp false x res = (v, .reply st data) →
    exec (.reqWrite p k res) s = .next (v.reply x st data)) ∧
  (∀ (s v : State) (p : Nat) (k x : Packet) (w tag : Option Nat) (res : OpRes),
    PacketIn s p k x 0 2 →
    (s.takePkt p k).serveOp false x res = (v, .hold w tag) →
    exec (.reqWrite p k res) s = .next ({ v with fab := { v.fab with served := v.fab.served ++ [⟨x, w, tag, res⟩] } })) ∧
  (∀ (s v : State) (p : Nat) (k x : Packet) (st : Status) (data : Option (List Byte)),
    PacketIn s p k x 0 3 →
    (s.takePkt p k).serveOp false x .ok = (v, .reply st data) →
    exec (.reqPush p k) s = .next (v.reply x st data)) ∧
  (∀ (s v : State) (p : Nat) (k x : Packet) (w tag : Option Nat),
    PacketIn s p k x 0 3 →
    (s.takePkt p k).serveOp false x .ok = (v, .hold w tag) →
    exec (.reqPush p k) s = .next ({ v with fab := { v.fab with served := v.fab.served ++ [⟨x, w, tag, .ok⟩] } })) ∧
  (∀ (s : State) (p j : Nat) (k x : Packet),
    PacketIn s p k x 0 1 →
    (localRange x.addr = .t1 ∨ localRange x.addr = .t2) →
    s.sec.memKeys = true →
    s.mem.find false x.ctx x.addr = some j →
    s.pageDown j = false →
    s.mem.resident j = true →
    (s.mem.page j).poisonIn (x.addr % pageSize) (x.aux % 2 ^ 9) = [] →
    exec (.reqRead p k .ok) s = .next (({ s.takePkt p k with mem := s.mem.setPage j { s.mem.page j with age := 0 } } : State).reply x .ok (some ((s.mem.page j).read (x.addr % pageSize) (x.aux % 2 ^ 9))))) ∧
  (∀ (s : State) (p j : Nat) (k x : Packet),
    PacketIn s p k x 0 2 →
    (localRange x.addr = .t1 ∨ localRange x.addr = .t2) →
    s.sec.memKeys = true →
    s.mem.find false x.ctx x.addr = some j →
    s.pageDown j = false →
    s.mem.resident j = true →
    exec (.reqWrite p k .ok) s = .next (({ s.takePkt p k with mem := s.mem.setPage j ((s.mem.page j).write (x.addr % pageSize) (((wordsToBytes x.pay).drop (x.addr % 4)).take (x.aux % 2 ^ 9))) } : State).reply x .ok none)) ∧
  (∀ (s : State) (p q : Nat) (k x : Packet),
    PacketIn s p k x 0 3 →
    x.addr = q →
    q < 262144 →
    fld (x.pw 9) 0 16 < 25600 →
    s.pushRefused q x.ctx = none →
    (s.fab.pushRecs.any fun r => r.queue = q && r.src = x.src && r.tile = fld (x.pw 9) 0 16) = false →
    (s.fab.served.any fun y => y.pkt.op = 3 && y.pkt.addr = q) = false →
    (s.queue q).full = false →
    localRange ((s.queue q).entryAddr (s.queue q).tail) = .t3 →
    s.t3Denied = false →
    s.hif.linkUp = true →
    ∃ u, exec (.reqPush p k) s = .next u ∧ u.queue q = { s.queue q with tail := (s.queue q).tail + 1 } ∧
      u.fab.pushRecs = s.fab.pushRecs ++ [⟨q, x.src, fld (x.pw 9) 0 16, (x.pw 8).toNat, fld (x.pw 9) 16 16⟩] ∧
      (s.out ++ [.t3Write (t3Addr ((s.queue q).entryAddr (s.queue q).tail)) (pushBytes x.ctx (x.pay.take 8)) false]) <+: u.out ∧
      u.tiles = s.tiles ∧
      u.ctxs = s.ctxs ∧
      u.descs = s.descs ∧
      u.mem = s.mem)

/-- R259 to R262: responses. -/
def Obligations.ResponsesCompleteTheirTransactions : Prop :=
  (∀ (s : State) (p id j n a : Nat) (k x : Packet) (t : Txn),
    PacketIn s p k x 1 1 →
    SMap.get? s.fab.txns x.seqNo.toNat = some t →
    t.dst = x.src →
    t.ctx = x.ctx →
    s.remoteOver t.since = false →
    t.who = .piece id j →
    (s.takePkt p k).pieceFor id j x.seqNo.toNat = some (n, a, true) →
    x.pay.length = ceilDiv (a % 4 + n) 4 →
    Status.ofCode (x.aux % 256) = .ok →
    exec (.rspRdata p k) s = .next (((s.takePkt p k).retireSeq x).gotData id j (((wordsToBytes x.pay).drop (a % 4)).take n) [])) ∧
  (∀ (s : State) (p id j n a : Nat) (k x : Packet) (t : Txn),
    PacketIn s p k x 1 1 →
    SMap.get? s.fab.txns x.seqNo.toNat = some t →
    t.dst = x.src →
    t.ctx = x.ctx →
    s.remoteOver t.since = false →
    t.who = .piece id j →
    (s.takePkt p k).pieceFor id j x.seqNo.toNat = some (n, a, true) →
    x.pay.length = ceilDiv (a % 4 + n) 4 →
    Status.ofCode (x.aux % 256) = .parity →
    exec (.rspRdata p k) s = .next ((((s.takePkt p k).retireSeq x).dataErr id).gotData id j (((wordsToBytes x.pay).drop (a % 4)).take n) (List.range n))) ∧
  (∀ (s : State) (p id j n a : Nat) (k x : Packet) (t : Txn),
    PacketIn s p k x 1 1 →
    SMap.get? s.fab.txns x.seqNo.toNat = some t →
    t.dst = x.src →
    t.ctx = x.ctx →
    s.remoteOver t.since = false →
    t.who = .piece id j →
    (s.takePkt p k).pieceFor id j x.seqNo.toNat = some (n, a, true) →
    x.pay.length = ceilDiv (a % 4 + n) 4 →
    Status.ofCode (x.aux % 256) ≠ .ok →
    Status.ofCode (x.aux % 256) ≠ .parity →
    exec (.rspRdata p k) s = .next (((s.takePkt p k).retireSeq x).failPiece id j (Status.ofCode (x.aux % 256)))) ∧
  (∀ (s : State) (p id j a : Nat) (k x : Packet) (t : Txn) (d : Desc) (b : MoveBody) (r : MoveRun) (y : Piece),
    PacketIn s p k x 1 1 →
    SMap.get? s.fab.txns x.seqNo.toNat = some t →
    t.dst = x.src →
    t.ctx = x.ctx →
    s.remoteOver t.since = false →
    t.who = .piece id j →
    s.desc? id = some d →
    d.body = .move b r →
    r.stop = false →
    SMap.get? r.pieces j = some y →
    y.st = .reading (.remote x.seqNo.toNat) →
    b.srcAt y.row y.off y.plane = some a →
    x.aux % 256 = 0 →
    x.pay.length = ceilDiv (a % 4 + y.n) 4 →
    ∃ u, exec (.rspRdata p k) s = .next u ∧ u.fab.txns = SMap.erase s.fab.txns x.seqNo.toNat ∧
      (u.desc? id = some { d with body := .move b { r with pieces := SMap.adj r.pieces j fun y => { y with st := .have_ (((wordsToBytes x.pay).drop (a % 4)).take y.n) [] } } }) ∧
      (∀ n, n ≠ id → u.desc? n = s.desc? n) ∧
      u.tiles = s.tiles ∧
      u.queues = s.queues ∧
      u.ctxs = s.ctxs ∧
      u.mem = s.mem) ∧
  (∀ (s : State) (p id j n a : Nat) (k x : Packet) (t : Txn),
    PacketIn s p k x 1 2 →
    SMap.get? s.fab.txns x.seqNo.toNat = some t →
    t.dst = x.src →
    t.ctx = x.ctx →
    s.remoteOver t.since = false →
    t.who = .piece id j →
    (s.takePkt p k).pieceFor id j x.seqNo.toNat = some (n, a, false) →
    Status.ofCode (x.aux % 256) = .ok →
    exec (.rspAck p k) s = .next ((((s.takePkt p k).retireSeq x).endPiece id j n).moveCheck id)) ∧
  (∀ (s : State) (p id j n a : Nat) (rd : Bool) (k x : Packet) (t : Txn),
    PacketIn s p k x 1 2 →
    SMap.get? s.fab.txns x.seqNo.toNat = some t →
    t.dst = x.src →
    t.ctx = x.ctx →
    s.remoteOver t.since = false →
    t.who = .piece id j →
    (s.takePkt p k).pieceFor id j x.seqNo.toNat = some (n, a, rd) →
    Status.ofCode (x.aux % 256) ≠ .ok →
    exec (.rspAck p k) s = .next (((s.takePkt p k).retireSeq x).failPiece id j (Status.ofCode (x.aux % 256)))) ∧
  (∀ (s : State) (p l pc : Nat) (k x : Packet) (t : Txn),
    PacketIn s p k x 1 2 →
    SMap.get? s.fab.txns x.seqNo.toNat = some t →
    t.dst = x.src →
    t.ctx = x.ctx →
    s.remoteOver t.since = false →
    t.who = .push l pc →
    exec (.rspAck p k) s = .next ((if Status.ofCode (x.aux % 256) = .ok then ((s.takePkt p k).retireSeq x) else ((s.takePkt p k).retireSeq x).faultTile l (Status.ofCode (x.aux % 256)) pc))) ∧
  (∀ (s : State) (p op : Nat) (k x : Packet) (c : Instr),
    PacketIn s p k x 1 op →
    (op = 1 ∨ op = 2) →
    c = (if op = 1 then .rspRdata p k else .rspAck p k) →
    (match SMap.get? s.fab.txns x.seqNo.toNat with | some t => decide (t.dst ≠ x.src ∨ t.ctx ≠ x.ctx) | none => true) = true →
    exec (c) s = .next ((s.takePkt p k).lateRsp))

/-- R281, R282, R285, R286, R289, R290, R294 (Tables 8.5, 8.13): COLL packets. -/
def Obligations.CollectivePacketsReachTheirInstance : Prop :=
  (∀ (s v : State) (p : Nat) (k x : Packet) (g : CGroup) (f : Fmt) (sg n : Nat),
    CollIn s p k x 1 g v →
    fmtOf (nbits x.addr 40 4) = some f →
    (((v.instOr x.collKey).phase = .write ∨ (v.instOr x.collKey).phase = .past ∨ v.collStale x.collKey = true) → (v.lateShard x.collKey g.rank).isSome = true) →
    (v.instOr x.collKey).roomAt g.rank x.rank (x.aux * fmtBits f / 8) (4 * x.pay.length) = some (sg, n) →
    v.segTaken x.collKey x.rank sg = false →
    (0 < n → ivCovers ((v.instOr x.collKey).inFrom x.rank).got (x.aux * fmtBits f / 8) n = false) →
    exec (.collData p k) s = .next (v.dataIn g (v.instOr x.collKey) x.rank x.fo (x.aux * fmtBits f / 8) ((wordsToBytes x.pay).take n))) ∧
  (∀ (s v : State) (p : Nat) (k x : Packet) (g : CGroup) (f : Fmt),
    CollIn s p k x 1 g v →
    fmtOf (nbits x.addr 40 4) = some f →
    (v.instOr x.collKey).body = none →
    (v.instOr x.collKey).phase = .early →
    v.collStale x.collKey = false →
    v.segTaken x.collKey x.rank ((x.aux * fmtBits f / 8) / segSize) = false →
    ivCovers ((v.instOr x.collKey).inFrom x.rank).got (x.aux * fmtBits f / 8) (4 * x.pay.length) = false →
    ∃ u, exec (.collData p k) s = .next u ∧ ((u.inst? x.collKey).map (fun i => (i.inFrom x.rank).data) = some (((v.instOr x.collKey).inFrom x.rank).data.wrN (x.aux * fmtBits f / 8) (wordsToBytes x.pay))) ∧
      ((u.inst? x.collKey).map (fun i => (i.inFrom x.rank).got) = some (ivAdd ((v.instOr x.collKey).inFrom x.rank).got (x.aux * fmtBits f / 8) (wordsToBytes x.pay).length)) ∧
      u.tiles = s.tiles ∧
      u.queues = s.queues ∧
      u.ctxs = s.ctxs ∧
      u.descs = s.descs ∧
      u.mem = s.mem) ∧
  (∀ (s v : State) (p : Nat) (k x : Packet) (g : CGroup),
    CollIn s p k x 2 g v →
    v.segTaken x.collKey x.rank (x.pw 1).toNat = false →
    ((v.lateShard x.collKey g.rank).filter fun n => decide ((x.pw 1).toNat < segsOf n)) = none →
    ¬ ((v.instOr x.collKey).phase = .write ∨ (v.instOr x.collKey).phase = .past ∨ v.collStale x.collKey = true) →
    exec (.collSegend p k) s = .next ((v.setInst ((v.instOr x.collKey).setIn { (v.instOr x.collKey).inFrom x.rank with pend := ((v.instOr x.collKey).inFrom x.rank).pend ++ [((x.pw 1).toNat, (x.pw 0).toNat, s.now)] })).instCheck x.collKey)) ∧
  (∀ (s v : State) (p : Nat) (k x : Packet) (g : CGroup) (n : Nat),
    CollIn s p k x 2 g v →
    v.segTaken x.collKey x.rank (x.pw 1).toNat = false →
    ((v.lateShard x.collKey g.rank).filter fun n => decide ((x.pw 1).toNat < segsOf n)) = some n →
    exec (.collSegend p k) s = .next (v.lateSegment g x.collKey x.fo x.rank n (x.pw 1).toNat (x.pw 0).toNat)) ∧
  (∀ (s v : State) (p : Nat) (k x : Packet) (g : CGroup),
    CollIn s p k x 2 g v →
    v.doneInst? x.collKey = none →
    v.segTaken x.collKey x.rank (x.pw 1).toNat = false →
    (v.instOr x.collKey).body = none →
    (v.instOr x.collKey).phase = .early →
    ∃ u, exec (.collSegend p k) s = .next u ∧ ((u.inst? x.collKey).map (fun i => (i.inFrom x.rank).pend) = some (((v.instOr x.collKey).inFrom x.rank).pend ++ [((x.pw 1).toNat, (x.pw 0).toNat, s.now)])) ∧
      u.tiles = s.tiles ∧
      u.queues = s.queues ∧
      u.ctxs = s.ctxs ∧
      u.descs = s.descs ∧
      u.mem = s.mem) ∧
  (∀ (s v : State) (p : Nat) (k x : Packet) (g : CGroup),
    CollIn s p k x 4 g v →
    ¬ ((v.instOr x.collKey).phase = .write ∨ (v.instOr x.collKey).phase = .past ∨ v.collStale x.collKey = true) →
    exec (.collGrant p k) s = .next (v.setInst ((v.instOr x.collKey).addGrant g.rank x.rank (x.pw64 0, x.pw64 2)))) ∧
  (∀ (s v : State) (p : Nat) (k x : Packet) (g : CGroup),
    CollIn s p k x 4 g v →
    (v.instOr x.collKey).body = none →
    (v.instOr x.collKey).phase = .early →
    v.collStale x.collKey = false →
    ((v.instOr x.collKey).outs.any fun o => o.rank = x.rank) = false →
    ∃ u, exec (.collGrant p k) s = .next u ∧ ((u.inst? x.collKey).map (fun i => i.outs) = some ((v.instOr x.collKey).outs ++ [⟨x.rank, [((x.pw 0).toNat + (x.pw 1).toNat * 2 ^ 32, (x.pw 2).toNat + (x.pw 3).toNat * 2 ^ 32)], [], [], 0⟩])) ∧
      u.tiles = s.tiles ∧
      u.queues = s.queues ∧
      u.ctxs = s.ctxs ∧
      u.descs = s.descs ∧
      u.mem = s.mem) ∧
  (∀ (s v : State) (p : Nat) (k x : Packet) (g : CGroup),
    CollIn s p k x 5 g v →
    v.collStale x.collKey = false →
    exec (.collCredit p k) s = .next ((v.setInst ((v.instOr x.collKey).addCredit x.rank (x.pw 0).toNat)).sendLeft x.collKey)) ∧
  (∀ (s v : State) (p : Nat) (k x : Packet) (g : CGroup) (i : Inst),
    CollIn s p k x 5 g v →
    v.inst? x.collKey = some i →
    i.phase ≠ .past →
    (i.outs.any fun o => o.rank = x.rank) = true →
    ∃ u, exec (.collCredit p k) s = .next u ∧ (u.inst? x.collKey = some { i with outs := i.outs.map fun o => if o.rank = x.rank then { o with credit := o.credit + (x.pw 0).toNat } else o }) ∧
      u.tiles = s.tiles ∧
      u.queues = s.queues ∧
      u.ctxs = s.ctxs ∧
      u.descs = s.descs ∧
      u.mem = s.mem) ∧
  (∀ (s v : State) (p : Nat) (k x : Packet) (g : CGroup),
    CollIn s p k x 6 g v →
    g.rank = 0 →
    ¬ ((v.instOr x.collKey).phase = .write ∨ (v.instOr x.collKey).phase = .past ∨ v.collStale x.collKey = true) →
    ((v.instOr x.collKey).arrived.any fun a => a.1 = x.rank) = false →
    exec (.collArrive p k) s = .next ((v.setInst (if ((v.instOr x.collKey).body.any fun b => (v.instOr x.collKey).phase = .run && decide (s.now ≥ b.deadline)) then { (v.instOr x.collKey) with late := true } else
      { (v.instOr x.collKey) with arrived := (v.instOr x.collKey).arrived ++ [(x.rank, (x.pw 0).getLsbD 0, (x.pw 0).getLsbD 1)] })).instCheck x.collKey)) ∧
  (∀ (s v : State) (p : Nat) (k x : Packet) (g : CGroup),
    CollIn s p k x 6 g v →
    g.rank = 0 →
    (v.instOr x.collKey).body = none →
    (v.instOr x.collKey).phase = .early →
    v.collStale x.collKey = false →
    ((v.instOr x.collKey).arrived.any fun a => a.1 = x.rank) = false →
    ∃ u, exec (.collArrive p k) s = .next u ∧ ((u.inst? x.collKey).map (fun i => i.arrived) = some ((v.instOr x.collKey).arrived ++ [(x.rank, (x.pw 0).getLsbD 0, (x.pw 0).getLsbD 1)])) ∧
      u.tiles = s.tiles ∧
      u.queues = s.queues ∧
      u.ctxs = s.ctxs ∧
      u.descs = s.descs ∧
      u.mem = s.mem) ∧
  (∀ (s v : State) (p : Nat) (k x : Packet) (g : CGroup),
    CollIn s p k x 7 g v →
    x.rank = 0 →
    ¬ ((v.instOr x.collKey).phase = .write ∨ (v.instOr x.collKey).phase = .past ∨ v.collStale x.collKey = true) →
    (v.instOr x.collKey).decided = none →
    exec (.collDecide p k) s = .next ((v.setInst { (v.instOr x.collKey) with decided := some (x.pw 0) }).instCheck x.collKey)) ∧
  (∀ (s v : State) (p : Nat) (k x : Packet) (g : CGroup),
    CollIn s p k x 7 g v →
    x.rank = 0 →
    (v.instOr x.collKey).body = none →
    (v.instOr x.collKey).phase = .early →
    v.collStale x.collKey = false →
    (v.instOr x.collKey).decided = none →
    ∃ u, exec (.collDecide p k) s = .next u ∧ ((u.inst? x.collKey).map (fun i => i.decided) = some (some (x.pw 0))) ∧
      u.tiles = s.tiles ∧
      u.queues = s.queues ∧
      u.ctxs = s.ctxs ∧
      u.descs = s.descs ∧
      u.mem = s.mem)

/-- R285, R289, R290 (Table 8.13): RESEND, and the deadline of an instance. -/
def Obligations.CollectivesAnswerAndExpire : Prop :=
  (∀ (s v : State) (p : Nat) (k x : Packet) (g : CGroup) (i : Inst) (b : CollBody) (lo n : Nat),
    CollIn s p k x 3 g v →
    v.inst? x.collKey = some i →
    i.body = some b →
    i.sized = true →
    s.now < b.deadline →
    segRange (i.contrib b g.rank x.rank) (if i.result.isSome then i.resultPart b g.rank x.rank else 0) (x.pw 0).toNat = some (lo, n) →
    exec (.collResend p k) s = .next ((v.setInst (i.modOut x.rank fun o => { o with todo := (lo, n) :: ivCut o.todo lo n, sent := ivCut o.sent lo n, ended := o.ended.filter (· ≠ (x.pw 0).toNat) })).sendLeft i.key)) ∧
  (∀ (s v : State) (p : Nat) (k x : Packet) (g : CGroup) (i : Inst) (b : CollBody) (lo n : Nat),
    CollIn s p k x 3 g v →
    v.inst? x.collKey = some i →
    i.body = some b →
    i.phase = .run →
    s.now < b.deadline →
    segRange (i.contrib b g.rank x.rank) (if i.result.isSome then i.resultPart b g.rank x.rank else 0) (x.pw 0).toNat = some (lo, n) →
    ∃ u, exec (.collResend p k) s = .next u ∧ (u.inst? x.collKey = some { i with outs := i.outs.map fun o => if o.rank = x.rank then { o with todo := (lo, n) :: ivCut o.todo lo n, sent := ivCut o.sent lo n, ended := o.ended.filter (· ≠ (x.pw 0).toNat) } else o }) ∧
      u.out = s.out ∧
      u.tiles = s.tiles ∧
      u.queues = s.queues ∧
      u.ctxs = s.ctxs ∧
      u.descs = s.descs ∧
      u.mem = s.mem) ∧
  (∀ (s : State) (id : Nat) (i : Inst) (b : CollBody),
    s.instOf id = some i →
    i.body = some b →
    i.phase = .run →
    i.late = false →
    b.deadline ≤ s.now →
    s.earlier b.deadline = false →
    exec (.collDeadlineExpire id) s = .next ((s.setInst { i with late := true }).instCheck i.key)) ∧
  (∀ (s : State) (id : Nat) (i : Inst) (b : CollBody) (g : CGroup) (d : Desc) (r : CollRun),
    s.instOf id = some i →
    s.inst? i.key = some i →
    i.body = some b →
    b.op = .barrier →
    i.phase = .run →
    i.late = false →
    i.reissue = false →
    i.outs = [] →
    i.err = false →
    b.deadline ≤ s.now →
    s.earlier b.deadline = false →
    s.group? i.key.cgrp = some g →
    g.rank = 0 →
    i.arrived.length < g.members.length →
    s.desc? id = some d →
    d.body = .coll b r →
    r.op = none →
    ∃ u, exec (.collDeadlineExpire id) s = .next u ∧ u.desc? id = some { d with st := .finished, status := d.status.worse .late, detail := BitVec.ofNat 32 i.arrived.length } ∧
      (∀ n, n ≠ id → u.desc? n = s.desc? n) ∧
      u.tiles = s.tiles ∧
      u.queues = s.queues ∧
      u.ctxs = s.ctxs ∧
      u.mem = s.mem)

/-- R277 to R281, R289, R290, R293 (Tables 8.9 to 8.11): the start of the eight collectives. -/
def Obligations.CollectivesStart : Prop :=
  (∀ (s v : State) (q : Nat) (host : Fetched) (bs : List Byte),
    AtEntry s q host v bs 5 1 →
    v.checkColl bs = none →
    exec (.collReduce q host) s = .next ((v.taken q).startQueueColl q (.queue q (v.queue q).fetch) (DescHdr.ofBytes bs) bs)) ∧
  (∀ (s v : State) (q : Nat) (host : Fetched) (bs : List Byte),
    AtEntry s q host v bs 5 2 →
    v.checkColl bs = none →
    exec (.collAllreduce q host) s = .next ((v.taken q).startQueueColl q (.queue q (v.queue q).fetch) (DescHdr.ofBytes bs) bs)) ∧
  (∀ (s v : State) (q : Nat) (host : Fetched) (bs : List Byte),
    AtEntry s q host v bs 5 3 →
    v.checkColl bs = none →
    exec (.collReducescatter q host) s = .next ((v.taken q).startQueueColl q (.queue q (v.queue q).fetch) (DescHdr.ofBytes bs) bs)) ∧
  (∀ (s v : State) (q : Nat) (host : Fetched) (bs : List Byte),
    AtEntry s q host v bs 5 4 →
    v.checkColl bs = none →
    exec (.collAllgather q host) s = .next ((v.taken q).startQueueColl q (.queue q (v.queue q).fetch) (DescHdr.ofBytes bs) bs)) ∧
  (∀ (s v : State) (q : Nat) (host : Fetched) (bs : List Byte),
    AtEntry s q host v bs 5 7 →
    v.checkColl bs = none →
    exec (.collPermute q host) s = .next ((v.taken q).startQueueColl q (.queue q (v.queue q).fetch) (DescHdr.ofBytes bs) bs)) ∧
  (∀ (s v : State) (q : Nat) (host : Fetched) (bs : List Byte),
    AtEntry s q host v bs 5 8 →
    v.checkColl bs = none →
    exec (.collXfer q host) s = .next ((v.taken q).startQueueColl q (.queue q (v.queue q).fetch) (DescHdr.ofBytes bs) bs)) ∧
  (∀ (s v : State) (q : Nat) (host : Fetched) (bs : List Byte),
    AtEntry s q host v bs 5 5 →
    v.checkColl bs = none →
    exec (.collBarrier q host) s = .next ((v.taken q).startQueueColl q (.queue q (v.queue q).fetch) (DescHdr.ofBytes bs) bs)) ∧
  (∀ (s v : State) (q : Nat) (host : Fetched) (bs : List Byte),
    AtEntry s q host v bs 5 6 →
    v.checkColl bs = none →
    exec (.collVote q host) s = .next ((v.taken q).startQueueColl q (.queue q (v.queue q).fetch) (DescHdr.ofBytes bs) bs)) ∧
  (∀ (s v : State) (q : Nat) (host : Fetched) (bs : List Byte) (x : Ctx),
    AtEntry s q host v bs 5 1 →
    v.checkColl bs = none →
    v.ctx? (v.queue q).ctx = some x →
    (v.lensTable (CollBody.ofBytes .reduce bs)).isSome = true →
    exec (.collReduce q host) s = .next (v.started q bs (.coll (CollBody.ofBytes .reduce bs) ⟨(v.queue q).die, (v.taken q).pickEngine (v.queue q).die (CollBody.ofBytes .reduce bs).ssp (CollBody.ofBytes .reduce bs).src (CollBody.ofBytes .reduce bs).dsp (CollBody.ofBytes .reduce bs).dst, x.step, [], false, none, []⟩) .running 0)) ∧
  (∀ (s v : State) (q : Nat) (host : Fetched) (bs : List Byte) (x : Ctx),
    AtEntry s q host v bs 5 2 →
    v.checkColl bs = none →
    v.ctx? (v.queue q).ctx = some x →
    (v.lensTable (CollBody.ofBytes .allreduce bs)).isSome = true →
    exec (.collAllreduce q host) s = .next (v.started q bs (.coll (CollBody.ofBytes .allreduce bs) ⟨(v.queue q).die, (v.taken q).pickEngine (v.queue q).die (CollBody.ofBytes .allreduce bs).ssp (CollBody.ofBytes .allreduce bs).src (CollBody.ofBytes .allreduce bs).dsp (CollBody.ofBytes .allreduce bs).dst, x.step, [], false, none, []⟩) .running 0)) ∧
  (∀ (s v : State) (q : Nat) (host : Fetched) (bs : List Byte) (x : Ctx),
    AtEntry s q host v bs 5 3 →
    v.checkColl bs = none →
    v.ctx? (v.queue q).ctx = some x →
    (v.lensTable (CollBody.ofBytes .reducescatter bs)).isSome = true →
    exec (.collReducescatter q host) s = .next (v.started q bs (.coll (CollBody.ofBytes .reducescatter bs) ⟨(v.queue q).die, (v.taken q).pickEngine (v.queue q).die (CollBody.ofBytes .reducescatter bs).ssp (CollBody.ofBytes .reducescatter bs).src (CollBody.ofBytes .reducescatter bs).dsp (CollBody.ofBytes .reducescatter bs).dst, x.step, [], false, none, []⟩) .running 0)) ∧
  (∀ (s v : State) (q : Nat) (host : Fetched) (bs : List Byte) (x : Ctx),
    AtEntry s q host v bs 5 4 →
    v.checkColl bs = none →
    v.ctx? (v.queue q).ctx = some x →
    (v.lensTable (CollBody.ofBytes .allgather bs)).isSome = true →
    exec (.collAllgather q host) s = .next (v.started q bs (.coll (CollBody.ofBytes .allgather bs) ⟨(v.queue q).die, (v.taken q).pickEngine (v.queue q).die (CollBody.ofBytes .allgather bs).ssp (CollBody.ofBytes .allgather bs).src (CollBody.ofBytes .allgather bs).dsp (CollBody.ofBytes .allgather bs).dst, x.step, [], false, none, []⟩) .running 0)) ∧
  (∀ (s v : State) (q : Nat) (host : Fetched) (bs : List Byte) (x : Ctx),
    AtEntry s q host v bs 5 7 →
    v.checkColl bs = none →
    v.ctx? (v.queue q).ctx = some x →
    (v.lensTable (CollBody.ofBytes .permute bs)).isSome = true →
    exec (.collPermute q host) s = .next (v.started q bs (.coll (CollBody.ofBytes .permute bs) ⟨(v.queue q).die, (v.taken q).pickEngine (v.queue q).die (CollBody.ofBytes .permute bs).ssp (CollBody.ofBytes .permute bs).src (CollBody.ofBytes .permute bs).dsp (CollBody.ofBytes .permute bs).dst, x.step, [], false, none, []⟩) .running 0)) ∧
  (∀ (s v : State) (q : Nat) (host : Fetched) (bs : List Byte) (x : Ctx),
    AtEntry s q host v bs 5 1 →
    v.checkColl bs = none →
    v.ctx? (v.queue q).ctx = some x →
    (v.lensTable (CollBody.ofBytes .reduce bs)) = none →
    (CollBody.ofBytes .reduce bs).count = 0 →
    exec (.collReduce q host) s = .next (v.started q bs (.coll (CollBody.ofBytes .reduce bs) ⟨(v.queue q).die, (v.taken q).pickEngine (v.queue q).die (CollBody.ofBytes .reduce bs).ssp (CollBody.ofBytes .reduce bs).src (CollBody.ofBytes .reduce bs).dsp (CollBody.ofBytes .reduce bs).dst, x.step, [], false, none, []⟩) .finished 0)) ∧
  (∀ (s v : State) (q : Nat) (host : Fetched) (bs : List Byte) (x : Ctx),
    AtEntry s q host v bs 5 2 →
    v.checkColl bs = none →
    v.ctx? (v.queue q).ctx = some x →
    (v.lensTable (CollBody.ofBytes .allreduce bs)) = none →
    (CollBody.ofBytes .allreduce bs).count = 0 →
    exec (.collAllreduce q host) s = .next (v.started q bs (.coll (CollBody.ofBytes .allreduce bs) ⟨(v.queue q).die, (v.taken q).pickEngine (v.queue q).die (CollBody.ofBytes .allreduce bs).ssp (CollBody.ofBytes .allreduce bs).src (CollBody.ofBytes .allreduce bs).dsp (CollBody.ofBytes .allreduce bs).dst, x.step, [], false, none, []⟩) .finished 0)) ∧
  (∀ (s v : State) (q : Nat) (host : Fetched) (bs : List Byte) (x : Ctx),
    AtEntry s q host v bs 5 3 →
    v.checkColl bs = none →
    v.ctx? (v.queue q).ctx = some x →
    (v.lensTable (CollBody.ofBytes .reducescatter bs)) = none →
    (CollBody.ofBytes .reducescatter bs).count = 0 →
    exec (.collReducescatter q host) s = .next (v.started q bs (.coll (CollBody.ofBytes .reducescatter bs) ⟨(v.queue q).die, (v.taken q).pickEngine (v.queue q).die (CollBody.ofBytes .reducescatter bs).ssp (CollBody.ofBytes .reducescatter bs).src (CollBody.ofBytes .reducescatter bs).dsp (CollBody.ofBytes .reducescatter bs).dst, x.step, [], false, none, []⟩) .finished 0)) ∧
  (∀ (s v : State) (q : Nat) (host : Fetched) (bs : List Byte) (x : Ctx),
    AtEntry s q host v bs 5 4 →
    v.checkColl bs = none →
    v.ctx? (v.queue q).ctx = some x →
    (v.lensTable (CollBody.ofBytes .allgather bs)) = none →
    (CollBody.ofBytes .allgather bs).count = 0 →
    exec (.collAllgather q host) s = .next (v.started q bs (.coll (CollBody.ofBytes .allgather bs) ⟨(v.queue q).die, (v.taken q).pickEngine (v.queue q).die (CollBody.ofBytes .allgather bs).ssp (CollBody.ofBytes .allgather bs).src (CollBody.ofBytes .allgather bs).dsp (CollBody.ofBytes .allgather bs).dst, x.step, [], false, none, []⟩) .finished 0)) ∧
  (∀ (s v : State) (q : Nat) (host : Fetched) (bs : List Byte) (x : Ctx),
    AtEntry s q host v bs 5 8 →
    v.checkColl bs = none →
    v.ctx? (v.queue q).ctx = some x →
    (v.lensTable (CollBody.ofBytes .xfer bs)) = none →
    (CollBody.ofBytes .xfer bs).count = 0 →
    exec (.collXfer q host) s = .next (v.started q bs (.coll (CollBody.ofBytes .xfer bs) ⟨(v.queue q).die, (v.taken q).pickEngine (v.queue q).die (CollBody.ofBytes .xfer bs).ssp (CollBody.ofBytes .xfer bs).src (CollBody.ofBytes .xfer bs).dsp (CollBody.ofBytes .xfer bs).dst, x.step, [], false, none, []⟩) .finished 0)) ∧
  (∀ (s v : State) (q : Nat) (host : Fetched) (bs : List Byte) (x : Ctx) (g : CGroup),
    AtEntry s q host v bs 5 8 →
    v.checkColl bs = none →
    v.ctx? (v.queue q).ctx = some x →
    v.group? (CollBody.ofBytes .xfer bs).cgrp = some g →
    v.inst? ⟨(v.queue q).ctx, (CollBody.ofBytes .xfer bs).cgrp, (CollBody.ofBytes .xfer bs).tensor, x.step⟩ = none →
    v.doneInst? ⟨(v.queue q).ctx, (CollBody.ofBytes .xfer bs).cgrp, (CollBody.ofBytes .xfer bs).tensor, x.step⟩ = none →
    (CollBody.ofBytes .xfer bs).count ≠ 0 →
    (CollBody.ofBytes .xfer bs).opr = 0 →
    allBytes (CollBody.ofBytes .xfer bs).f (CollBody.ofBytes .xfer bs).count ≠ 0 →
    ∃ u, exec (.collXfer q host) s = .next u ∧ ((u.inst? ⟨(v.queue q).ctx, (CollBody.ofBytes .xfer bs).cgrp, (CollBody.ofBytes .xfer bs).tensor, x.step⟩).map (fun i => (i.desc, i.body, i.phase)) = some (some v.nextDesc, some (CollBody.ofBytes .xfer bs), .load)) ∧
      u = { v.started q bs (.coll (CollBody.ofBytes .xfer bs) ⟨(v.queue q).die, (v.taken q).pickEngine (v.queue q).die (CollBody.ofBytes .xfer bs).ssp (CollBody.ofBytes .xfer bs).src (CollBody.ofBytes .xfer bs).dsp (CollBody.ofBytes .xfer bs).dst, x.step, [], false, none, []⟩) .running 0 with fab := { v.fab with insts := u.fab.insts } }) ∧
  (∀ (s v : State) (q : Nat) (host : Fetched) (bs : List Byte) (x : Ctx) (g : CGroup),
    AtEntry s q host v bs 5 5 →
    v.checkColl bs = none →
    v.ctx? (v.queue q).ctx = some x →
    v.group? (CollBody.ofBytes .barrier bs).cgrp = some g →
    v.inst? ⟨(v.queue q).ctx, (CollBody.ofBytes .barrier bs).cgrp, (CollBody.ofBytes .barrier bs).tensor, x.step⟩ = none →
    v.doneInst? ⟨(v.queue q).ctx, (CollBody.ofBytes .barrier bs).cgrp, (CollBody.ofBytes .barrier bs).tensor, x.step⟩ = none →
    g.rank ≠ 0 →
    v.rankFenced g (v.queue q).ctx 0 = false →
    ∃ u, exec (.collBarrier q host) s = .next u ∧ ((u.inst? ⟨(v.queue q).ctx, (CollBody.ofBytes .barrier bs).cgrp, (CollBody.ofBytes .barrier bs).tensor, x.step⟩).map (fun i => (i.desc, i.body, i.phase)) = some (some v.nextDesc, some (CollBody.ofBytes .barrier bs), .run)) ∧
      u.desc? v.nextDesc = some ⟨.queue q (v.queue q).fetch, DescHdr.ofBytes bs, .coll (CollBody.ofBytes .barrier bs) ⟨(v.queue q).die, (v.taken q).pickEngine (v.queue q).die (CollBody.ofBytes .barrier bs).ssp (CollBody.ofBytes .barrier bs).src (CollBody.ofBytes .barrier bs).dsp (CollBody.ofBytes .barrier bs).dst, x.step, [], false, none, []⟩, .running, .ok, 0, false, none, false, none, none, none⟩ ∧
      u.tiles = v.tiles ∧
      u.mem = v.mem ∧
      u.ctxs = v.ctxs) ∧
  (∀ (s v : State) (q : Nat) (host : Fetched) (bs : List Byte) (x : Ctx) (g : CGroup),
    AtEntry s q host v bs 5 6 →
    v.checkColl bs = none →
    v.ctx? (v.queue q).ctx = some x →
    v.group? (CollBody.ofBytes .vote bs).cgrp = some g →
    v.inst? ⟨(v.queue q).ctx, (CollBody.ofBytes .vote bs).cgrp, (CollBody.ofBytes .vote bs).tensor, x.step⟩ = none →
    v.doneInst? ⟨(v.queue q).ctx, (CollBody.ofBytes .vote bs).cgrp, (CollBody.ofBytes .vote bs).tensor, x.step⟩ = none →
    g.rank ≠ 0 →
    v.rankFenced g (v.queue q).ctx 0 = false →
    (x.voted && decide (x.voteStep = x.step)) = false →
    ∃ u, exec (.collVote q host) s = .next u ∧ ((u.inst? ⟨(v.queue q).ctx, (CollBody.ofBytes .vote bs).cgrp, (CollBody.ofBytes .vote bs).tensor, x.step⟩).map (fun i => (i.desc, i.body, i.phase)) = some (some v.nextDesc, some (CollBody.ofBytes .vote bs), .run)) ∧
      u.desc? v.nextDesc = some ⟨.queue q (v.queue q).fetch, DescHdr.ofBytes bs, .coll (CollBody.ofBytes .vote bs) ⟨(v.queue q).die, (v.taken q).pickEngine (v.queue q).die (CollBody.ofBytes .vote bs).ssp (CollBody.ofBytes .vote bs).src (CollBody.ofBytes .vote bs).dsp (CollBody.ofBytes .vote bs).dst, x.step, [], false, none, []⟩, .running, .ok, 0, false, none, false, none, none, none⟩ ∧
      u.tiles = v.tiles ∧
      u.mem = v.mem ∧
      u.ctxs = v.ctxs)

/-- R266 to R269: fences and epochs. -/
def Obligations.FencesAndEpochsAreSet : Prop :=
  (∀ (s v : State) (q : Nat) (host : Fetched) (bs : List Byte),
    AtEntry s q host v bs 5 9 →
    v.checkColl bs = none →
    exec (.collFence q host) s = .next (((v.taken q).issueFence (v.queue q).ctx (dn bs 0x14 2)).addDone (.queue q (v.queue q).fetch) (DescHdr.ofBytes bs) .ok 0)) ∧
  (∀ (s v : State) (q : Nat) (host : Fetched) (bs : List Byte),
    AtEntry s q host v bs 5 9 →
    v.checkColl bs = none →
    v.fab.idValid = true →
    dn bs 0x14 2 ≠ v.fab.self →
    v.fab.isFenced (v.queue q).ctx (dn bs 0x14 2) = false →
    v.fab.fences.length < 16384 →
    v.fab.txns = [] →
    v.fab.insts = [] →
    ∃ u, exec (.collFence q host) s = .next u ∧ u.fab.fences = v.fab.fences ++ [⟨(v.queue q).ctx, (v.fab.ctx (v.queue q).ctx).epoch, dn bs 0x14 2⟩] ∧
      u.fab.isFenced (v.queue q).ctx (dn bs 0x14 2) = true ∧
      u.descs = (v.started q bs .none .finished 0).descs ∧
      u.tiles = v.tiles ∧
      u.mem = v.mem ∧
      u.ctxs = v.ctxs) ∧
  (∀ (s v : State) (q : Nat) (host : Fetched) (bs : List Byte),
    AtEntry s q host v bs 5 10 →
    v.checkColl bs = none →
    v.launchesOf (v.queue q).ctx = [] →
    (v.fab.insts.any fun i => i.isOpen && i.key.ctx = (v.queue q).ctx) = false →
    exec (.collEpochset q host) s = .next (((v.taken q).setEpoch (v.queue q).ctx (BitVec.ofNat 32 (dn bs 0x14 4))).addDone (.queue q (v.queue q).fetch) (DescHdr.ofBytes bs) .ok 0)) ∧
  (∀ (s v : State) (q : Nat) (host : Fetched) (bs : List Byte),
    AtEntry s q host v bs 5 10 →
    v.checkColl bs = none →
    v.launchesOf (v.queue q).ctx = [] →
    (v.fab.insts.any fun i => i.isOpen && i.key.ctx = (v.queue q).ctx) = false →
    v.fab.late = [] →
    ∃ u, exec (.collEpochset q host) s = .next u ∧ (u.fab.ctx (v.queue q).ctx) = { v.fab.ctx (v.queue q).ctx with epoch := BitVec.ofNat 32 (dn bs 0x14 4), fenced := false } ∧
      (u.fab.fences = v.fab.fences.filter fun x => x.ctx ≠ (v.queue q).ctx) ∧
      (∀ c, c ≠ (v.queue q).ctx → u.fab.ctx c = v.fab.ctx c) ∧
      u.descs = (v.started q bs .none .finished 0).descs ∧
      u.tiles = v.tiles ∧
      u.mem = v.mem ∧
      u.ctxs = v.ctxs) ∧
  (∀ (s v : State) (q : Nat) (host : Fetched) (bs : List Byte),
    AtEntry s q host v bs 5 10 →
    v.checkColl bs = none →
    (v.launchesOf (v.queue q).ctx ≠ [] ∨ (v.fab.insts.any fun i => i.isOpen && i.key.ctx = (v.queue q).ctx) = true) →
    exec (.collEpochset q host) s = .next ((v.taken q).addDone (.queue q (v.queue q).fetch) (DescHdr.ofBytes bs) .busy 0)) ∧
  (∀ (s : State) (p : Nat) (k x : Packet),
    p < 48 →
    packetOk k = true →
    s.atHead p k = true →
    k.cls = 4 →
    p ≠ 3 →
    k.check = none →
    s.opened k = some x →
    fld (x.pw 0) 14 18 = 0 →
    fld (x.pw 1) 14 18 = 0 →
    (s.fab.isFenced k.ctx k.src && decide (k.epoch = (s.fab.ctx k.ctx).epoch)) = false →
    (s.fab.fenceKeys.any fun e => e.1 = ⟨k.ctx, k.epoch, fld (x.pw 0) 0 16⟩ && decide (s.now < e.2 + secNs)) = false →
    exec (.fencePacket p k) s = .next ((((s.takePkt p k).addFenceKey ⟨k.ctx, k.epoch, fld (x.pw 0) 0 16⟩).passFence p k).takeFence x)) ∧
  (∀ (s : State) (p : Nat) (k x : Packet),
    p < 48 →
    packetOk k = true →
    s.atHead p k = true →
    k.cls = 4 →
    p ≠ 3 →
    k.check = none →
    s.opened k = some x →
    fld (x.pw 0) 14 18 = 0 →
    fld (x.pw 1) 14 18 = 0 →
    (s.fab.isFenced k.ctx k.src && decide (k.epoch = (s.fab.ctx k.ctx).epoch)) = false →
    (s.fab.fenceKeys.any fun e => e.1 = ⟨k.ctx, k.epoch, fld (x.pw 0) 0 16⟩ && decide (s.now < e.2 + secNs)) = true →
    exec (.fencePacket p k) s = .next ((s.takePkt p k))) ∧
  (∀ (s : State) (p dev : Nat) (k x : Packet) (c : Ctx),
    p < 48 →
    packetOk k = true →
    s.atHead p k = true →
    k.cls = 4 →
    p ≠ 3 →
    k.check = none →
    s.opened k = some x →
    fld (x.pw 0) 14 18 = 0 →
    fld (x.pw 1) 14 18 = 0 →
    (s.fab.isFenced k.ctx k.src && decide (k.epoch = (s.fab.ctx k.ctx).epoch)) = false →
    x.pw 0 = BitVec.ofNat 32 dev →
    dev < 2 ^ 14 →
    (s.fab.fenceKeys.any fun e => e.1 = ⟨k.ctx, k.epoch, dev⟩) = false →
    s.fab.fenceKeys.length < 4096 →
    s.wrongEpoch k = false →
    s.fab.idValid = true →
    dev ≠ s.fab.self →
    s.fab.isFenced k.ctx dev = false →
    s.fab.fences.length < 16384 →
    s.fab.txns = [] →
    s.fab.insts = [] →
    s.ctx? k.ctx = some c →
    (s.part? c.part).bind (·.hang) = none →
    ∃ u, exec (.fencePacket p k) s = .next u ∧ u.fab.fences = s.fab.fences ++ [⟨k.ctx, k.epoch, dev⟩] ∧
      u.fab.fenceKeys = s.fab.fenceKeys ++ [(⟨k.ctx, k.epoch, dev⟩, s.now)] ∧
      u.fab.fenceRec = satInc s.fab.fenceRec ∧
      WorkKept s u) ∧
  (∀ (s : State) (c dev : Nat) (ep : W32),
    c < 1024 →
    dev < 2 ^ 14 →
    ∃ u, exec (.fenceKeyAgeOut c ep dev) s = .next u ∧ (∀ e ∈ u.fab.fenceKeys, e.1 = ⟨c, ep, dev⟩ → s.now < e.2 + 1000000000) ∧
      (∀ e ∈ s.fab.fenceKeys, e.1 ≠ ⟨c, ep, dev⟩ → e ∈ u.fab.fenceKeys) ∧
      u = { s with fab := { s.fab with fenceKeys := u.fab.fenceKeys } })

/-- R318 to R320: commits. R314, R317, R321, R323: slots and cycles. -/
def Obligations.CommitsTakeEffectAndSlotsOpen : Prop :=
  (∀ (s : State) (tee : Bool),
    HostMay s .sch tee →
    exec (.schCommit tee) s = .next (State.recordRes 0 0xA00000 (s.schCtl 0x80000000))) ∧
  (∀ (s : State) (e : Nat),
    s.sch.pend = some e →
    e ≤ s.now →
    exec (.schCommitEffect) s = .next (s.commitEffect e)) ∧
  (∀ (s : State) (e : Nat),
    s.sch.pend = none ∨ (s.sch.pend = some e ∧ s.now < e) →
    exec (.schCommitEffect) s = .next (s)) ∧
  (∀ (s : State) (tee : Bool),
    HostMay s .sch tee →
    s.loadSch = false →
    s.bankCheck s.bankShadow = none →
    s.sch.pend = none →
    exec (.schCommit tee) s = .next ({ s with sch := { s.sch with pend := some s.commitAt } })) ∧
  (∀ (s : State) (e : Nat),
    s.sch.pend = some e →
    e ≤ s.now →
    ∃ u, exec (.schCommitEffect) s = .next u ∧ u.sch.bank = !s.sch.bank ∧
      u.sch.pend = none ∧
      u.sch.cycT = e ∧
      u.sch.slots = [] ∧
      u.sch.opened = [] ∧
      u.sch.bankA = s.sch.bankA ∧
      u.sch.bankB = s.sch.bankB ∧
      u.tiles = s.tiles ∧
      u.descs = s.descs ∧
      u.mem = s.mem) ∧
  (∀ (s : State) (i : Nat),
    i < 512 →
    exec (.slotOpen i) s = .next (s.slotOpen i)) ∧
  (∀ (s : State) (i : Nat),
    i < 512 →
    exec (.slotClose i) s = .next (s.slotClose i)) ∧
  (∀ (s : State),
    exec (.cycleBoundary) s = .next (s.cycleNext)) ∧
  (∀ (s : State) (i : Nat),
    i < 512 →
    s.tableOn = true →
    i < bankCount s.bankNow →
    (bankEntry s.bankNow i).len ≠ 0 →
    s.sch.opened.contains i = false →
    s.sch.cycT + (bankEntry s.bankNow i).off ≤ s.now →
    s.sch.pend = none →
    s.partOpen (bankEntry s.bankNow i).part = false ∨ s.sch.cycT + (bankEntry s.bankNow i).off + (bankEntry s.bankNow i).len ≤ s.now →
    exec (.slotOpen i) s = .next (({ s with sch := { s.sch with opened := s.sch.opened ++ [i] } } : State).countSkip i (bankEntry s.bankNow i).ctx)) ∧
  (∀ (s : State) (i : Nat),
    i < 512 →
    s.sch.opened.contains i = false ∨ s.now < s.sch.cycT + (bankEntry s.bankNow i).off + (bankEntry s.bankNow i).len →
    exec (.slotClose i) s = .next (s)) ∧
  (∀ (s : State) (i : Nat) (x : Ctx),
    i < 512 →
    s.tableOn = true →
    i < bankCount s.bankNow →
    (bankEntry s.bankNow i).len ≠ 0 →
    s.sch.opened.contains i = false →
    s.sch.pend = none →
    s.sch.cycT + (bankEntry s.bankNow i).off ≤ s.now →
    s.now < s.sch.cycT + (bankEntry s.bankNow i).off + (bankEntry s.bankNow i).len →
    s.partOpen (bankEntry s.bankNow i).part = true →
    s.heldByOther (bankEntry s.bankNow i).part (bankEntry s.bankNow i).ctx = false →
    (s.schPart (bankEntry s.bankNow i).part).holder = .idle →
    s.ctx? (bankEntry s.bankNow i).ctx = some x →
    x.bstep = false →
    x.preempted = none →
    x.preempting = none →
    (x.flt = .run ∨ x.flt = .suspect) →
    (s.fab.ctx (bankEntry s.bankNow i).ctx).fenced = false →
    s.backfilling (bankEntry s.bankNow i).part (bankEntry s.bankNow i).ctx = [] →
    (s.ctxs.any fun y => y.1 ≠ (bankEntry s.bankNow i).ctx && y.2.preempting = some .sch && (y.2.part = (bankEntry s.bankNow i).part || y.1 = (bankEntry s.bankNow i).bfctx)) = false →
    (s.launchWaits (bankEntry s.bankNow i).part (bankEntry s.bankNow i).ctx).2 = true →
    ∃ u, exec (.slotOpen i) s = .next u ∧ u.sch.opened = s.sch.opened ++ [i] ∧
      ((u.ctx? (bankEntry s.bankNow i).ctx).map (fun y => (y.bstep, y.bstepVer, y.bstepSlot)) = some (true, x.admVer, some (some i, s.now))) ∧
      (u.schPart (bankEntry s.bankNow i).part).holder = .slot (bankEntry s.bankNow i).ctx ∧
      u.tiles = s.tiles ∧
      u.queues = s.queues ∧
      u.descs = s.descs ∧
      u.mem = s.mem) ∧
  (∀ (s : State) (i t : Nat) (x : Ctx),
    i < 512 →
    s.sch.opened.contains i = true →
    s.sch.cycT + (bankEntry s.bankNow i).off + (bankEntry s.bankNow i).len ≤ s.now →
    s.ctx? (bankEntry s.bankNow i).ctx = some x →
    x.bstep = true →
    x.bstepSlot = some (some i, t) →
    x.overSince = none →
    (s.schPart (bankEntry s.bankNow i).part).opening = none →
    ∃ u, exec (.slotClose i) s = .next u ∧ (u.ctx? (bankEntry s.bankNow i).ctx) = some { x with overSince := some (s.sch.cycT + (bankEntry s.bankNow i).off + (bankEntry s.bankNow i).len), overruns := satInc x.overruns } ∧
      (SMap.getD u.sch.slots i SlotStat.reset).overruns = satInc (SMap.getD s.sch.slots i SlotStat.reset).overruns ∧
      u.tiles = s.tiles ∧
      u.queues = s.queues ∧
      u.descs = s.descs ∧
      u.mem = s.mem) ∧
  (∀ (s : State),
    s.tableOn = true →
    s.sch.cycT + bankCycle s.bankNow ≤ s.now →
    s.sch.pend = none →
    ∃ u, exec (.cycleBoundary) s = .next u ∧ u.sch.cycT = s.sch.cycT + bankCycle s.bankNow ∧
      u.sch.cycles = s.sch.cycles + 1 ∧
      u.sch.opened = [] ∧
      u.sch.bank = s.sch.bank ∧
      u.tiles = s.tiles ∧
      u.queues = s.queues ∧
      u.descs = s.descs ∧
      u.mem = s.mem)

/-- R154, R330, R331, R334, R335, R339: commands of SCH_CTX_CMD and what follows them. -/
def Obligations.ContextsArePreemptedResumedAndSwitched : Prop :=
  (∀ (s : State) (c : Nat) (tee : Bool),
    c < 1024 →
    HostMay s .sch tee →
    exec (.schPreempt c tee) s = .next (State.recordRes 0 (0xA40014 + 0x40 * c) (s.schCmd c 0x80000000))) ∧
  (∀ (s : State) (c : Nat) (tee : Bool),
    c < 1024 →
    HostMay s .sch tee →
    exec (.schResume c tee) s = .next (State.recordRes 0 (0xA40014 + 0x40 * c) (s.schCmd c 0x40000000))) ∧
  (∀ (s : State) (c : Nat) (v : W16) (tee : Bool),
    c < 1024 →
    HostMay s .sch tee →
    exec (.schSwitch c v tee) s = .next (State.recordRes 0 (0xA40014 + 0x40 * c) (s.schCmd c (0x10000#32 ||| v.setWidth 32)))) ∧
  (∀ (s : State) (c : Nat),
    c < 1024 →
    exec (.preemptComplete c) s = .next (s.preemptDone c)) ∧
  (∀ (s : State) (c : Nat),
    c < 1024 →
    exec (.layerRelease c) s = .next (s.layerRelease c)) ∧
  (∀ (s : State) (c : Nat) (tee : Bool) (x : Ctx),
    c < 1024 →
    HostMay s .sch tee →
    s.loadSch = false →
    s.loadCtx c = false →
    s.ctx? c = some x →
    s.openDue s.now = s →
    x.preempted = none →
    x.preempting = none →
    s.slotPart x.part = false →
    (s.part? x.part).bind (·.hang) = none →
    ∃ u, exec (.schPreempt c tee) s = .next u ∧ ((u.ctx? c).map (fun y => (y.preempting, y.bstep)) = some (some .host, false)) ∧
      (∀ g ∈ u.sigs, g.ctx ≠ c) ∧
      (∀ e ∈ u.fab.txns, e.2.ctx ≠ c)) ∧
  (∀ (s : State) (c : Nat) (x : Ctx) (who : Preempter),
    c < 1024 →
    s.ctx? c = some x →
    x.preempting = some who →
    (s.schPart x.part).opening = none →
    ∃ u, exec (.preemptComplete c) s = .next u ∧ u.ctx? c = some { x with preempting := none, preempted := some who, preempts := satInc x.preempts } ∧
      u.tiles = s.tiles ∧
      u.queues = s.queues ∧
      u.descs = s.descs ∧
      u.mem = s.mem) ∧
  (∀ (s : State) (c : Nat) (tee : Bool) (x : Ctx) (y : Part),
    c < 1024 →
    HostMay s .sch tee →
    s.loadSch = false →
    s.loadCtx c = false →
    s.ctx? c = some x →
    x.preempting = none →
    s.part? x.part = some y →
    y.st = .run →
    x.preempted = some .host →
    x.flt ≠ .faulted →
    ∃ u, exec (.schResume c tee) s = .next u ∧ u.ctx? c = some { x with preempted := none, replaying := true } ∧
      (∀ q, (s.queue q).bound = true → (s.queue q).ctx = c → u.queue q = { s.queue q with fetch := (s.queue q).head, done := (s.queue q).head, fin := [] }) ∧
      (∀ q, (s.queue q).ctx ≠ c → u.queue q = s.queue q) ∧
      u.tiles = s.tiles ∧
      u.descs = s.descs ∧
      u.mem = s.mem) ∧
  (∀ (s : State) (c : Nat) (ver : W16) (tee : Bool) (x : Ctx),
    c < 1024 →
    HostMay s .sch tee →
    s.loadSch = false →
    s.loadCtx c = false →
    s.ctx? c = some x →
    s.openDue (s.now + 1) = s →
    x.serve = true →
    ver = x.admVer + 1 →
    x.switching = false →
    x.lcount ≠ 0 →
    ∃ u, exec (.schSwitch c ver tee) s = .next u ∧ ((u.ctx? c).map (fun y => (y.admVer, y.switching, y.replaced, y.released)) = some (ver, true, 0, 0)) ∧
      u.tiles = s.tiles ∧
      u.queues = s.queues ∧
      u.descs = s.descs ∧
      u.mem = s.mem) ∧
  (∀ (s : State) (c l : Nat) (x : Ctx),
    c < 1024 →
    s.ctx? c = some x →
    x.switching = true →
    (List.range x.lcount).find? (fun l => !(s.layer x l).released) = some l →
    x.bstep = false →
    ∃ u, exec (.layerRelease c) s = .next u ∧ (u.ctx? c).map (·.released) = some (x.released + 1) ∧
      (u.layer x l).released = true ∧
      u.tiles = s.tiles ∧
      u.queues = s.queues ∧
      u.descs = s.descs ∧
      u.mem = s.mem)

/-- R53, R54, R56, R273 to R275 (Table 2.4): reference time. That T2 of an answer is the time at which it is queued is the model's choice (log entry 81). -/
def Obligations.TimeIsExchangedAndRead : Prop :=
  (∀ (s : State),
    s.fab.idValid = true →
    exec (.treqSendTick) s = .next ((if s.fab.onBackup = true ∧ s.fab.backup ≠ s.fab.primary then (s.sendTreq s.fab.primary.toNat).sendTreq s.fab.backup.toNat else s.sendTreq s.fab.primary.toNat))) ∧
  (∀ (s : State),
    s.fab.idValid = false →
    exec (.treqSendTick) s = .next (s)) ∧
  (∀ (s : State) (p : Nat),
    s.fab.idValid = true →
    s.fab.onBackup = false →
    p = s.fab.primary.toNat →
    p ≠ 3 →
    SMap.get? s.fab.treqs p = none →
    s.fab.isUp p = true →
    ∃ u, exec (.treqSendTick) s = .next u ∧ u.fab.treqs = SMap.set s.fab.treqs p s.now ∧
      QueuedOn s u p ⟨mkPacket 3 1 s.fab.self (s.fab.port p).peerDev 0 0 0 0 0 (words64 s.now), none, .job⟩ ∧
      WorkKept s u ∧
      u.time = s.time) ∧
  (∀ (s : State) (p : Nat) (k x : Packet),
    PacketIn s p k x 3 1 →
    exec (.timeTreq p k) s = .next ((s.takePkt p k).queueOn p .job (mkPacket 3 2 s.fab.self x.src 0 0 0 0 0 (x.pay.take 2 ++ words64 s.now ++ words64 s.now ++ [BitVec.ofNat 32 (rtCode s.time.st), BitVec.ofNat 32 (ofS 32 s.time.offset)])))) ∧
  (∀ (s : State) (p op t1 : Nat) (k x : Packet),
    PacketIn s p k x 3 op →
    op ≠ 1 →
    SMap.get? s.fab.treqs p = some t1 →
    exec (.timeTrsp p k) s = .next ((if (decide (x.pw64 0 = t1) && decide (s.now ≤ t1 + 100000) && decide ((timeExchange (x.pw64 0) (x.pw64 2) (x.pw64 4) s.now (x.pw 7).toInt).2 ≤ s.fab.dmax.toNat * 100) && decide (s.fab.dmax ≠ 0) && ((x.pw 6).getLsbD 3 || decide (fld (x.pw 6) 0 3 = 2))) = true then (s.takePkt p k).goodExchange p (timeExchange (x.pw64 0) (x.pw64 2) (x.pw64 4) s.now (x.pw 7).toInt).1 (timeExchange (x.pw64 0) (x.pw64 2) (x.pw64 4) s.now (x.pw 7).toInt).2 else (s.takePkt p k).badExchange p))) ∧
  (∀ (s : State) (p op : Nat) (k x : Packet),
    PacketIn s p k x 3 op →
    op ≠ 1 →
    SMap.get? s.fab.treqs p = none →
    exec (.timeTrsp p k) s = .next ((s.takePkt p k))) ∧
  (∀ (s : State) (p t1 : Nat) (k x : Packet),
    PacketIn s p k x 3 2 →
    SMap.get? s.fab.treqs p = some t1 →
    x.pw64 0 = t1 →
    s.now ≤ t1 + 100000 →
    (timeExchange (x.pw64 0) (x.pw64 2) (x.pw64 4) s.now (x.pw 7).toInt).2 ≤ s.fab.dmax.toNat * 100 →
    s.fab.dmax ≠ 0 →
    fld (x.pw 6) 0 3 = 2 →
    s.time.st = .locked →
    -1000 ≤ (timeExchange (x.pw64 0) (x.pw64 2) (x.pw64 4) s.now (x.pw 7).toInt).1 →
    (timeExchange (x.pw64 0) (x.pw64 2) (x.pw64 4) s.now (x.pw 7).toInt).1 ≤ 1000 →
    ∃ u, exec (.timeTrsp p k) s = .next u ∧ u.time.st = .locked ∧
      u.time.offset = (timeExchange (x.pw64 0) (x.pw64 2) (x.pw64 4) s.now (x.pw 7).toInt).1 ∧
      u.time.slew = -(timeExchange (x.pw64 0) (x.pw64 2) (x.pw64 4) s.now (x.pw 7).toInt).1 ∧
      u.time.lastValid = s.now ∧
      u.time.now = s.now ∧
      u.fab.valid = s.fab.valid + 1 ∧
      u.fab.treqs = SMap.erase s.fab.treqs p ∧
      WorkKept s u) ∧
  (∀ (s : State),
    s.time.st = .locked →
    s.time.lastValid + 250000000 ≤ s.now →
    exec (.rtHoldoverTimeout) s = .next ({ s with time := { s.time with st := .holdover } })) ∧
  (∀ (s : State) (tee : Bool),
    s.barShut tee = false →
    exec (.rtNowLoRead .host tee) s = .next ({ s with time := { s.time with hostLatch := BitVec.ofNat 32 (s.now / 2 ^ 32) }, out := s.out ++ [.hostRead 0 0x200100 (BitVec.ofNat 64 (s.now % 2 ^ 32))] })) ∧
  (∀ (s : State) (two tee : Bool),
    exec (.rtNowLoRead (.hearth two) tee) s = .next ({ s with time := (if two then { s.time with hearthLatch2 := BitVec.ofNat 32 (s.now / 2 ^ 32) } else { s.time with hearthLatch := BitVec.ofNat 32 (s.now / 2 ^ 32) }), out := s.out ++ [.hearthRead two 0x100 (BitVec.ofNat 32 (s.now % 2 ^ 32))] })) ∧
  (∀ (s : State) (two tee : Bool),
    exec (.rtNowLoRead (.hearthHi two) tee) s = .next ({ s with out := s.out ++ [.hearthRead two 0x104 (if two then s.time.hearthLatch2 else s.time.hearthLatch)] }))

/-- R250, R255, R297, R444: control-class packets. That a CWRITE meets the free precondition of a BIST is the model's choice (log entry 165). -/
def Obligations.ControlPacketsReachRegisters : Prop :=
  (∀ (s : State) (p : Nat) (k x : Packet) (os : List Nat),
    PacketIn s p k x 5 1 →
    x.ctrlOffs = some os →
    exec (.ctrlCread p k) s = .next ((if (!s.ctrlOpen || os.any fun o => (regAt 0 o).any fun r => !r.1.ownerRead) = true then (s.takePkt p k).ctrlReply x .denied [] else (s.takePkt p k).ctrlReply x .ok (os.map ((s.takePkt p k).regRead .owner 0))))) ∧
  (∀ (s : State) (p : Nat) (k x : Packet) (os : List Nat),
    PacketIn s p k x 5 1 →
    x.ctrlOffs = some os →
    s.ctrlOpen = true →
    (os.any fun o => (regAt 0 o).any fun r => !r.1.ownerRead) = false →
    exec (.ctrlCread p k) s = .next ((s.takePkt p k).send .job (mkPacket 5 3 s.fab.self x.src 0 0 0 0 0 (os.map ((s.takePkt p k).regRead .owner 0))))) ∧
  (∀ (s : State) (p op : Nat) (k x : Packet) (c : Instr),
    PacketIn s p k x 5 op →
    (op = 1 ∧ c = .ctrlCread p k ∨ op = 2 ∧ c = .ctrlCwrite p k) →
    x.ctrlOffs = none →
    exec (c) s = .next ((s.takePkt p k).ctrlReply x .range [])) ∧
  (∀ (s : State) (p : Nat) (k x : Packet) (os : List Nat),
    PacketIn s p k x 5 2 →
    x.ctrlOffs = some os →
    exec (.ctrlCwrite p k) s = .next ((if s.ctrlOpen = false then (s.takePkt p k).ctrlReply x .denied [] else if (os.any fun o => (regAt 0 o).isNone) = true then (s.takePkt p k).ctrlReply x .range []
      else if (os.any fun o => (regAt 0 o).any fun r => !r.1.ownerWrite) = true then (s.takePkt p k).ctrlReply x .denied []
      else ((s.takePkt p k).ctrlWords x os).1.ctrlReply x (((s.takePkt p k).ctrlWords x os).2.getD .ok) []))) ∧
  (∀ (s : State) (p : Nat) (k x : Packet),
    PacketIn s p k x 5 3 →
    exec (.ctrlCrsp p k) s = .next ((s.takePkt p k))) ∧
  (∀ (s : State) (p : Nat) (k x : Packet),
    PacketIn s p k x 5 4 →
    x.src / 32 = s.fab.group →
    x.src % 32 ≠ s.fab.pos →
    exec (.lstateReceive p k) s = .next ({ (s.takePkt p k) with fab := { (s.takePkt p k).fab with glstate := (s.fab.glstate.filter fun h => h / 16 ≠ x.src % 32) ++ (((List.range 16).map (16 * (x.src % 32) + ·)).filter fun h => (x.pw (h / 32)).getLsbD (h % 32)) } })) ∧
  (∀ (s : State) (p : Nat) (k x : Packet),
    PacketIn s p k x 5 4 →
    (x.src / 32 ≠ s.fab.group ∨ x.src % 32 = s.fab.pos) →
    exec (.lstateReceive p k) s = .next ((s.takePkt p k).badPkt p)) ∧
  (∀ (s : State),
    s.fab.idValid = true →
    exec (.lstateSendTick) s = .next ((((SMap.keys s.fab.locals).filter fun q => q ≠ s.fab.pos && (s.fab.localEnt q).isSome).foldl (fun (t : State) q => t.send .job (mkPacket 5 4 s.fab.self (s.fab.group * 32 + q) 0 0 0 0 0 (linkWords s.fab.links))) s))) ∧
  (∀ (s : State) (q p : Nat) (key : List Byte),
    s.fab.idValid = true →
    s.sealKey 5 = some key →
    (SMap.keys s.fab.locals).filter (fun x => x ≠ s.fab.pos && (s.fab.localEnt x).isSome) = [q] →
    p ≠ 3 →
    s.fab.route true ((mkPacket 5 4 s.fab.self (s.fab.group * 32 + q) 0 0 0 0 0 (linkWords s.fab.links)).seal key) = .send p ((mkPacket 5 4 s.fab.self (s.fab.group * 32 + q) 0 0 0 0 0 (linkWords s.fab.links)).seal key) →
    ∃ u, exec (.lstateSendTick) s = .next u ∧ QueuedOn s u p ⟨(mkPacket 5 4 s.fab.self (s.fab.group * 32 + q) 0 0 0 0 0 (linkWords s.fab.links)).seal key, none, .job⟩ ∧
      WorkKept s u)

/-- R345, R346, R349, R350, R352 to R355: the phases of a load. -/
def Obligations.LoadsRunTheirPhases : Prop :=
  (∀ (s : State) (vec : Nat) (irqen tee : Bool),
    vec < 2048 →
    HostMay s .dev tee →
    exec (.loadStart vec irqen tee) s = .next (State.recordRes 0 0xC01010 (s.loadCtl (loadCtlWord true false vec irqen)))) ∧
  (∀ (s : State) (vec : Nat) (irqen tee : Bool),
    vec < 2048 →
    HostMay s .dev tee →
    exec (.loadAbort vec irqen tee) s = .next (State.recordRes 0 0xC01010 (s.loadCtl (loadCtlWord false true vec irqen)))) ∧
  (∀ (s : State) (vec : Nat) (irqen tee : Bool),
    vec < 2048 →
    HostMay s .dev tee →
    s.load.st = .idle →
    s.loadLocked = false →
    s.hif.agreed ≠ 0 →
    s.load.addr.toNat + s.load.len.toNat ≤ 2 ^ 44 →
    exec (.loadStart vec irqen tee) s = .next ({ s with load := { s.load with vec := vec, irqen := irqen, st := .check, since := s.now, abi := s.hif.agreed, record := s.flt.retired, staged := none } })) ∧
  (∀ (s : State) (vec : Nat) (irqen tee : Bool),
    vec < 2048 →
    HostMay s .dev tee →
    s.load.st = .check →
    ∃ u, exec (.loadAbort vec irqen tee) s = .next u ∧ u.load.st = .idle ∧
      u.load.err = true ∧
      u.load.lastErr = .abandoned ∧
      u.load.vec = vec ∧
      u.load.frame = s.load.frame ∧
      u.load.program = s.load.program ∧
      u.load.id = s.load.id ∧
      u.load.partials = s.load.partials ∧
      WorkKept s u) ∧
  (∀ (s : State) (g : Staged) (vec : Nat) (irqen tee : Bool),
    vec < 2048 →
    HostMay s .dev tee →
    s.load.st = .apply →
    s.load.staged = some g →
    exec (.loadAbort vec irqen tee) s = .next (({ s with load := { s.load with vec := vec, irqen := irqen } } : State).applyFail g .abandoned 0 0)) ∧
  (∀ (s : State) (e : HostErr),
    s.loadRuns .check = true →
    exec (.loadCheckDone (.failed e)) s = .next (s.loadFail (if s.t3Denied then .denied else e.status) 0 0)) ∧
  (∀ (s : State) (c : Container) (st : Status) (i o : Nat),
    c.hdr.length = 128 →
    c.sig.length = 256 →
    s.loadRuns .check = true →
    s.t3Denied = false →
    s.containerChk c = some (st, i, o) →
    exec (.loadCheckDone (.read c)) s = .next (s.loadFail st i o)) ∧
  (∀ (s : State) (c : Container),
    c.hdr.length = 128 →
    c.sig.length = 256 →
    s.loadRuns .check = true →
    exec (.loadCheckDone (.read c)) s = .next (s.loadChecked (.read c))) ∧
  (∀ (s : State) (c : Container),
    c.hdr.length = 128 →
    c.sig.length = 256 →
    s.loadRuns .check = true →
    s.t3Denied = false →
    s.containerChk c = none →
    c.partial_ = true →
    (State.sectsChk { s with flt := { s.flt with retired := s.load.record } } true s.selfDev (c.opened s.loadKey).tables) = none →
    s.reloadBusy (c.opened s.loadKey) = none →
    ∃ u, exec (.loadCheckDone (.read c)) s = .next u ∧ u.load.st = .apply ∧
      (u.load.staged).map (·.full) = some false ∧
      (u.load.staged).map (·.images) = some ((c.opened s.loadKey).staged []).images ∧
      (u.load.staged).map (·.sects) = some ((c.opened s.loadKey).staged []).sects ∧
      (u.load.staged).map (·.nonce) = some c.nonce ∧
      (u.sec.ownerNonce = (if c.frame then some c.nonce else s.sec.ownerNonce)) ∧
      (u.sec.tenantNonce = (if c.program then some c.nonce else s.sec.tenantNonce)) ∧
      WorkKept s u) ∧
  (∀ (s : State) (g : Staged) (r : ImageRead),
    s.loadRuns .apply = true →
    s.load.staged = some g →
    ((s.loadDies g).any fun d => s.downDies.contains d) = false →
    exec (.loadComplete r) s = .next ((s.loadApplied g r).resume)) ∧
  (∀ (s : State) (g : Staged) (r : ImageRead) (xs : List (Nat × List Byte)),
    s.loadRuns .apply = true →
    s.load.staged = some g →
    g.full = false →
    g.sects = [] →
    ((s.loadDies g).any fun d => s.downDies.contains d) = false →
    s.t3Denied = false →
    s.imagesRead g g.images r.sects r.fail = (xs, none) →
    s.fab.served = [] →
    s.hif.bar4 = [] →
    ∃ u, exec (.loadComplete r) s = .next u ∧ u.load.st = .idle ∧
      u.load.staged = none ∧
      u.load.partials = satInc s.load.partials ∧
      u.load.err = s.load.err ∧
      (u.tiles = (State.imagesWrite ((g.images.map (·.1)).foldl (fun (s : State) p => s.sweepPart p) s) xs).tiles) ∧
      u.queues = s.queues ∧
      u.ctxs = s.ctxs ∧
      u.descs = s.descs ∧
      u.mem = s.mem)

/-- R363, R365, R375, R465: quenches. -/
def Obligations.PartitionsAreQuenched : Prop :=
  (∀ (s : State) (part : Nat) (tee : Bool),
    part < 1024 →
    HostMay s .devFlt tee →
    exec (.partitionQuench part tee) s = .next (State.recordRes 0 (0xC20004 + 0x20 * part) (s.partCtl part 0x80000000))) ∧
  (∀ (s : State) (part : Nat) (tee : Bool),
    part < 1024 →
    HostMay s .devFlt tee →
    exec (.partitionResume part tee) s = .next (State.recordRes 0 (0xC20004 + 0x20 * part) (s.partCtl part 0x40000000))) ∧
  (∀ (s : State) (part : Nat),
    part < 1024 →
    exec (.autoqQuench part) s = .next ((if s.autoqWaits part = true ∧ (s.flt.autoqMs = 0 ∨ s.atBoundary part = true) then s.quenchAsk part 8 else s))) ∧
  (∀ (s : State) (part : Nat),
    part < 1024 →
    exec (.autoqTimeout part) s = .next ((if s.autoqWaits part = true ∧ ((s.pendOf part).any fun d => s.ripe d && decide (d.since + s.flt.autoqMs.toNat * 1000000 ≤ s.now)) = true then s.quenchAsk part 8 else s))) ∧
  (∀ (s : State) (part : Nat),
    part < 1024 →
    exec (.quenchComplete part) s = .next (s.quenchDone part)) ∧
  (∀ (s : State) (part : Nat) (tee : Bool) (x : Part),
    part < 1024 →
    HostMay s .devFlt tee →
    s.part? part = some x →
    (x.st = .run ∨ x.st = .degraded) →
    s.partInReset part = false →
    ∃ u, exec (.partitionQuench part tee) s = .next u ∧ ((u.part? part).map (fun y => (y.st, y.quench)) = some (.quench, some (1, s.quenched part)))) ∧
  (∀ (s : State) (part : Nat) (tee : Bool) (x : Part),
    part < 1024 →
    HostMay s .devFlt tee →
    s.part? part = some x →
    x.st = .maint →
    s.partTested part x = true →
    s.partInReset part = false →
    ∃ u, exec (.partitionResume part tee) s = .next u ∧ ((u.part? part).map (fun y => (y.st, y.quench)) = some (.quench, some (1, s.quenched part)))) ∧
  (∀ (s : State) (part : Nat),
    part < 1024 →
    s.autoqWaits part = true →
    (s.flt.autoqMs = 0 ∨ s.atBoundary part = true) →
    s.partInReset part = false →
    ∃ u, exec (.autoqQuench part) s = .next u ∧ ((u.part? part).map (fun y => (y.st, y.quench)) = some (.quench, some (8, s.quenched part)))) ∧
  (∀ (s : State) (part : Nat) (d : Due),
    part < 1024 →
    s.autoqWaits part = true →
    d ∈ s.pendOf part →
    s.ripe d = true →
    d.since + s.flt.autoqMs.toNat * 1000000 ≤ s.now →
    s.partInReset part = false →
    ∃ u, exec (.autoqTimeout part) s = .next u ∧ ((u.part? part).map (fun y => (y.st, y.quench)) = some (.quench, some (8, s.quenched part)))) ∧
  (∀ (s : State) (part src : Nat) (cs : List Nat) (x : Part),
    part < 1024 →
    s.part? part = some x →
    x.quench = some (src, cs) →
    x.hang = none →
    s.partHole part = false →
    ∃ u, exec (.quenchComplete part) s = .next u ∧ u.part? part = some { x with quench := none, quenches := x.quenches + 1, st := .run } ∧
      u.pwr.kind = 2 ∧
      u.pwr.source = src ∧
      u.pwr.arg = part ∧
      u.pwr.new = true)

/-- R155, R367, R370, R373, R374, R377: context resets and hangs. That a cycle is confirmed by the second scan that finds it follows R373; which cycle through a node is kept is the model's choice (log entry 92). -/
def Obligations.ContextsAreResetHangsAreScannedAndReplayed : Prop :=
  (∀ (s : State) (ctx : Nat) (tee : Bool),
    ctx < 1024 →
    HostMay s .devFlt tee →
    exec (.contextReset ctx tee) s = .next (State.recordRes 0 (0xC30004 + 0x10 * ctx) (s.ctxCtl ctx 0x80000000))) ∧
  (∀ (s : State) (ctx : Nat) (tee : Bool) (x : Ctx) (p : Part),
    ctx < 1024 →
    HostMay s .devFlt tee →
    s.ctx? ctx = some x →
    s.part? x.part = some p →
    p.st ≠ .quench →
    p.st ≠ .hang →
    exec (.contextReset ctx tee) s = .next (s.contextReset ctx 1)) ∧
  (∀ (s : State),
    s.recurs .scan = true →
    s.computeOn = true →
    exec (.hangScan) s = .next ((s.recurred .scan).hangScan)) ∧
  (∀ (s : State),
    (s.recurs .scan = false ∨ s.computeOn = false) →
    exec (.hangScan) s = .next (s)) ∧
  (∀ (s : State) (part c t : Nat) (h : HangRun),
    part < 1024 →
    (s.part? part).bind (·.hang) = some h →
    h.cur = some (c, t) →
    h.ending = false →
    t + s.flt.replayMs.toNat * 1000000 ≤ s.now →
    exec (.replayTimeout part) s = .next (s.suspectPass part c)) ∧
  (∀ (s : State) (ctx : Nat) (tee : Bool) (x : Ctx) (p : Part),
    ctx < 1024 →
    HostMay s .devFlt tee →
    s.ctx? ctx = some x →
    s.part? x.part = some p →
    p.st ≠ .quench →
    p.st ≠ .hang →
    (s.schPart x.part).opening = none →
    ∃ u, exec (.contextReset ctx tee) s = .next u ∧ ((u.ctx? ctx).map (fun y => (y.flt, y.fltStatus, y.fltSource)) = some (.run, .ok, 0xFFFF)) ∧
      ((u.ctx? ctx).map (fun y => (y.psn, y.ovf, y.voted, y.resets)) = some (false, false, false, satInc x.resets)) ∧
      u.pwr.kind = 1 ∧
      u.pwr.arg = ctx) ∧
  (∀ (s : State),
    s.recurs .scan = true →
    s.computeOn = true →
    (s.flt.scan.filter fun c => cycleStands s.edges c && !(c.any fun v => s.flt.ended.contains v)) = [] →
    (s.flt.parts.all fun e => e.2.hang.isNone) = true →
    exec (.hangScan) s = .next ((fun (s : State) => { s with flt := { s.flt with scan := s.cycles, ended := [] } }) (s.recurred .scan))) ∧
  (∀ (s : State) (part c d t : Nat) (x : Part) (h : HangRun) (y : Ctx) (rest : List Nat),
    part < 1024 →
    s.part? part = some x →
    x.hang = some h →
    h.cur = some (c, t) →
    h.ending = false →
    t + s.flt.replayMs.toNat * 1000000 ≤ s.now →
    s.ctx? c = some y →
    y.flt = .suspect →
    h.todo = d :: rest →
    d ≠ c →
    s.suspectStays d = true →
    ∃ u, exec (.replayTimeout part) s = .next u ∧ (u.ctx? c).map (·.flt) = some .held ∧
      ((u.ctx? d).map (fun y => (y.flt, y.preempted, y.replaying)) = some (.suspect, none, true)) ∧
      ((u.part? part).map (fun y => y.hang.bind (·.cur)) = some (some (d, s.now))))

/-- R357, R361, R384, R385: remote timeouts, retirement and health. -/
def Obligations.HealthIsKeptAndTilesFallDue : Prop :=
  (∀ (s : State) (op : RemoteOp),
    exec (.remoteTimeout op) s = .next ((match op with | .txn q => s.txnTimeout q | .piece id k => s.portTimeout id k | .push l => s.pushTimeout l | .srst l => s.srstTimeout l | .coll id => s.collTimeout id))) ∧
  (∀ (s : State) (ptile : W16) (tee : Bool),
    HostMay s .devFlt tee →
    exec (.retireRequest ptile tee) s = .next (State.recordRes 0 0xC0200C (s.retireReg (0x80000000#32 ||| ptile.setWidth 32)))) ∧
  (∀ (s : State),
    exec (.healthDecay) s = .next ((if s.recurs .decay = true then (s.recurred .decay).healthDecay else s))) ∧
  (∀ (s : State) (die : Nat) (c : Instr) (r : Recur),
    (c, r) ∈ [(Instr.healthDecay, Recur.decay), (.timingMarginDaily die, .timing die), (.hangScan, .scan), (.rateWindowEnd, .rate), (.quantWindowEnd true, .slow), (.quantWindowEnd false, .quick)] →
    s.recurs r = false →
    exec (c) s = .next (s)) ∧
  (∀ (s : State) (l since : Nat) (t : Tile),
    s.pushSince l = some since →
    since + s.flt.remoteMs.toNat * 1000000 ≤ s.now →
    s.tile l = t →
    t.ctx = none →
    ∃ u, exec (.remoteTimeout (.push l)) s = .next u ∧ u.flt.toRemote = satInc s.flt.toRemote ∧
      (u.tile l).cpState = .faulted ∧
      (u.tile l).cpLastErr = .abandoned ∧
      u.queues = s.queues ∧
      u.ctxs = s.ctxs ∧
      u.descs = s.descs) ∧
  (∀ (s : State) (seq id k : Nat) (t : Txn) (x : Ctx),
    SMap.get? s.fab.txns seq = some t →
    t.who = .piece id k →
    t.since + s.flt.remoteMs.toNat * 1000000 ≤ s.now →
    s.ctx? t.ctx = some x →
    ∃ u, exec (.remoteTimeout (.txn seq)) s = .next u ∧ u.fab.txns = SMap.erase s.fab.txns seq ∧
      u.flt.toRemote = satInc s.flt.toRemote ∧
      (u.ctx? t.ctx).map (·.psn) = some true ∧
      u.tiles = s.tiles ∧
      u.queues = s.queues) ∧
  (∀ (s : State) (ptile : W16) (tee : Bool),
    HostMay s .devFlt tee →
    ptileOk ptile.toNat = true →
    s.isRetired ptile.toNat = false →
    s.isDue ptile.toNat = false →
    (ptile.toNat % 4096 / 64 < 50 ∨ (s.logOf ptile.toNat).isSome = true) →
    ∃ u, exec (.retireRequest ptile tee) s = .next u ∧ u.flt.due = s.flt.due ++ [⟨ptile.toNat, s.now⟩] ∧
      (u.health ptile.toNat = { s.health ptile.toNat with cause := if (s.health ptile.toNat).cause = 0 then 5 else (s.health ptile.toNat).cause }) ∧
      WorkKept s u ∧
      u.flt.retired = s.flt.retired) ∧
  (∀ (s : State),
    s.recurs .decay = true →
    SMap.wf s.flt.health = true →
    SMap.wf s.fab.ports = true →
    ∃ u, exec (.healthDecay) s = .next u ∧ (∀ p, u.health p = { s.health p with score := (decayScore (s.health p).score (s.health p).warned).1, warned := (decayScore (s.health p).score (s.health p).warned).2 }) ∧
      (∀ p, (u.fab.port p).score = (decayScore (s.fab.port p).score (s.fab.port p).warned).1) ∧
      WorkKept s u ∧
      u.recurs .decay = false) ∧
  (∀ (s : State) (die : Nat),
    die < 8 →
    s.recurs (.timing die) = true →
    s.dieMv die = 720 →
    s.tbin die = 13 →
    ∃ u, exec (.timingMarginDaily die) s = .next u ∧ WorkKept s u ∧
      (∀ p ∈ s.counted die, (u.health p).marginValid = true ∧ (u.health p).drift = BitVec.ofInt 16 (driftOf (Config.madeCap p).toNat (s.brmOf p).cap.toNat)) ∧
      u.flt.retired = s.flt.retired ∧
      u.flt.due = s.flt.due ∧
      u.recurs (.timing die) = false) ∧
  (∀ (s : State) (die p : Nat),
    die < 8 →
    s.recurs (.timing die) = true →
    s.dieMv die = 720 →
    s.tbin die = 13 →
    s.counted die = [p] →
    ∃ u, exec (.timingMarginDaily die) s = .next u ∧ ((u.health p).score = if 200 ≤ driftOf (Config.madeCap p).toNat (s.brmOf p).cap.toNat then satAdd (s.health p).score 512 else (s.health p).score)) ∧
  (∀ (s : State) (die : Nat),
    die < 8 →
    (s.dieMv die ≠ 720 ∨ s.tbin die ≠ 13) →
    exec (.timingMarginDaily die) s = .next (s)) ∧
  (∀ (s : State) (port : Nat) (ms : List (BitVec 8)),
    portOk port = true →
    ms.length = 5 →
    s.recurs (.optical port) = true →
    ∃ u, exec (.opticalMarginSample port ms) s = .next u ∧ (u.fab.port port).margin = ms ∧
      (u.fab.port port).cwRate = (s.fab.port port).cwNow ∧
      (u.fab.port port).cwNow = 0 ∧
      (u.fab.port port).state = (s.fab.port port).state ∧
      WorkKept s u ∧
      u.recurs (.optical port) = false) ∧
  (∀ (s : State) (port : Nat) (ms : List (BitVec 8)),
    portOk port = true →
    ms.length = 5 →
    s.recurs (.optical port) = false →
    exec (.opticalMarginSample port ms) s = .next (s))

/-- R390, R393, R397, R410 to R413 (Tables 13.2 to 13.4): commands of the Owner. -/
def Obligations.TheOwnersCommandsTakeEffect : Prop :=
  (∀ (s : State) (r : GReq) (c : Instr) (cmd len : Nat) (role : GRole) (sts : List SecSt),
    (c, cmd, len, role, sts) ∈ [(Instr.claim r, 0x01, 97, GRole.bodyKey, [SecSt.unowned]), (.releaseOwner r, 0x02, 0, .owner, [.ownedIdle]), (.setOwnerFabric r, 0x03, 32, .owner, [.ownedIdle, .tenanted]),
      (.enrolTenant r, 0x04, 105, .owner, [.ownedIdle]), (.installGlove r, 0x05, 161, .tenant, [.tenanted]), (.rotateFabric r, 0x06, 32, .tenant, [.tenanted]),
      (.grantHost r, 0x07, 4, .tenant, [.tenanted]), (.handover r, 0x08, 0, .either, [.tenanted]), (.enterMaint r, 0x09, 0, .owner, [.ownedIdle]),
      (.debugUnlock r, 0x0A, 96, .token, [.maintenance]), (.exitMaint r, 0x0B, 0, .owner, [.maintenance]), (.setMaintKey r, 0x0C, 97, .owner, [.ownedIdle])] →
    s.hrt.ready = true →
    fld r.word 0 8 = cmd →
    fld r.word 8 4 = 1 →
    fld r.word 12 20 = 0 →
    r.body.length = len →
    (cmd = 7 → leNat r.body ≤ 1) →
    (s.gRole r role = false ∨ s.sec.st ∉ sts) →
    exec (c) s = .next (s.gAnswer cmd (if s.gRole r role = false then .denied else if s.sec.st = .handover then .busy else .denied) [])) ∧
  (∀ (s : State) (r : GReq),
    GauntletMay s r 0x01 97 .bodyKey [.unowned] →
    exec (.claim r) s = .next (({ s with sec := { s.sec with owner := some r.body, st := .ownedIdle } }).gAnswer 0x01 .ok [])) ∧
  (∀ (s : State) (r : GReq),
    GauntletMay s r 0x02 0 .owner [.ownedIdle] →
    exec (.releaseOwner r) s = .next (({ s with sec := { s.sec with owner := none, maint := none, ofab := none, ofabPrev := none, ownerNonce := none, st := .unowned } }).gAnswer 0x02 .ok [])) ∧
  (∀ (s : State) (r : GReq),
    GauntletMay s r 0x03 32 .owner [.ownedIdle, .tenanted] →
    exec (.setOwnerFabric r) s = .next (({ s with sec := { s.sec with ofabPrev := s.sec.ofab.map fun k => (k, s.now), ofab := some r.body } }).gAnswer 0x03 .ok [])) ∧
  (∀ (s : State) (r : GReq),
    GauntletMay s r 0x0C 97 .owner [.ownedIdle] →
    exec (.setMaintKey r) s = .next (({ s with sec := { s.sec with maint := some r.body } }).gAnswer 0x0C .ok [])) ∧
  (∀ (s : State) (r : GReq),
    GauntletMay s r 0x09 0 .owner [.ownedIdle] →
    ∃ u, exec (.enterMaint r) s = .next u ∧ u.sec.st = .maintenance ∧
      u.sec = { s.sec with st := .maintenance, challenge := u.sec.challenge } ∧
      WorkKept s u ∧
      u.out = s.out ++ [.mgmt 0x09 .ok []]) ∧
  (∀ (s : State) (r : GReq),
    GauntletMay s r 0x0A 96 .token [.maintenance] →
    ∃ u, exec (.debugUnlock r) s = .next u ∧ (u.sec = (if s.tokenOk r.body then { s.sec with ofab := none, ofabPrev := none, debugCount := satInc s.sec.debugCount, debugOpen := true, challenge := u.sec.challenge } else { s.sec with challenge := u.sec.challenge })) ∧
      WorkKept s u ∧
      (u.out = s.out ++ [.mgmt 0x0A (if s.tokenOk r.body then .ok else .denied) []])) ∧
  (∀ (s : State) (r : GReq),
    GauntletMay s r 0x0B 0 .owner [.maintenance] →
    exec (.exitMaint r) s = .next ((if s.sec.failedUnits = [] then s.exitMaint.gAnswer 0x0B .ok [] else s.gAnswer 0x0B .denied []))) ∧
  (∀ (s : State) (r : GReq),
    GauntletMay s r 0x0B 0 .owner [.maintenance] →
    s.sec.failedUnits = [] →
    s.computeOn = true →
    ∃ u, exec (.exitMaint r) s = .next u ∧ u.sec.exiting = true ∧
      u.sec.debugOpen = false ∧
      u.sec.st = .maintenance ∧
      u.pwr.warm = some 6 ∧
      u.load.program = false ∧
      u.tiles = [])

/-- R392 to R394, R397, R404 to R408 (Tables 13.2 to 13.4 and 13.9): commands of the tenancy. That objects and contexts are already gone when HANDOVER is answered is the model's choice (log entry 126). -/
def Obligations.TheTenantsCommandsTakeEffect : Prop :=
  (∀ (s : State) (r : GReq),
    GauntletMay s r 0x04 105 .owner [.ownedIdle] →
    exec (.enrolTenant r) s = .next (({ s with sec := { s.sec with tkey := some (r.body.take 97), lease := BitVec.ofNat 64 (leNat (r.body.drop 97)), memKeys := true, logKey := true, tenancy := s.sec.tenancy + 1, st := .tenanted } }).gAnswer 0x04 .ok [])) ∧
  (∀ (s : State) (r : GReq),
    GauntletMay s r 0x05 161 .tenant [.tenanted] →
    exec (.installGlove r) s = .next (({ s with sec := { s.sec with tfabPrev := s.sec.tfab.map fun k => (k, s.now), tfab := some (r.body.drop 129), tload := some (r.body.take 97, (r.body.drop 97).take 32), tenantNonce := some 0 } }).gAnswer 0x05 .ok [])) ∧
  (∀ (s : State) (r : GReq) (y : Session),
    GauntletMay s r 0x06 32 .tenant [.tenanted] →
    s.session? r.sess = some y →
    s.lockHeldBy (keyLock y.eid) = none →
    exec (.rotateFabric r) s = .next (({ (if s.sec.tfab.isSome then s.lockGrant (keyLock y.eid) else s) with sec := { s.sec with tfabPrev := s.sec.tfab.map fun k => (k, s.now), tfab := some r.body } } : State).gAnswer 0x06 .ok [])) ∧
  (∀ (s : State) (r : GReq) (y : Session) (h : Lock),
    GauntletMay s r 0x06 32 .tenant [.tenanted] →
    s.session? r.sess = some y →
    s.lockHeldBy (keyLock y.eid) = some h →
    exec (.rotateFabric r) s = .next ((s.lockRefuse (keyLock y.eid) h).gAnswer 0x06 .busy [])) ∧
  (∀ (s : State) (r : GReq),
    GauntletMay s r 0x06 32 .tenant [.tenanted] →
    s.hrt.locks = [] →
    ∃ u, exec (.rotateFabric r) s = .next u ∧ (u.sec = { s.sec with tfabPrev := s.sec.tfab.map fun k => (k, s.now), tfab := some r.body }) ∧
      (u.hrt.locks.length = (if s.sec.tfab.isSome then 1 else 0)) ∧
      WorkKept s u ∧
      u.out = s.out ++ [.mgmt 0x06 .ok []]) ∧
  (∀ (s : State),
    ∃ u, exec (.fabricPrevKeyExpire) s = .next u ∧ (u.sec = { s.sec with ofabPrev := s.sec.ofabPrev.filter fun k => s.now < k.2 + 10000000000, tfabPrev := s.sec.tfabPrev.filter fun k => s.now < k.2 + 10000000000 }) ∧
      WorkKept s u ∧
      u.out = s.out) ∧
  (∀ (s : State) (r : GReq),
    GauntletMay s r 0x07 4 .tenant [.tenanted] →
    leNat r.body ≤ 1 →
    exec (.grantHost r) s = .next (({ s with sec := { s.sec with fine := decide (leNat r.body = 1) } }).gAnswer 0x07 .ok [])) ∧
  (∀ (s : State) (r : GReq) (h : Lock),
    GauntletMay s r 0x08 0 .either [.tenanted] →
    (s.hrt.locks.find? fun l => l.act = actFw) = some h →
    exec (.handover r) s = .next (({ s with hrt := { s.hrt with holder := some h } } : State).gAnswer 0x08 .busy [])) ∧
  (∀ (s : State) (r : GReq),
    GauntletMay s r 0x08 0 .either [.tenanted] →
    (s.hrt.locks.any fun l => l.act = actFw) = false →
    exec (.handover r) s = .next ((s.handoverStart (if s.isOwner r.sess then 0 else 1)).gAnswer 0x08 .ok [])) ∧
  (∀ (s : State) (r : GReq),
    GauntletMay s r 0x08 0 .either [.tenanted] →
    (s.hrt.locks.any fun l => l.act = actFw) = false →
    ∃ u, exec (.handover r) s = .next u ∧ u.sec.st = .handover ∧
      u.sec.tdi = .unlocked ∧
      (u.sec.hand = some (if s.isOwner r.sess then 0 else 1, s.now)) ∧
      u.load.program = false ∧
      (∀ e ∈ u.tiles, e.2.spd = [] ∧ e.2.ctx = none ∧ e.2.wait = none) ∧
      u.ctxs = [] ∧
      u.queues = [] ∧
      u.descs = [] ∧
      u.mem.objs = [] ∧
      u.mem.pages = [] ∧
      u.mem.pool = []) ∧
  (∀ (s : State) (fs : List (Nat × List (Nat × Nat))),
    Instr.wf (.handoverComplete fs) = true →
    exec (.handoverComplete fs) s = .next (s.handoverEnd fs)) ∧
  (∀ (s : State) (fs : List (Nat × List (Nat × Nat))) (c t : Nat),
    (fs.all fun i => 1 ≤ i.1 && i.1 ≤ 9) = true →
    s.sec.st = .handover →
    s.sec.hand = some (c, t) →
    s.hrt.ready = true →
    s.handoverMay = true →
    ∃ u, exec (.handoverComplete fs) s = .next u ∧ (u.sec.st = (if fs.isEmpty then .ownedIdle else .maintenance)) ∧
      u.sec.tkey = none ∧
      u.sec.tload = none ∧
      u.sec.tfab = none ∧
      u.sec.memKeys = false ∧
      u.sec.hand = none ∧
      u.sec.record.tenancy = s.sec.tenancy ∧
      u.sec.record.cause = c ∧
      u.sec.record.start = t ∧
      u.sec.record.result = handResult (fs.map (·.1)) ∧
      u.sec.owner = s.sec.owner ∧
      (u.tiles = (s.tiles.map fun e => (e.1, e.2.swept)).filter fun e => e.2 ≠ Tile.reset) ∧
      u.fab.ctxs = [] ∧
      u.fab.fences = [] ∧
      u.queues = s.queues ∧
      u.mem = s.mem)

/-- R398 to R401, R404, R428 (Tables 13.5 and 13.7): sessions, IDE, TDISP and telemetry. That a reading without a sample in a window keeps its value is the model's choice (log entry 132). -/
def Obligations.SessionsIdeAndTelemetry : Prop :=
  (∀ (s : State) (key : Option (List Byte)) (eid : Nat) (sb : Bool),
    eid < 1024 →
    s.hrt.ready = true →
    s.sec.sessions.length < 4 →
    ∃ u, exec (.spdmKeyExchange key eid sb) s = .next u ∧ u.sec = { s.sec with nextSession := s.sec.nextSession + 1, sessions := SMap.set s.sec.sessions s.sec.nextSession ⟨key, eid, sb⟩ } ∧
      u.out = s.out ++ [.mgmt 0x103 .ok (leBytes 4 s.sec.nextSession)] ∧
      WorkKept s u) ∧
  (∀ (s : State) (key : Option (List Byte)) (eid : Nat) (sb : Bool),
    eid < 1024 →
    s.hrt.ready = true →
    4 ≤ s.sec.sessions.length →
    exec (.spdmKeyExchange key eid sb) s = .next (s.emit (.mgmt 0x103 .busy []))) ∧
  (∀ (s : State) (sess : Option Nat) (n : Nat),
    s.hrt.ready = true →
    ((s.session? sess).isSome = false ∨ n ≠ 0) →
    exec (.ideKmKeyProg sess n) s = .next (s.emit (.mgmt 0x105 (if (s.session? sess).isSome then .range else .denied) []))) ∧
  (∀ (s : State) (sess : Option Nat) (c : Instr) (cmd : Nat),
    s.hrt.ready = true →
    (c, cmd) ∈ [(Instr.lockInterface sess, 0x106), (.startInterface sess, 0x107), (.stopInterface sess, 0x108)] →
    ((s.session? sess).isSome = false ∨ cmd = 0x106 ∧ ¬ (s.sec.st = .tenanted ∧ s.sec.ideSecure = true ∧ s.sec.tdi = .unlocked) ∨ cmd = 0x107 ∧ s.sec.tdi ≠ .locked) →
    exec (c) s = .next (s.emit (.mgmt cmd .denied []))) ∧
  (∀ (s : State) (slow : Bool),
    s.hrt.ready = false →
    exec (.quantWindowEnd slow) s = .next (s)) ∧
  (∀ (s : State) (sess : Option Nat),
    s.hrt.ready = true →
    exec (.getMeasurements sess) s = .next (s.emit (.mgmt 0x104 .ok (s.measurements (s.isTenant sess))))) ∧
  (∀ (s : State) (sess : Option Nat),
    s.hrt.ready = true →
    (s.session? sess).isSome = true →
    exec (.ideKmKeyProg sess 0) s = .next (({ s with sec := { s.sec with ideKeys := true, ideSecure := true } }).emit (.mgmt 0x105 .ok []))) ∧
  (∀ (s : State) (sess : Option Nat),
    s.hrt.ready = true →
    (s.session? sess).isSome = true →
    s.sec.st = .tenanted →
    s.sec.ideSecure = true →
    s.sec.tdi = .unlocked →
    exec (.lockInterface sess) s = .next (({ s with sec := { s.sec with tdi := .locked } }).emit (.mgmt 0x106 .ok []))) ∧
  (∀ (s : State) (sess : Option Nat),
    s.hrt.ready = true →
    (s.session? sess).isSome = true →
    s.sec.tdi = .locked →
    exec (.startInterface sess) s = .next (({ s with sec := { s.sec with tdi := .run } }).emit (.mgmt 0x107 .ok []))) ∧
  (∀ (s : State) (sess : Option Nat),
    s.hrt.ready = true →
    (s.session? sess).isSome = true →
    exec (.stopInterface sess) s = .next (({ s with sec := { s.sec with tdi := .unlocked } }).emit (.mgmt 0x108 .ok []))) ∧
  (∀ (s : State),
    s.sec.ideSecure = true →
    s.hif.bar4 ≠ [] →
    (s.sec.tdi = .locked ∨ s.sec.tdi = .run) →
    ∃ u, exec (.ideIntegrityFailure) s = .next u ∧ u.sec = { s.sec with ideSecure := false, tdi := .error } ∧
      (u.hif = { s.hif with bar4 := [] }) ∧
      u.out = s.out ∧
      u.tiles = s.tiles ∧
      u.queues = s.queues ∧
      u.ctxs = s.ctxs ∧
      u.descs = s.descs) ∧
  (∀ (s : State),
    s.sec.ideSecure = true →
    (s.hif.bar4 = [] ∨ s.sec.tdi = .unlocked ∨ s.sec.tdi = .error) →
    exec (.ideIntegrityFailure) s = .next ({ s with sec := { s.sec with ideSecure := false, tdi := if s.sec.tdi = .locked ∨ s.sec.tdi = .run then .error else s.sec.tdi } })) ∧
  (∀ (s : State),
    s.hrt.ready = true →
    s.recurs .slow = true →
    exec (.quantWindowEnd true) s = .next ((fun (s : State) => { s with hrt := (s.hrt.deliver (· ≠ 200)).deliverCaps }) (s.recurred .slow))) ∧
  (∀ (s : State) (m : Int × Nat),
    s.hrt.ready = true →
    s.recurs .quick = true →
    (s.hrt.sums.filter fun e => e.1 = 200) = [(200, m)] →
    ∃ u, exec (.quantWindowEnd false) s = .next u ∧ SMap.getD u.hrt.quant 200 0 = BitVec.ofInt 16 ((2 * m.1 + 50 * m.2) / (100 * m.2) * 50) ∧
      (u.hrt.sums = s.hrt.sums.filter fun e => e.1 ≠ 200) ∧
      u.hrt.capLow = s.hrt.capLow ∧
      u.recurs .quick = false ∧
      WorkKept s u) ∧
  (∀ (s : State) (n : Nat) (m : Int × Nat),
    s.hrt.ready = true →
    s.recurs .slow = true →
    n ≠ 200 →
    (n < 300 ∨ 308 ≤ n) →
    s.hrt.sums = [(n, m)] →
    SMap.wf s.hrt.capLow = true →
    (s.hrt.capLow.all fun e => decide (e.1 < 8)) = true →
    ∃ u, exec (.quantWindowEnd true) s = .next u ∧ SMap.getD u.hrt.quant n 0 = quantOf n m ∧
      u.hrt.sums = [] ∧
      u.hrt.capLow = [] ∧
      u.recurs .slow = false ∧
      WorkKept s u) ∧
  (∀ (s : State) (d : Nat) (v : W16),
    s.hrt.ready = true →
    s.recurs .slow = true →
    d < 8 →
    s.hrt.capLow = [(d, v)] →
    s.hrt.sums = [] →
    ∃ u, exec (.quantWindowEnd true) s = .next u ∧ SMap.getD u.hrt.quant (300 + d) 0 = BitVec.ofNat 16 (v.toNat / 64 * 64) ∧
      u.hrt.capLow = [] ∧
      WorkKept s u)

/-- R416, R417, R420, R429, R430: the Hearth's restarts and firmware. That a failed activation starts the old image as after a lockstep error is the model's choice (log entry 134). -/
def Obligations.TheHearthRestartsAndUpdates : Prop :=
  (∀ (s : State),
    s.hrt.ready = true →
    exec (.hearthLockstepError) s = .next (s.hearthDown .lockstep)) ∧
  (∀ (s : State),
    (match s.hrt.restart with | .activation _ => false | _ => true) = true →
    exec (.hearthRestartDone) s = .next ((if s.hrt.restart = .none then s else if s.hrt.restart = .lockstep then s.hearthUp 0 else if s.hrt.noImage then s else ({ s with hrt := { s.hrt with slotB := s.hrt.slotB != !s.hrt.image.valid } } : State).hearthUp 2))) ∧
  (∀ (s : State),
    s.hrt.restart = .power →
    s.hrt.image.valid = false →
    s.hrt.other.valid = true →
    ∃ u, exec (.hearthRestartDone) s = .next u ∧ u.hrt.ready = true ∧
      u.hrt.slotB = !s.hrt.slotB ∧
      u.tiles = s.tiles ∧
      u.queues = s.queues ∧
      u.ctxs = s.ctxs ∧
      u.descs = s.descs) ∧
  (∀ (s : State),
    s.hrt.ready = true →
    ∃ u, exec (.hearthLockstepError) s = .next u ∧ u.hrt.ready = false ∧
      u.hrt.restart = .lockstep ∧
      u.sec.sessions = [] ∧
      u.queues = s.queues ∧
      u.ctxs = s.ctxs ∧
      u.descs = s.descs) ∧
  (∀ (s : State),
    (s.hrt.restart = .lockstep ∨ s.hrt.restart = .power ∧ s.hrt.image.valid = true) →
    ∃ u, exec (.hearthRestartDone) s = .next u ∧ u.hrt.ready = true ∧
      u.hrt.restart = .none ∧
      u.hrt.upSince = s.now ∧
      u.hrt.fifo = [] ∧
      u.hrt.slotB = s.hrt.slotB ∧
      u.tiles = s.tiles ∧
      u.queues = s.queues ∧
      u.ctxs = s.ctxs ∧
      u.descs = s.descs) ∧
  (∀ (s : State) (t : Nat),
    s.hrt.restart = .activation t →
    s.now < t + 2000000000 →
    exec (.hearthRestartDone) s = .next ((({ s with hrt := { s.hrt with slotB := !s.hrt.slotB } } : State).hearthUp 1).lockDrop fun l => l.act = actFw)) ∧
  (∀ (s : State) (t : Nat),
    s.hrt.restart = .activation t →
    s.now < t + 2000000000 →
    ∃ u, exec (.hearthRestartDone) s = .next u ∧ u.hrt.ready = true ∧
      u.hrt.slotB = !s.hrt.slotB ∧
      u.tiles = s.tiles ∧
      u.queues = s.queues ∧
      u.ctxs = s.ctxs ∧
      u.descs = s.descs) ∧
  (∀ (s : State) (t : Nat),
    s.hrt.restart = .activation t →
    t + 2000000000 ≤ s.now →
    ∃ u, exec (.fwActivationTimeout) s = .next u ∧ u.hrt.restart = .lockstep ∧
      u.hrt.slotB = s.hrt.slotB ∧
      WorkKept s u) ∧
  (∀ (s : State),
    s.hrt.ready = true →
    s.hrt.upSince + 3600000000000 ≤ s.now →
    s.hrt.fuseSvn.ult s.hrt.image.svn = true →
    exec (.svnRaise) s = .next ({ s with hrt := { s.hrt with fuseSvn := s.hrt.image.svn } })) ∧
  (∀ (s : State) (sess : Option Nat) (img : FwOffer),
    (s.hrt.ready = true ∨ s.hrt.restart = .power ∧ s.hrt.noImage = true) →
    s.fwOpen sess = true →
    ∃ u, exec (.fwRequestUpdate sess img) s = .next u ∧ u.hrt.other = ⟨img.ver, img.svn, sha384 (img.body ++ img.sig), s.fwOk img⟩ ∧
      u.hrt.image = s.hrt.image ∧
      u.hrt.slotB = s.hrt.slotB ∧
      WorkKept s u) ∧
  (∀ (s : State) (sess : Option Nat) (img : FwOffer),
    s.hrt.ready = true →
    s.fwOpen sess = false →
    exec (.fwRequestUpdate sess img) s = .next (s.emit (.mgmt 0x101 .denied []))) ∧
  (∀ (s : State) (sess : Option Nat),
    s.hrt.ready = true →
    (s.fwOpen sess = false ∨ s.sec.st = .handover ∨ s.hrt.other.valid = false) →
    exec (.activateFirmware sess) s = .next ((if s.fwOpen sess = false then s.emit (.mgmt 0x102 .denied []) else if s.sec.st = .handover then s.emit (.mgmt 0x102 .busy []) else s.emit (.mgmt 0x102 .denied [])))) ∧
  (∀ (s : State) (sess : Option Nat),
    s.hrt.ready = true →
    s.fwOpen sess = true →
    s.sec.st ≠ .handover →
    s.hrt.other.valid = true →
    s.hrt.locks ≠ [] →
    s.hrt.locks.length < 65 →
    ∃ u, exec (.activateFirmware sess) s = .next u ∧ WorkKept s u ∧
      u.hrt.locks = s.hrt.locks ∧
      u.hrt.ready = true ∧
      Out.mgmt 0x102 .busy [] ∈ u.out) ∧
  (∀ (s : State) (sess : Option Nat),
    s.hrt.ready = true →
    s.fwOpen sess = true →
    s.sec.st ≠ .handover →
    s.hrt.other.valid = true →
    s.hrt.locks = [] →
    ∃ u, exec (.activateFirmware sess) s = .next u ∧ u.hrt.ready = false ∧
      u.hrt.restart = .activation s.now ∧
      u.hrt.locks.map (·.act) = [actFw] ∧
      u.sec.sessions = [] ∧
      u.queues = s.queues ∧
      u.ctxs = s.ctxs ∧
      u.descs = s.descs) ∧
  (∀ (s : State) (sess : Option Nat) (w : Nat),
    s.hrt.ready = true →
    (s.isOwner sess = false ∨ w < 1000 ∨ 6500 < w) →
    exec (.ownerPowerLimitSet sess w) s = .next (s.emit (.mgmt 0x100 (if s.isOwner sess then .range else .denied) []))) ∧
  (∀ (s : State) (sess : Option Nat) (w : Nat),
    s.hrt.ready = true →
    s.isOwner sess = true →
    1000 ≤ w →
    w ≤ 6500 →
    exec (.ownerPowerLimitSet sess w) s = .next (({ s with hrt := { s.hrt with plimOwner := w } }).emit (.mgmt 0x100 .ok [])))

/-- R421 to R426 (Tables 14.1 to 14.4, 14.10): event records. That a LOG_DROP is committed when it closes is the model's choice (log entry 141). -/
def Obligations.EventsAreStagedCommittedAndRead : Prop :=
  (∀ (s : State) (e : EvRec),
    e.skind < 13 →
    e.sidx < 2 ^ 28 →
    exec (.eventRecordSubmit e) s = .next (s.event e)) ∧
  (∀ (s : State) (e : EvRec),
    e.skind < 13 →
    e.sidx < 2 ^ 28 →
    s.hrt.ready = true →
    (evInfo e.code).2 = 3 →
    s.hrt.coalMs ≠ 0 →
    (s.hrt.staging.any fun x => x.ev = e) = false →
    exec (.eventRecordSubmit e) s = .next ({ s with hrt := { s.hrt with staging := s.hrt.staging ++ [⟨e, s.now, 1, s.now + s.hrt.coalMs.toNat * 1000000⟩] } })) ∧
  (∀ (s : State) (e : EvRec) (x : Staging) (rest : List Staging),
    e.skind < 13 →
    e.sidx < 2 ^ 28 →
    s.hrt.ready = true →
    s.hrt.staging = x :: rest →
    x.ev = e →
    exec (.eventRecordSubmit e) s = .next ({ s with hrt := { s.hrt with staging := { x with count := min (x.count + 1) 4095 } :: rest } })) ∧
  (∀ (s : State) (i : Nat) (x : Staging),
    s.hrt.staging[i]? = some x →
    s.hrt.ready = true →
    x.due ≤ s.now →
    exec (.eventStageExpire i) s = .next ({ s with hrt := ({ s.hrt with staging := s.hrt.staging.eraseIdx i } : Hrt).commit s.sec.fine x.ev x.time x.count s.now })) ∧
  (∀ (s : State) (i : Nat) (x : Staging),
    s.hrt.staging[i]? = some x →
    s.hrt.ready = true →
    x.due ≤ s.now →
    s.hrt.ring.length < ringCap →
    ∃ u, exec (.eventStageExpire i) s = .next u ∧ u.hrt.ring = s.hrt.ring ++ [⟨x.ev, x.time, s.hrt.nextSeq, (evInfo x.ev.code).2, (evInfo x.ev.code).1, x.count⟩] ∧
      u.hrt.nextSeq = s.hrt.nextSeq + 1 ∧
      u.hrt.staging = s.hrt.staging.eraseIdx i ∧
      WorkKept s u ∧
      u.out = s.out) ∧
  (∀ (s : State),
    s.hrt.ready = true →
    s.recurs .rate = true →
    ∃ u, exec (.rateWindowEnd) s = .next u ∧ (u.hrt.buckets = s.hrt.buckets.map fun b => (b.1, { b.2 with supp := 0 })) ∧
      WorkKept s u) ∧
  (∀ (s : State) (t : Nat) (cs : List Nat),
    s.hrt.ready = true →
    s.hrt.logDrop = some (t, cs) →
    t + 1000000000 ≤ s.now →
    exec (.logDropClose) s = .next (({ s with hrt := ({ s.hrt with logDrop := none } : Hrt).commit s.sec.fine (logDropRec cs) t 1 s.now } : State).refreshAlarm)) ∧
  (∀ (s : State) (t : Nat) (cs : List Nat),
    s.hrt.ready = true →
    s.hrt.logDrop = some (t, cs) →
    t + 1000000000 ≤ s.now →
    s.hrt.ring.length + 1 < ringCap →
    ∃ u, exec (.logDropClose) s = .next u ∧ u.hrt.logDrop = none ∧
      u.hrt.ring.take (s.hrt.ring.length + 1) = s.hrt.ring ++ [⟨logDropRec cs, t, s.hrt.nextSeq, (evInfo 0x0602).2, (evInfo 0x0602).1, 1⟩] ∧
      WorkKept s u) ∧
  (∀ (s : State) (v : W32) (tee : Bool),
    HostMay s .hrt tee →
    exec (.hlogHeadWrite v tee) s = .next (State.recordRes 0 0x10006C (s.hlogHead v))) ∧
  (∀ (s : State) (v : W32) (tee : Bool),
    HostMay s .hrt tee →
    (v - s.hrt.hlogHead).toNat ≤ (s.hrt.hlogTail - s.hrt.hlogHead).toNat →
    exec (.hlogHeadWrite v tee) s = .next ({ s with hrt := { s.hrt with hlogHead := v } })) ∧
  (∀ (s : State) (r : LogRec) (rest : List LogRec),
    s.hrt.hlogQueue = r :: rest →
    s.hrt.ready = true →
    s.hrt.hlogEn = true →
    s.computeOn = true →
    s.t3Denied = false →
    (s.hrt.hlogTail - s.hrt.hlogHead).toNat < 2 ^ s.hrt.hrsz →
    ∃ u, exec (.hlogEntryWrite) s = .next u ∧ u.hrt.hlogQueue = rest ∧
      u.hrt.hlogTail = s.hrt.hlogTail + 1 ∧
      Out.t3Write (s.hrt.hlogBase.toNat + 32 * (s.hrt.hlogTail.toNat % 2 ^ s.hrt.hrsz)) r.bytes false ∈ u.out ++ u.hif.held ∧
      WorkKept s u)

/-- R414, R431 to R436 (Tables 14.6 to 14.8): maintenance. -/
def Obligations.LocksTestsAndSweeps : Prop :=
  (∀ (s : State) (act : Nat) (scope : W16) (tee : Bool),
    act < 8 →
    HostMay s .hrt tee →
    exec (.lockTake act scope tee) s = .next (State.recordRes 0 0x100080 (s.lockReq (BitVec.ofNat 32 (2 ^ 31 + act * 2 ^ 27 + scope.toNat))))) ∧
  (∀ (s : State) (act : Nat) (scope : W16) (tee : Bool),
    act < 8 →
    HostMay s .hrt tee →
    exec (.lockRelease act scope tee) s = .next (State.recordRes 0 0x100080 (s.lockReq (BitVec.ofNat 32 (2 ^ 30 + act * 2 ^ 27 + scope.toNat))))) ∧
  (∀ (s : State) (d : Nat),
    d < 8 →
    s.hrt.ready = true →
    exec (.marginSweepStep d) s = .next (s.sweepStep d)) ∧
  (∀ (s : State) (kind idx : Nat) (tee pre : Bool),
    kind < 16 →
    idx < 65536 →
    HostMay s .bist tee →
    exec (.bistRequest (.host tee) kind idx pre) s = .next (State.recordRes 0 0x1000A0 (s.bistReq (BitVec.ofNat 32 (2 ^ 31 + kind * 2 ^ 16 + idx)) pre))) ∧
  (∀ (s : State) (kind idx eid : Nat) (pre : Bool),
    kind < 16 →
    idx < 65536 →
    exec (.bistRequest (.mctp eid) kind idx pre) s = .next (s.bistMsg eid kind idx pre)) ∧
  (∀ (s : State) (kind idx : Nat) (pass : Bool),
    kind < 16 →
    idx < 65536 →
    s.hrt.ready = true →
    exec (.bistComplete kind idx pass) s = .next (s.bistEnd kind idx pass)) ∧
  (∀ (s : State) (act : Nat) (scope : W16) (tee : Bool),
    act < 8 →
    HostMay s .hrt tee →
    lockScopeOk act scope.toNat = true →
    s.lockHeldBy ⟨1, 0, act, scope.toNat, 0⟩ = none →
    (act = actSweep → s.dieBusy scope.toNat = false) →
    ∃ u, exec (.lockTake act scope tee) s = .next u ∧ u.hrt.locks = s.hrt.locks ++ [⟨1, 0, act, scope.toNat, 0⟩] ∧
      u.hrt.lockStat = .ok ∧
      WorkKept s u ∧
      (act = actSweep → u.dieMv scope.toNat = 780)) ∧
  (∀ (s : State) (act : Nat) (scope : W16) (tee : Bool),
    act < 8 →
    HostMay s .hrt tee →
    lockScopeOk act scope.toNat = true →
    s.hrt.locks.contains ⟨1, 0, act, scope.toNat, 0⟩ = true →
    (act = actSweep → (s.hrt.sweeps.any fun (x : Sweep) => x.die = scope.toNat) = true) →
    ∃ u, exec (.lockRelease act scope tee) s = .next u ∧ u.hrt.locks.contains ⟨1, 0, act, scope.toNat, 0⟩ = false ∧
      u.hrt.lockStat = .ok ∧
      WorkKept s u) ∧
  (∀ (s : State) (d : Nat) (w : Sweep),
    d < 8 →
    s.hrt.ready = true →
    (s.hrt.sweeps.find? fun (x : Sweep) => x.die = d) = some w →
    w.since + 10000000 ≤ s.now →
    s.dieFast d = false →
    w.mv < 780 →
    ∃ u, exec (.marginSweepStep d) s = .next u ∧ (SMap.getD u.flt.margins d DieMargin.reset).valid = true ∧
      (SMap.getD u.flt.margins d DieMargin.reset).vreq = BitVec.ofNat 16 (w.mv + 10) ∧
      (u.hrt.sweeps = s.hrt.sweeps.filter fun (x : Sweep) => x.die ≠ d) ∧
      u.dieMv d = w.was ∧
      WorkKept s u) ∧
  (∀ (s : State) (d : Nat) (w : Sweep),
    d < 8 →
    s.hrt.ready = true →
    (s.hrt.sweeps.find? fun (x : Sweep) => x.die = d) = some w →
    w.since + 10000000 ≤ s.now →
    s.dieFast d = false →
    780 ≤ w.mv →
    ∃ u, exec (.marginSweepStep d) s = .next u ∧ (SMap.getD u.flt.margins d DieMargin.reset).valid = true ∧
      (SMap.getD u.flt.margins d DieMargin.reset).vreq = 0xFFFF ∧
      (u.hrt.sweeps = s.hrt.sweeps.filter fun (x : Sweep) => x.die ≠ d) ∧
      u.dieMv d = w.was ∧
      WorkKept s u) ∧
  (∀ (s : State) (kind idx : Nat) (tee : Bool),
    kind < 6 →
    idx < 65536 →
    s.bistOpen kind idx = true →
    bistUnitOk kind idx = true →
    s.bistReady kind idx = true →
    HostMay s .bist tee →
    s.lockHeldBy ⟨1, 0, actBist, idx, kind⟩ = none →
    ∃ u, exec (.bistRequest (.host tee) kind idx true) s = .next u ∧ u.hrt.bists = s.hrt.bists ++ [⟨kind, idx, true, s.now⟩] ∧
      u.hrt.locks = s.hrt.locks ++ [⟨1, 0, actBist, idx, kind⟩] ∧
      u.queues = s.queues ∧
      u.ctxs = s.ctxs ∧
      u.descs = s.descs) ∧
  (∀ (s : State) (kind idx eid : Nat),
    kind < 6 →
    idx < 65536 →
    s.bistOpen kind idx = true →
    bistUnitOk kind idx = true →
    s.bistReady kind idx = true →
    s.hrt.ready = true →
    s.lockHeldBy ⟨4, eid, actBist, idx, kind⟩ = none →
    ∃ u, exec (.bistRequest (.mctp eid) kind idx true) s = .next u ∧ u.hrt.bists = s.hrt.bists ++ [⟨kind, idx, false, s.now⟩] ∧
      u.hrt.locks = s.hrt.locks ++ [⟨4, eid, actBist, idx, kind⟩] ∧
      u.queues = s.queues ∧
      u.ctxs = s.ctxs ∧
      u.descs = s.descs) ∧
  (∀ (s : State) (kind idx : Nat) (b : BistRun),
    kind < 16 →
    idx < 65536 →
    s.hrt.ready = true →
    (s.hrt.bists.find? fun b => b.kind = kind && b.idx = idx) = some b →
    b.since + bistNs kind ≤ s.now →
    (kind = 3 → s.pwr.lasersOk.contains (idx / 6) = true) →
    ∃ u, exec (.bistComplete kind idx true) s = .next u ∧ u.hrt.bists = s.hrt.bists.filter (· ≠ b) ∧
      (b.host = true → u.hrt.bistStat = .ok) ∧
      u.queues = s.queues ∧
      u.ctxs = s.ctxs ∧
      u.descs = s.descs)

/-- R41, R42, R44 to R48, R419, R427: monitors, sensors and supplies. -/
def Obligations.MonitorsSensorsAndTheBellows : Prop :=
  (∀ (s : State) (w : BrmWindow) (d p : Nat),
    w.dies.length = 8 →
    (w.tiles.all fun x => ptileOk x.1) = true →
    s.time.window < s.now / 4096 →
    d ∈ s.liveDies →
    physDie p = d →
    ∃ u, exec (.brmWindowEnd w) s = .next u ∧ u.brmOf p = (s.brmOf p).window (!s.outOfDomain d) (w.counts p) ∧
      u.tiles = s.tiles ∧
      u.queues = s.queues ∧
      u.ctxs = s.ctxs ∧
      u.descs = s.descs ∧
      u.mem = s.mem) ∧
  (∀ (s : State) (p : Nat) (tee : Bool),
    ptileOk p = true →
    HostMay s .brm tee →
    ∃ u, exec (.brmMinClr p tee) s = .next u ∧ u.brmOf p = { s.brmOf p with minCap := 0xFFFF } ∧
      (∀ q, q ≠ p → u.brmOf q = s.brmOf q) ∧
      WorkKept s u ∧
      u.hrt = s.hrt ∧
      (u.hif = s.hif)) ∧
  (∀ (s : State) (vs : List (Nat × W16)),
    (vs.all fun x => sensorOk x.1) = true →
    s.hrt.ready = true →
    ∃ u, exec (.sensorSample vs) s = .next u ∧ (u.hrt.sensors = vs.foldl (fun m x => SMap.set m x.1 ⟨true, x.2⟩) s.hrt.sensors) ∧
      (u.hrt.alarm = ({ s with hrt := { s.hrt with sensors := vs.foldl (fun m x => SMap.set m x.1 ⟨true, x.2⟩) s.hrt.sensors } } : State).alarmNow) ∧
      WorkKept s u) ∧
  (∀ (s : State) (w : W32) (tee : Bool),
    HostMay s .hrt tee →
    exec (.alarmSeenClear w tee) s = .next ({ s with hrt := { s.hrt with seen := (s.hrt.seen &&& ~~~w) ||| s.hrt.alarm } })) ∧
  (∀ (s : State) (b : BellowsTick) (d : Nat),
    b.deltas.length = 8 →
    (b.deltas.all fun x => decide (-10 ≤ x) && decide (x ≤ 10)) = true →
    s.time.bellows < s.now / 100000 →
    s.hrt.ready = true →
    d < 8 →
    s.dieMv d ≠ 0 →
    (s.hrt.sweeps.any fun (x : Sweep) => x.die = d) = false →
    ∃ u, exec (.bellowsTick b) s = .next u ∧ (680 ≤ s.dieMv d → 680 ≤ u.dieMv d) ∧
      (s.dieMv d ≤ 780 → u.dieMv d ≤ 780) ∧
      u.dieMv d ≤ s.dieMv d + 10 ∧
      s.dieMv d ≤ u.dieMv d + 10 ∨ 790 < s.dieMv d ∧
      u.hrt.powerW = b.powerW ∧
      u.time = { s.time with bellows := s.now / 100000 } ∧
      WorkKept s u)

/-- R443 to R447, R449 to R451, R455 (Tables 15.3 to 15.5): accesses of the host. Where the Command register and MSI-X lie in configuration space is from outside the spec (log entry 12). -/
def Obligations.HostAccessesReachTheBlock : Prop :=
  (∀ (s : State) (r : Nat) (tee : Bool),
    r < 256 →
    HostMay s .hif tee →
    exec (.abiNegotiate r tee) s = .next (State.recordRes 0 0 (s.abiReq (BitVec.ofNat 32 r)))) ∧
  (∀ (s : State) (v : W32) (tee : Bool),
    HostMay s .dev tee →
    exec (.remapSelect v tee) s = .next (State.recordRes 0 0xC00070 (s.remapReg v))) ∧
  (∀ (s : State) (vec : Nat) (tee : Bool),
    vec < 2048 →
    HostMay s .hif tee →
    exec (.msixUnmask vec tee) s = .next (s.msixReg (4 * vec + 3) 0)) ∧
  (∀ (s : State) (bar : Nat) (o mask : Nat) (item : RegItem) (v : W32) (tee pre : Bool),
    bar < 2 →
    regAt bar o = some (item, mask) →
    (Instr.registerWrite ⟨decide (bar = 1), o, 4, 15, v.setWidth 64, tee, pre⟩).wf = true →
    HostMay s item tee →
    exec (.registerWrite ⟨decide (bar = 1), o, 4, 15, v.setWidth 64, tee, pre⟩) s = .next (State.recordRes bar o (s.regSet bar o mask pre v))) ∧
  (∀ (s : State) (a : HostAcc),
    (Instr.registerWrite a).wf = true →
    exec (.registerWrite a) s = .next (s.regAccess a)) ∧
  (∀ (s : State) (r : Nat) (tee : Bool),
    r < 256 →
    HostMay s .hif tee →
    s.load.program = false →
    r ≠ 0 →
    exec (.abiNegotiate r tee) s = .next ({ s with hif := { s.hif with request := r, agreed := 1 } })) ∧
  (∀ (s : State) (v : W64) (tee pre : Bool),
    HostMay s .dev tee →
    s.load.st = .idle →
    fld v 0 12 = 0 →
    exec (.registerWrite ⟨false, 0xC01000, 8, 255, v, tee, pre⟩) s = .next ({ s with load := { s.load with addr := v } })) ∧
  (∀ (s : State) (v : W32) (tee pre : Bool),
    HostMay s .dev tee →
    s.load.st = .idle →
    fld v 0 12 = 0 →
    exec (.registerWrite ⟨false, 0xC01000, 4, 15, v.setWidth 64, tee, pre⟩) s = .next ({ s with load := { s.load with addr := BitVec.ofNat 64 (s.load.addr.toNat / 2 ^ 32 * 2 ^ 32 + v.toNat) } })) ∧
  (∀ (s : State) (v : W32) (tee : Bool),
    HostMay s .dev tee →
    tileOk v.toNat = true →
    exec (.remapSelect v tee) s = .next ({ s with hif := { s.hif with remapSel := v.toNat } })) ∧
  (∀ (s : State) (vec : Nat) (tee : Bool),
    vec < 2048 →
    HostMay s .hif tee →
    ∃ u, exec (.msixUnmask vec tee) s = .next u ∧ u.hif.msixWord (4 * vec + 3) = 0 ∧
      (s.hif.msixEn = true → s.hif.msixMask = false → s.hif.pba.contains vec = true → Out.msix vec ∈ u.out ∧ u.hif.pba.contains vec = false) ∧
      WorkKept s u) ∧
  (∀ (s : State) (l : Nat),
    30 ≤ l →
    l ≤ 41 →
    s.hif.linkUp = true →
    s.pwr.dom = .on →
    exec (.bar4Resize l) s = .next (if s.cfgLocked then s.recordCfg .denied else s.resize l)) ∧
  (∀ (s : State) (o : Nat) (v : W32),
    o < 4096 →
    o % 4 = 0 →
    s.hif.linkUp = true →
    s.pwr.dom = .on →
    exec (.configSpaceWrite o v) s = .next (if s.cfgLocked && Config.tdispLocks o then s.recordCfg .denied else s.cfgSet o v)) ∧
  (∀ (s : State) (off n : Nat) (tee : Bool) (e : OpRes),
    bar4Ok off n = true →
    exec (.bar4Read off n tee e) s = .next (s.bar4 true off n [] tee e)) ∧
  (∀ (s : State) (off : Nat) (bs : List (Option Byte)) (tee : Bool) (e : OpRes),
    bar4Ok off bs.length = true →
    exec (.bar4Write off bs tee e) s = .next (s.bar4 false off bs.length bs tee e)) ∧
  (∀ (s : State) (l : Nat),
    30 ≤ l →
    l ≤ 41 →
    s.hif.linkUp = true →
    s.pwr.dom = .on →
    s.cfgLocked = false →
    winFits s.hif.winBase l = true →
    exec (.bar4Resize l) s = .next ({ s with hif := { s.hif with log2 := l } })) ∧
  (∀ (s : State) (o : Nat) (v : W32),
    o < 4096 →
    o % 4 = 0 →
    s.hif.linkUp = true →
    s.pwr.dom = .on →
    (s.cfgLocked = false ∨ Config.tdispLocks o = false) →
    ∃ u, exec (.configSpaceWrite o v) s = .next u ∧ u.hif.cfg = SMap.setD s.hif.cfg o v 0 ∧
      (u.hif.busMaster = if o = 4 then v.getLsbD 2 else s.hif.busMaster) ∧
      WorkKept s u) ∧
  (∀ (s : State) (t : State) (off n : Nat) (tee : Bool) (bs : List Byte),
    s.barShut tee = false →
    s.hif.winEn = true →
    s.sec.st = .tenanted →
    (s.ctx? s.hif.winCtx).isSome = true →
    off + n ≤ 2 ^ s.hif.log2 →
    1 ≤ n →
    n ≤ 4096 →
    off + n ≤ 2 ^ 41 →
    (s.hif.winBase + off) % pageSize + n ≤ pageSize →
    (localRange (s.hif.winBase + off) = .t1 ∨ localRange (s.hif.winBase + off) = .t2) →
    s.winRead ⟨false, true, .job⟩ s.hif.winCtx (s.hif.winBase + off) n = (t, .got bs []) →
    exec (.bar4Read off n tee .ok) s = .next (t.emit (.bar4 off ((List.range n).map fun i => bs.getD i 0)))) ∧
  (∀ (s : State) (t : State) (off : Nat) (tee : Bool) (bs : List Byte),
    s.barShut tee = false →
    s.hif.winEn = true →
    s.sec.st = .tenanted →
    (s.ctx? s.hif.winCtx).isSome = true →
    off + bs.length ≤ 2 ^ s.hif.log2 →
    1 ≤ bs.length →
    bs.length ≤ 4096 →
    off + bs.length ≤ 2 ^ 41 →
    (s.hif.winBase + off) % pageSize + bs.length ≤ pageSize →
    (localRange (s.hif.winBase + off) = .t1 ∨ localRange (s.hif.winBase + off) = .t2) →
    s.winWrite ⟨false, false, .job⟩ s.hif.winCtx (s.hif.winBase + off) bs [] = (t, .done) →
    exec (.bar4Write off (bs.map some) tee .ok) s = .next (t))

/-- R449, R450, R456, R465 (Table 16.3): host reads and the host link. -/
def Obligations.HostReadsComplete : Prop :=
  (∀ (s : State) (tag : Nat) (x : T3Read) (e : T3Res),
    SMap.get? s.hif.t3 tag = some x →
    (s.hif.linkUp = false ∨ x.since + s.hif.cplTmo ≤ s.now) →
    exec (.t3ReadCompletion tag e) s = .next (s)) ∧
  (∀ (s : State) (tag : Nat) (x : T3Read) (e : T3Res),
    SMap.get? s.hif.t3 tag = some x →
    s.hif.linkUp = true →
    s.now < x.since + s.hif.cplTmo →
    exec (.t3ReadCompletion tag e) s = .next (if s.t3Denied then (s.t3Result tag x .denied []).resume else match e with | .data bs => (if bs.length = x.n then (s.t3Result tag x .ok bs).resume else s) | .poisoned bs => (if bs.length = x.n then (s.t3Result tag x .parity bs).resume else s) | .unsupported => (s.t3Result tag x .denied []).resume)) ∧
  (∀ (s : State) (tag : Nat) (x : T3Read),
    SMap.get? s.hif.t3 tag = some x →
    x.since + s.hif.cplTmo ≤ s.now →
    exec (.t3CompletionTimeout tag) s = .next ((s.t3Result tag x .abandoned []).resume)) ∧
  (∀ (s : State) (tag : Nat) (c : Instr) (e : T3Res),
    SMap.get? s.hif.t3 tag = none →
    c = .t3CompletionTimeout tag ∨ c = .t3ReadCompletion tag e →
    exec (c) s = .next (s)) ∧
  (∀ (s : State) (rate width : Nat) (flit : Bool),
    1 ≤ rate →
    rate ≤ 6 →
    ([1, 2, 4, 8, 16].contains width) = true →
    s.hif.linkUp = false →
    s.pwr.dom = .on →
    exec (.linkUp rate width flit) s = .next (State.resume (State.flushMsix { s with out := s.out ++ s.hif.held, hif := { s.hif with linkUp := true, rate := rate, width := width, flit := flit, downSince := none, held := [] } }))) ∧
  (∀ (s : State) (t : Nat),
    s.hif.downSince = some t →
    s.hif.linkUp = false →
    t + 100000000 < s.now →
    exec (.linkDownTimeout) s = .next (({ s with hif := { s.hif with downSince := none } }).warmReset 4)) ∧
  (∀ (s : State),
    exec (.pcieConventionalReset) s = .next (s.warmReset 2)) ∧
  (∀ (s : State),
    s.hif.linkUp = true →
    exec (.functionLevelReset) s = .next (s.warmReset 3)) ∧
  (∀ (s : State) (tag id k : Nat) (x : T3Read) (d : Desc) (b : MoveBody) (r : MoveRun) (bs : List Byte),
    SMap.get? s.hif.t3 tag = some x →
    x.who = some (id, k) →
    s.t3Piece id k tag = true →
    s.desc? id = some d →
    d.body = .move b r →
    s.fab.served = [] →
    s.hif.bar4 = [] →
    s.hif.linkUp = true →
    s.now < x.since + s.hif.cplTmo →
    s.t3Denied = false →
    bs.length = x.n →
    r.stop = false →
    ∃ u, exec (.t3ReadCompletion tag (.data bs)) s = .next u ∧ (u.desc? id = some { d with body := .move b { r with pieces := SMap.adj r.pieces k fun p => { p with st := .have_ bs [] } } }) ∧
      u.hif.t3 = SMap.erase s.hif.t3 tag ∧
      u.tiles = s.tiles ∧
      u.queues = s.queues ∧
      u.ctxs = s.ctxs ∧
      u.mem = s.mem ∧
      u.out = s.out) ∧
  (∀ (s : State) (tag id k : Nat) (x : T3Read) (d : Desc) (b : MoveBody) (r : MoveRun),
    SMap.get? s.hif.t3 tag = some x →
    x.who = some (id, k) →
    s.t3Piece id k tag = true →
    s.desc? id = some d →
    d.body = .move b r →
    s.fab.served = [] →
    s.hif.bar4 = [] →
    x.since + s.hif.cplTmo ≤ s.now →
    ∃ u, exec (.t3CompletionTimeout tag) s = .next u ∧ u.hif.t3 = SMap.erase s.hif.t3 tag ∧
      (u.desc? id).map (·.status) = some (d.status.worse .abandoned) ∧
      u.queues = s.queues ∧
      u.ctxs = s.ctxs) ∧
  (∀ (s : State),
    s.hif.linkUp = true →
    exec (.linkDown) s = .next ({ s with hif := { s.hif with linkUp := false, rate := 0, width := 0, flit := false, downSince := some s.now } })) ∧
  (∀ (s : State) (rate width : Nat) (flit : Bool),
    1 ≤ rate →
    rate ≤ 6 →
    ([1, 2, 4, 8, 16].contains width) = true →
    s.hif.linkUp = false →
    s.pwr.dom = .on →
    s.fab.served = [] →
    s.hif.bar4 = [] →
    ∃ u, exec (.linkUp rate width flit) s = .next u ∧ u.hif.linkUp = true ∧
      u.hif.rate = rate ∧
      u.hif.width = width ∧
      u.hif.flit = flit ∧
      u.hif.held = [] ∧
      u.hif.downSince = none ∧
      (u.out.take (s.out ++ s.hif.held).length = s.out ++ s.hif.held) ∧
      WorkKept s u) ∧
  (∀ (s : State) (t : Nat),
    s.hif.downSince = some t →
    s.hif.linkUp = false →
    t + 100000000 < s.now →
    s.computeOn = true →
    ∃ u, exec (.linkDownTimeout) s = .next u ∧ u.pwr.warm = some 4 ∧
      u.hif.downSince = none ∧
      u.load.program = false ∧
      u.ctxs = [] ∧
      u.queues = []) ∧
  (∀ (s : State),
    s.computeOn = true →
    ∃ u, exec (.pcieConventionalReset) s = .next u ∧ u.pwr.warm = some 2 ∧
      u.load.program = false ∧
      u.ctxs = [] ∧
      u.queues = [] ∧
      u.hif.cfg = [] ∧
      u.hif.msix = []) ∧
  (∀ (s : State),
    s.computeOn = true →
    s.hif.linkUp = true →
    ∃ u, exec (.functionLevelReset) s = .next u ∧ u.pwr.warm = some 3 ∧
      u.load.program = false ∧
      u.ctxs = [] ∧
      u.queues = [] ∧
      u.hif.cfg = [] ∧
      u.hif.msix = [])

/-- R368, R369, R464 to R466 (Tables 16.2 to 16.4): resets; each command is the shared operation of its reset, whatever the state. -/
def Obligations.DiesAreResetAndTheDevice : Prop :=
  (∀ (s : State) (die : Nat),
    die < 8 →
    exec (.dieFaultReset die) s = .next (s.dieReset die 5)) ∧
  (∀ (s : State) (die : Nat) (tee : Bool),
    die < 8 →
    HostMay s .dev tee →
    exec (.dieResetRequest die tee) s = .next (State.recordRes 0 0xC00110 (s.resetReq (BitVec.ofNat 32 (2 ^ 30 + die))))) ∧
  (∀ (s : State) (die : Nat) (tee : Bool),
    die < 8 →
    HostMay s .dev tee →
    exec (.dieResetRequest die tee) s = .next (s.dieReset die 1)) ∧
  (∀ (s : State) (die : Nat),
    die < 8 →
    exec (.dieResetComplete die) s = .next (s.dieResetEnd die)) ∧
  (∀ (s : State) (die : Nat),
    (s.die die).rst = none ∨ (s.die die).trip = true ∨ s.now < (s.die die).since + 20000000 →
    die < 8 →
    exec (.dieResetComplete die) s = .next (s)) ∧
  (∀ (s : State) (tee : Bool),
    HostMay s .dev tee →
    exec (.warmResetRequest tee) s = .next (s.warmReset 1)) ∧
  (∀ (s : State),
    exec (.warmResetComplete) s = .next (s.warmEnd)) ∧
  (∀ (s : State) (die : Nat),
    die < 8 →
    s.computeOn = true →
    (s.die die).rst = none →
    ∃ u, exec (.dieFaultReset die) s = .next u ∧ (u.die die).rst = some 5 ∧
      (u.die die).park = .run ∧
      SMap.get? u.brmDie die = none) ∧
  (∀ (s : State) (die : Nat) (tee : Bool),
    die < 8 →
    HostMay s .dev tee →
    s.pwr.warm = none →
    (s.die die).rst = none →
    ∃ u, exec (.dieResetRequest die tee) s = .next u ∧ (u.die die).rst = some 1 ∧
      (u.die die).park = .run ∧
      SMap.get? u.brmDie die = none) ∧
  (∀ (s : State) (die src : Nat),
    die < 8 →
    s.computeOn = true →
    (s.die die).rst = some src →
    (s.die die).trip = false →
    (s.die die).since + 20000000 ≤ s.now →
    s.fab.served = [] →
    s.hif.bar4 = [] →
    ∃ u, exec (.dieResetComplete die) s = .next u ∧ (u.die die).rst = none ∧
      u.pwr.dieCnt = satInc s.pwr.dieCnt ∧
      u.pwr.kind = 4 ∧
      u.pwr.source = src ∧
      u.pwr.arg = die ∧
      u.pwr.new = true ∧
      u.pwr.widest = max s.pwr.widest 4) ∧
  (∀ (s : State) (tee : Bool),
    HostMay s .dev tee →
    s.pwr.warm = none →
    ∃ u, exec (.warmResetRequest tee) s = .next u ∧ u.pwr.warm = some 1 ∧
      u.pwr.warmSince = s.now ∧
      u.tiles = [] ∧
      u.ctxs = [] ∧
      u.queues = [] ∧
      u.descs = [] ∧
      u.sigs = [] ∧
      u.stages = [] ∧
      u.sch = Sch.reset ∧
      u.load.program = false ∧
      u.load.frame = s.load.frame ∧
      u.flt.parts = [] ∧
      u.hif.agreed = 0 ∧
      u.sec.st = s.sec.st) ∧
  (∀ (s : State) (src : Nat),
    s.pwr.warm = some src →
    s.pwr.warmSince + 150000000 ≤ s.now →
    s.fab.served = [] →
    s.hif.bar4 = [] →
    ∃ u, exec (.warmResetComplete) s = .next u ∧ u.pwr.warm = none ∧
      u.pwr.warmCnt = satInc s.pwr.warmCnt ∧
      u.pwr.kind = 5 ∧
      u.pwr.source = src ∧
      (u.sec.st = (if s.sec.exiting then .ownedIdle else s.sec.st))) ∧
  (∀ (s : State) (tee : Bool),
    HostMay s .dev tee →
    exec (.resetCauseClear tee) s = .next ({ s with pwr := { s.pwr with new := false, widest := 0 } }))

/-- R460 to R462 (Table 16.2): parking a die. -/
def Obligations.DiesParkAndWake : Prop :=
  (∀ (s : State) (die : Nat) (tee : Bool),
    die < 8 →
    HostMay s .dev tee →
    exec (.parkIdle die tee) s = .next (State.recordRes 0 (0xC00120 + 4 * die) (s.parkCtl die 0x80000000))) ∧
  (∀ (s : State) (die : Nat) (tee : Bool),
    die < 8 →
    HostMay s .dev tee →
    exec (.parkDeep die tee) s = .next (State.recordRes 0 (0xC00120 + 4 * die) (s.parkCtl die 0x40000000))) ∧
  (∀ (s : State) (die : Nat) (tee : Bool),
    die < 8 →
    HostMay s .dev tee →
    exec (.parkWake die tee) s = .next (s.wakeDie die)) ∧
  (∀ (s : State) (die : Nat),
    die < 8 →
    (s.die die).park ≠ .entering →
    exec (.parkEntryComplete die) s = .next (s)) ∧
  (∀ (s : State) (die : Nat),
    die < 8 →
    (s.die die).park = .entering →
    exec (.parkEntryComplete die) s = .next ((if (s.die die).deep then (s.dieLost die).modDie die fun x => { x with park := .deep, since := s.now } else s.modDie die fun x => { x with park := .idle, since := s.now }))) ∧
  (∀ (s : State) (die : Nat),
    die < 8 →
    (s.die die).park = .waking →
    (s.die die).since + (if (s.die die).deep then 3000000 else 20000) ≤ s.now →
    exec (.parkWakeDone die) s = .next ((if (s.die die).deep then (s.modDie die fun x => { x with park := .run, deep := false, since := s.now }).resetRecord 3 10 die else s.modDie die fun x => { x with park := .run, deep := false, since := s.now }).dieBack)) ∧
  (∀ (s : State) (die : Nat),
    die < 8 →
    (s.die die).park ≠ .waking ∨ s.now < (s.die die).since + (if (s.die die).deep then 3000000 else 20000) →
    exec (.parkWakeDone die) s = .next (s)) ∧
  (∀ (s : State) (die : Nat) (tee : Bool),
    die < 8 →
    HostMay s .dev tee →
    s.parkBusy die = false →
    (s.die die).park = .run →
    exec (.parkIdle die tee) s = .next ({ s with pwr := { s.pwr with dies := SMap.modD s.pwr.dies die Die.reset fun x => { x with park := .entering, deep := false, since := s.now } } })) ∧
  (∀ (s : State) (die : Nat) (tee : Bool),
    die < 8 →
    HostMay s .dev tee →
    s.parkBusy die = false →
    (s.die die).park = .run ∨ (s.die die).park = .idle →
    exec (.parkDeep die tee) s = .next ({ s with pwr := { s.pwr with dies := SMap.modD s.pwr.dies die Die.reset fun x => { x with park := .entering, deep := true, since := s.now } } })) ∧
  (∀ (s : State) (die : Nat),
    die < 8 →
    (s.die die).park = .entering →
    (s.die die).deep = false →
    exec (.parkEntryComplete die) s = .next ({ s with pwr := { s.pwr with dies := SMap.modD s.pwr.dies die Die.reset fun x => { x with park := .idle, since := s.now } } })) ∧
  (∀ (s : State) (die p : Nat),
    die < 8 →
    (s.die die).park = .entering →
    (s.die die).deep = true →
    physDie p = die →
    SMap.wf s.tiles = true →
    ∃ u, exec (.parkEntryComplete die) s = .next u ∧ (u.die die).park = .deep ∧
      u.ptile p = (s.ptile p).toDefaults ∧
      SMap.get? u.brmDie die = none ∧
      u.queues = s.queues ∧
      u.ctxs = s.ctxs ∧
      u.descs = s.descs ∧
      u.mem = s.mem) ∧
  (∀ (s : State) (die : Nat) (tee : Bool),
    die < 8 →
    HostMay s .dev tee →
    (s.die die).park = .idle ∨ (s.die die).park = .deep →
    exec (.parkWake die tee) s = .next ({ s with pwr := { s.pwr with dies := SMap.modD s.pwr.dies die Die.reset fun x => { x with park := .waking, deep := decide ((s.die die).park = .deep), since := s.now } } })) ∧
  (∀ (s : State) (die : Nat),
    die < 8 →
    (s.die die).park = .waking →
    (s.die die).since + (if (s.die die).deep then 3000000 else 20000) ≤ s.now →
    s.fab.served = [] →
    s.hif.bar4 = [] →
    ∃ u, exec (.parkWakeDone die) s = .next u ∧ (u.die die).park = .run ∧
      (u.die die).deep = false)

/-- R458, R459, R463, R471, R472 (Tables 16.1 to 16.3): power. -/
def Obligations.PowerGoesAndComes : Prop :=
  (∀ (s : State) (tee : Bool),
    HostMay s .dev tee →
    exec (.standbyEnter tee) s = .next (s.standbyRequest 1)) ∧
  (∀ (s : State) (who : MgmtFrom),
    s.hrt.ready = true →
    exec (.computePowerStandby who) s = .next ((if s.mayCompute who then (s.standbyRequest 11).emit (.mgmt 0x109 .ok []) else s.emit (.mgmt 0x109 .denied [])))) ∧
  (∀ (s : State) (who : MgmtFrom),
    s.hrt.ready = true →
    s.mayCompute who = false →
    exec (.computePowerOn who) s = .next (s.emit (.mgmt 0x109 .denied []))) ∧
  (∀ (s : State) (k n : Nat),
    3 ≤ k →
    k ≤ 6 →
    sensorOk n = true →
    s.pwr.dom ≠ .off →
    let v := s.tripRecord k n
    let w := ({ v with pwr := { v.pwr with latch := true } } : State)
    exec (.moduleTrip k n) s = .next ((if s.pwr.dom = .on then w.standbyGo 5 else w.domainDown 5))) ∧
  (∀ (s : State) (die : Nat) (k : TripKind),
    (Instr.dieTrip die k).wf = true →
    s.pwr.dom = .on →
    exec (.dieTrip die k) s = .next (((s.tripRecord (tripOf die k).1 (tripOf die k).2).dieReset die 5).modDie die fun x => { x with trip := true })) ∧
  (∀ (s : State) (die : Nat),
    die < 8 →
    (s.die die).trip = true →
    s.cooled die = true →
    exec (.dieTripRelease die) s = .next (((s.modDie die fun x => { x with trip := false }).dieResetEnd die).dieBack)) ∧
  (∀ (s : State) (c : Nat),
    s.hrt.ready = true →
    s.pwr.dom = .off →
    s.powerUnmet = some c →
    exec (.domainPowerUp) s = .next ((if s.pwr.unmet = some c then s else ({ s with pwr := { s.pwr with unmet := some c } } : State).ev 0x05FF 0 0 (c * 2 ^ 8) 0))) ∧
  (∀ (s : State),
    s.pwr.dom ≠ .rising ∨ s.now < s.pwr.domSince + 64000000 →
    exec (.powerUpComplete) s = .next (s)) ∧
  (∀ (s : State) (tee : Bool),
    HostMay s .dev tee →
    ∃ u, exec (.standbyEnter tee) s = .next u ∧ u.pwr.dom = .off ∧
      u.tiles = [] ∧
      u.ctxs = [] ∧
      u.queues = [] ∧
      u.descs = [] ∧
      u.load = Load.reset ∧
      u.mem.objs = [] ∧
      u.time.now = s.time.now ∧
      u.pwr.standbyReq = some 1 ∧
      u.pwr.standbySrc = 1 ∧
      u.sec.tkey = s.sec.tkey) ∧
  (∀ (s : State) (who : MgmtFrom),
    s.hrt.ready = true →
    s.mayCompute who = true →
    s.pwr.dom = .on →
    ∃ u, exec (.computePowerStandby who) s = .next u ∧ u.pwr.dom = .off ∧
      u.tiles = [] ∧
      u.ctxs = [] ∧
      u.queues = [] ∧
      u.descs = [] ∧
      u.load = Load.reset ∧
      u.mem.objs = [] ∧
      u.time.now = s.time.now ∧
      u.pwr.standbyReq = some 11 ∧
      u.pwr.standbySrc = 11 ∧
      u.out.getLast? = some (.mgmt 0x109 .ok [])) ∧
  (∀ (s : State) (who : MgmtFrom),
    s.hrt.ready = true →
    s.mayCompute who = true →
    exec (.computePowerOn who) s = .next (({ s with pwr := { s.pwr with standbyReq := none, latch := false } }).emit (.mgmt 0x109 .ok []))) ∧
  (∀ (s : State),
    s.pwr.dom ≠ .off →
    ∃ u, exec (.inputUndervoltage) s = .next u ∧ u.pwr.dom = .off ∧
      u.tiles = [] ∧
      u.ctxs = [] ∧
      u.queues = [] ∧
      u.descs = [] ∧
      u.load = Load.reset ∧
      u.mem.objs = [] ∧
      u.time.now = s.time.now ∧
      u.pwr.standbySrc = 0) ∧
  (∀ (s : State),
    s.pwr.dom ≠ .off →
    ∃ u, exec (.inputDisconnect) s = .next u ∧ u.pwr.dom = .off ∧
      u.tiles = [] ∧
      u.ctxs = [] ∧
      u.queues = [] ∧
      u.descs = [] ∧
      u.load = Load.reset ∧
      u.mem.objs = [] ∧
      u.time.now = s.time.now ∧
      u.pwr.standbySrc = 0) ∧
  (∀ (s : State) (k n : Nat),
    3 ≤ k →
    k ≤ 6 →
    sensorOk n = true →
    s.pwr.dom ≠ .off →
    ∃ u, exec (.moduleTrip k n) s = .next u ∧ u.pwr.dom = .off ∧
      u.tiles = [] ∧
      u.ctxs = [] ∧
      u.queues = [] ∧
      u.descs = [] ∧
      u.load = Load.reset ∧
      u.mem.objs = [] ∧
      u.time.now = s.time.now ∧
      u.pwr.latch = true ∧
      u.pwr.standbySrc = 5) ∧
  (∀ (s : State) (die n : Nat),
    die < 8 →
    n / 8 = die →
    s.computeOn = true →
    (s.die die).rst = none →
    ∃ u, exec (.dieTrip die (.diode n)) s = .next u ∧ (u.die die).trip = true ∧
      (u.die die).rst = some 5) ∧
  (∀ (s : State) (die : Nat),
    die < 8 →
    s.cooled die = false →
    exec (.dieTripRelease die) s = .next (s)) ∧
  (∀ (s : State) (die : Nat),
    die < 8 →
    (s.die die).trip = true →
    s.cooled die = true →
    s.fab.served = [] →
    s.hif.bar4 = [] →
    ∃ u, exec (.dieTripRelease die) s = .next u ∧ (u.die die).trip = false) ∧
  (∀ (s : State),
    ∃ u, exec (.standbyRailLoss) s = .next u ∧ u.pwr.dom = .off ∧
      u.pwr.standbyRail = false ∧
      u.hrt.ready = false ∧
      u.hrt.restart = .none ∧
      u.sec.sessions = [] ∧
      u.sec.owner = s.sec.owner) ∧
  (∀ (s : State),
    s.hrt.ready = true →
    s.pwr.dom = .off →
    s.powerUnmet = none →
    ∃ u, exec (.domainPowerUp) s = .next u ∧ u.pwr.dom = .rising ∧
      u.time = RefTime.reset ∧
      u.tiles = s.tiles ∧
      u.queues = s.queues ∧
      u.ctxs = s.ctxs ∧
      u.mem = s.mem) ∧
  (∀ (s : State),
    s.pwr.dom = .rising →
    s.pwr.domSince + 64000000 ≤ s.now →
    s.pwr.standbyReq = none →
    ∃ u, exec (.powerUpComplete) s = .next u ∧ u.pwr.dom = .on ∧
      u.sec.memKeys = s.sec.tkey.isSome ∧
      (u.hrt.dieMv = (List.range 8).map fun d => (d, 720)) ∧
      (u.pwr.kind = (if s.pwr.powerOn then 7 else 6)) ∧
      u.pwr.new = true ∧
      u.tiles = s.tiles ∧
      u.ctxs = s.ctxs)

/-- R33, R390 to R392, R408, R458, R464, R477 (Table 16.2): power-on and laser units. That DUE outlives power-on is read from R387 and R464 (log entry 178). -/
def Obligations.PowerOnAndTheLaserUnits : Prop :=
  (∀ (s : State),
    ∃ u, exec (.powerOnReset) s = .next u ∧ u.pwr.dom = .off ∧
      u.tiles = [] ∧
      u.ctxs = [] ∧
      u.queues = [] ∧
      u.descs = [] ∧
      u.mem.objs = [] ∧
      u.load = Load.reset ∧
      (u.hif = Hif.reset) ∧
      u.fab = Fab.reset ∧
      u.time = RefTime.reset ∧
      u.hrt.ready = false ∧
      u.hrt.restart = .power ∧
      u.flt.retired = s.flt.retired ∧
      u.flt.due.map (·.ptile) = s.flt.due.map (·.ptile) ∧
      u.sec.owner = s.sec.owner ∧
      u.sec.ofab = s.sec.ofab ∧
      u.sec.tkey = none ∧
      (u.sec.st = (if s.sec.st = .unowned then .unowned else .ownedIdle)) ∧
      (s.sec.st = .tenanted → u.sec.record.tenancy = s.sec.tenancy ∧ u.sec.record.result = 0xE0 ∧ u.sec.record.cause = 2) ∧
      u.pwr.kind = 7 ∧
      u.pending = s.pending) ∧
  (∀ (s : State) (d : Nat),
    d < 8 →
    s.pwr.lasers.contains d = true →
    s.pwr.dom = .on →
    let v := ({ s with pwr := { s.pwr with lasers := s.pwr.lasers.filter (· ≠ d), lasersOk := s.pwr.lasersOk.filter (· ≠ d) } } : State)
    exec (.laserUnitRemoved d) s = .next ((((List.range 6).foldl (fun (s : State) i => s.onPortRow (6 * d + i) fun x => x.lightLost (6 * d + i) 31 s.now) v).laserRecord d).refreshAlarm)) ∧
  (∀ (s : State) (d : Nat),
    d < 8 →
    s.pwr.lasers.contains d = true →
    s.pwr.lasersOk.contains d = false →
    let v := ({ s with pwr := { s.pwr with lasersOk := s.pwr.lasersOk ++ [d] } } : State)
    exec (.laserReady d) s = .next (((List.range 6).foldl (fun (s : State) i => s.onPortRow (6 * d + i) fun x => x.lightReturn (6 * d + i) 31 s.now) v).refreshAlarm)) ∧
  (∀ (s : State) (d : Nat) (c : Instr),
    d < 8 →
    (c, s.pwr.lasers.contains d, s.pwr.lasersOk.contains d) ∈ [(Instr.laserUnitRemoved d, false, false), (.laserUnitRemoved d, false, true), (.laserUnitInserted d, true, true), (.laserUnitInserted d, true, false), (.laserReady d, true, true), (.laserReady d, false, false), (.laserReady d, false, true)] →
    exec (c) s = .next (s)) ∧
  (∀ (s : State) (d : Nat),
    d < 8 →
    s.pwr.lasers.contains d = true →
    ∃ u, exec (.laserUnitRemoved d) s = .next u ∧ u.pwr.lasers = s.pwr.lasers.filter (· ≠ d) ∧
      u.pwr.lasersOk = s.pwr.lasersOk.filter (· ≠ d) ∧
      WorkKept s u) ∧
  (∀ (s : State) (d : Nat),
    d < 8 →
    s.pwr.lasers.contains d = false →
    exec (.laserUnitInserted d) s = .next ({ s with pwr := { s.pwr with lasers := s.pwr.lasers ++ [d] } })) ∧
  (∀ (s : State) (d : Nat),
    d < 8 →
    s.pwr.lasers.contains d = true →
    s.pwr.lasersOk.contains d = false →
    ∃ u, exec (.laserReady d) s = .next u ∧ u.pwr.lasersOk = s.pwr.lasersOk ++ [d] ∧
      WorkKept s u)

/-- R52, R390, R458, R464 (Tables 2.4, 11.11, 12.11, 14.3, 15.3, 16.1, 16.2): what a power-on reset of a module that has never
been owned leaves. Values the spec gives no reset value for are left out (log entry 9). That the secrets are confined at reset is the
base of SecretsStayConfined. -/
def Obligations.ResetState : Prop :=
  ((State.reset.sec.st = .unowned ∧ State.reset.sec.owner = none ∧ State.reset.sec.ofab = none ∧ State.reset.sec.sessions = [] ∧
    State.reset.sec.debugOpen = false ∧ State.reset.sec.challenge = 0 ∧ State.reset.sec.tdi = .unlocked ∧ State.reset.secretsConfined = true)) ∧
  ((State.reset.time.now = 0 ∧ State.reset.time.st = .free ∧ State.reset.pwr.dom = .off ∧ State.reset.pwr.warm = none ∧ State.reset.pwr.latch = false ∧
    State.reset.hrt.ready = false ∧ State.reset.hrt.restart = .power ∧ State.reset.hrt.coalMs = 100 ∧ State.reset.hrt.rate = 64)) ∧
  ((State.reset.load.st = .idle ∧ State.reset.load.frame = false ∧ State.reset.load.program = false ∧ State.reset.hif.agreed = 0 ∧
    State.reset.hif.log2 = 36 ∧ State.reset.hif.winEn = false ∧ State.reset.hif.linkUp = false ∧ State.reset.flt.remoteMs = 50 ∧
    State.reset.flt.fillMs = 20 ∧ State.reset.flt.replayMs = 1000 ∧ State.reset.flt.autoqMs = 100 ∧ State.reset.flt.autoq = true)) ∧
  (((∀ p, State.reset.ptile p = Tile.reset) ∧ (∀ q, State.reset.queue q = Queue.reset) ∧ State.reset.ctxs = [] ∧ State.reset.descs = [] ∧
    State.reset.mem.objs = [] ∧ State.reset.fab.txns = [] ∧ State.reset.fab.insts = [] ∧ State.reset.pending = [] ∧ State.reset.out = []))

/-- The model's choice (log entry 2), over R52 and R53: the reference time counter advances on its own, never decreases, and is
corrected within the limits of Table 2.4. -/
def Obligations.EmptyQueueIdles : Prop :=
  (∀ (s : State), s.pending = [] →
    step s = .next s.idle) ∧
  (∀ (s : State), s.pwr.dom = .off →
    s.idle = s) ∧
  (∀ (s : State), s.pwr.dom ≠ .off → s.stages = [] → s.sch.parts = [] → s.fab.ports = [] → s.fab.served = [] → s.hif.bar4 = [] →
    ∃ t, s.idle = { s with time := t } ∧ s.time.now ≤ t.now ∧ t.now ≤ s.time.now + 2 ∧ (s.time.st = .free → t.now = s.time.now + 1))

/-- R391, R392, R406, R408, R410, R413 and Table 13.3: where keys of a tenancy may exist. That it holds at reset is part of
ResetState. That the loss of the 48 V domain completes an EXIT_MAINT is the model's choice (log entry 125). -/
def Obligations.SecretsStayConfined : Prop :=
  ∀ (s u : State), s.secretsConfined = true → step s = .next u →
    u.secretsConfined = true

/-- R399, R400, R456: requests that the interface does not take in have no effect. That they are not logged either follows R453
(log). -/
def Obligations.NothingEntersAShutInterface : Prop :=
  ∀ (c : Instr) (s : State) (tee : Bool), c.hostTee = some tee →
    (s.hif.linkUp = false ∨ s.pwr.dom ≠ .on ∨ s.sec.tdi = .error ∨ (s.sec.tdi = .run ∧ tee = false)) →
    exec c s = .next s

/-- The model's own rules (log entries 1 and 3): commands are total, one that names no existing
unit does nothing, and only a step takes a command from the queue. -/
def Obligations.CommandsRunAndKeepTheQueue : Prop :=
  (∀ (c : Instr) (s : State),
    ∃ u, exec c s = .next u ∧ u.pending = s.pending) ∧
  (∀ (c : Instr) (s : State), c.wf = false →
    exec c s = .next s)

end
end

