-- ==== Sys2Proof/Laws/KeepOps.lean ====
section
/-! SUPPORT. What the shared operations leave alone: the Gauntlet's state and the queue of commands. One lemma for each
operation, module by module. -/
namespace Sys2Proof

/-- The values of Sec.core. -/
abbrev SecCore : Type := SecSt × Bool × Option (List Byte) × Option (List Byte × List Byte) × Option (List Byte)
    × Option (List Byte) × Bool × Bool

/-- What decides where the secrets of a tenancy may be: the security state, an EXIT_MAINT under way, and the secrets. -/
def Sec.core (x : Sec) : SecCore :=
  (x.st, x.exiting, x.tkey, x.tload, x.tfab, x.tfabPrev.map (·.1), x.memKeys, x.logKey)

@[simp] theorem Sec.core_mk (st) (debugCount) (tenancy) (owner) (maint) (ofab) (ofabPrev) (tkey) (lease) (tload) (tfab) (tfabPrev) (memKeys) (logKey) (ideKeys) (ideSecure) (fine) (tdi) (challenge) (ownerNonce) (tenantNonce) (debugOpen) (record) (hand) (sessions) (nextSession) (exiting) (failedUnits) :
    (Sec.mk st debugCount tenancy owner maint ofab ofabPrev tkey lease tload tfab tfabPrev memKeys logKey ideKeys ideSecure fine tdi challenge ownerNonce tenantNonce debugOpen record hand sessions nextSession exiting failedUnits).core = (st, exiting, tkey, tload, tfab, tfabPrev.map (·.1), memKeys, logKey) := rfl

@[simp] theorem Sec.core_eta (x : Sec) : (x.st, x.exiting, x.tkey, x.tload, x.tfab, x.tfabPrev.map (·.1), x.memKeys, x.logKey) = x.core := rfl

end Sys2Proof

namespace Sys2Proof.Machine

/-- The Gauntlet's secrets and the waiting commands: what almost every operation leaves as it was. -/
def State.kp (s : State) : SecCore × List Instr := (s.sec.core, s.pending)

@[simp] theorem State.kp_mk (pending) (free) (time) (tiles) (brmDie) (brm) (ctxs) (queues) (descs) (nextDesc) (sigs) (lastStart) (starts) (engines) (stages) (sch) (mem) (fab) (load) (flt) (sec) (hrt) (hif) (pwr) (remap) (out) :
    (State.mk pending free time tiles brmDie brm ctxs queues descs nextDesc sigs lastStart starts engines stages sch mem fab load flt sec hrt hif pwr remap out).kp = (sec.core, pending) := rfl

@[simp] theorem State.kp_eta (s : State) : (s.sec.core, s.pending) = s.kp := rfl

@[simp] theorem State.kp_ite {c : Prop} [Decidable c] (a b : State) : (if c then a else b).kp = if c then a.kp else b.kp := by
  split <;> rfl

@[simp] theorem State.kp_ite_fst {c : Prop} [Decidable c] {β : Type} (a b : State × β) :
    (if c then a else b).1.kp = if c then a.1.kp else b.1.kp := by split <;> rfl

@[simp] theorem State.kp_foldl {α : Type} (f : State → α → State) (h : ∀ s a, (f s a).kp = s.kp) (l : List α) (s : State) :
    (l.foldl f s).kp = s.kp := by
  induction l generalizing s with
  | nil => rfl
  | cons a l ih => rw [List.foldl_cons, ih, h]

@[simp] theorem State.kp_foldl_fst {α β : Type} (f : State × β → α → State × β) (h : ∀ r a, (f r a).1.kp = r.1.kp) (l : List α)
    (r : State × β) : (l.foldl f r).1.kp = r.1.kp := by
  induction l generalizing r with
  | nil => rfl
  | cons a l ih => rw [List.foldl_cons, ih, h]

@[simp] theorem State.kp_elim {α : Type} (s : State) (o : Option α) (f : α → State) (h : ∀ a, (f a).kp = s.kp) :
    (o.elim s f).kp = s.kp := by cases o <;> simp [h]

theorem State.kp_fab (s : State) (f : Fab) : ({ s with fab := f } : State).kp = s.kp := rfl

theorem State.kp_sec {s u : State} (h : u.kp = s.kp) : u.sec.core = s.sec.core := congrArg Prod.fst h

theorem State.kp_pending {s u : State} (h : u.kp = s.kp) : u.pending = s.pending := congrArg Prod.snd h

@[simp] theorem State.recurred_kp (s : State) (r : Recur) :
    (State.recurred s r).kp = s.kp := by
  unfold State.recurred
  rfl

@[simp] theorem State.draw_kp (s : State) :
    (State.draw s).2.kp = s.kp := by
  unfold State.draw
  rfl

@[simp] theorem State.emit_kp (s : State) (o : Out) :
    (State.emit s o).kp = s.kp := by
  unfold State.emit
  rfl

@[simp] theorem State.setPtile_kp (s : State) (p : Nat) (t : Tile) :
    (State.setPtile s p t).kp = s.kp := by
  unfold State.setPtile
  rfl

@[simp] theorem State.setTile_kp (s : State) (l : Nat) (t : Tile) :
    (State.setTile s l t).kp = s.kp := by
  unfold State.setTile
  repeat' (first | rfl | (simp; done) | split | dsimp only | intro _)

@[simp] theorem State.mapTiles_kp (s : State) (f : Nat → Tile → Bool) (g : Tile → Tile) :
    (State.mapTiles s f g).kp = s.kp := by
  unfold State.mapTiles
  rfl

@[simp] theorem State.modCtx_kp (s : State) (c : Nat) (f : Ctx → Ctx) :
    (State.modCtx s c f).kp = s.kp := by
  unfold State.modCtx
  rfl

@[simp] theorem State.setQueue_kp (s : State) (q : Nat) (x : Queue) :
    (State.setQueue s q x).kp = s.kp := by
  unfold State.setQueue
  rfl

@[simp] theorem State.modQueue_kp (s : State) (q : Nat) (f : Queue → Queue) :
    (State.modQueue s q f).kp = s.kp := by
  unfold State.modQueue
  rfl

@[simp] theorem State.modDesc_kp (s : State) (id : Nat) (f : Desc → Desc) :
    (State.modDesc s id f).kp = s.kp := by
  unfold State.modDesc
  rfl

@[simp] theorem State.signal_kp (s : State) (x : Signal) :
    (State.signal s x).kp = s.kp := by
  unfold State.signal
  rfl

@[simp] theorem State.modDie_kp (s : State) (d : Nat) (f : Die → Die) :
    (State.modDie s d f).kp = s.kp := by
  unfold State.modDie
  rfl

@[simp] theorem State.wakeDie_kp (s : State) (d : Nat) :
    (State.wakeDie s d).kp = s.kp := by
  unfold State.wakeDie
  repeat' (first | rfl | (simp; done) | split | dsimp only | intro _)

@[simp] theorem State.wakeDeep_kp (s : State) (d : Nat) :
    (State.wakeDeep s d).kp = s.kp := by
  unfold State.wakeDeep
  simp

@[simp] theorem State.setBrm_kp (s : State) (p : Nat) (b : Brm) :
    (State.setBrm s p b).kp = s.kp := by
  unfold State.setBrm
  rfl

end Sys2Proof.Machine
end

