-- ==== Sys2Proof/Laws/KeepEvents.lean ====
section
/-! SUPPORT. What the operations of Machine/Events.lean leave alone. -/
namespace Sys2Proof.Machine

@[simp] theorem State.event_kp (s : State) (e : EvRec) :
    (State.event s e).kp = s.kp := by
  unfold State.event
  rfl

@[simp] theorem State.ev_kp (s : State) (code skind sidx arg0 arg1 : Nat) :
    (State.ev s code skind sidx arg0 arg1).kp = s.kp := by
  unfold State.ev
  rfl

@[simp] theorem State.refreshAlarm_kp (s : State) :
    (State.refreshAlarm s).kp = s.kp := by
  unfold State.refreshAlarm
  simp

@[simp] theorem State.msix_kp (s : State) (v : Nat) :
    (State.msix s v).kp = s.kp := by
  unfold State.msix
  simp

@[simp] theorem State.sigIrq_kp (s : State) (g : Signal) :
    (State.sigIrq s g).kp = s.kp := by
  unfold State.sigIrq
  repeat' (first | rfl | (simp; done) | split | dsimp only | intro _)

@[simp] theorem State.dropSigs_kp (s : State) (c : Nat) :
    (State.dropSigs s c).kp = s.kp := by
  unfold State.dropSigs
  simp

@[simp] theorem State.flushMsix_kp (s : State) :
    (State.flushMsix s).kp = s.kp := by
  unfold State.flushMsix
  rfl

@[simp] theorem State.t3Out_kp (s : State) (o : Out) :
    (State.t3Out s o).kp = s.kp := by
  unfold State.t3Out
  simp

@[simp] theorem State.t3Read_kp (s : State) (who : Option (Nat × Nat)) (addr n : Nat) :
    (State.t3Read s who addr n).1.kp = s.kp := by
  unfold State.t3Read
  simp

@[simp] theorem State.record_kp (s : State) (bar off : Nat) (write : Bool) (st : Status) :
    (State.record s bar off write st).kp = s.kp := by
  unfold State.record
  simp

end Sys2Proof.Machine
end

