-- ==== Sys2Proof/Laws/KeepFaults.lean ====
section
/-! SUPPORT. What the operations of Machine/Faults.lean leave alone. -/
namespace Sys2Proof.Machine

@[simp] theorem State.setFlag_kp (s : State) (c : Nat) (psn : Bool) :
    (State.setFlag s c psn).kp = s.kp := by
  unfold State.setFlag
  repeat' (first | rfl | (simp; done) | split | dsimp only | intro _)

@[simp] theorem State.supplied_kp (s : State) (v : Nat × Vtx) (l : Nat) :
    (State.supplied s v l).kp = s.kp := by
  unfold State.supplied
  rfl

@[simp] theorem State.setHealth_kp (s : State) (p : Nat) (h : Health) :
    (State.setHealth s p h).kp = s.kp := by
  unfold State.setHealth
  rfl

@[simp] theorem State.addScore_kp (s : State) (p w : Nat) :
    (State.addScore s p w).kp = s.kp := by
  unfold State.addScore
  simp

@[simp] theorem State.dueTile_kp (s : State) (p cause : Nat) :
    (State.dueTile s p cause).kp = s.kp := by
  unfold State.dueTile
  simp

@[simp] theorem State.incident_kp (s : State) (p rows tbin nbr : Nat) :
    (State.incident s p rows tbin nbr).kp = s.kp := by
  unfold State.incident
  simp

@[simp] theorem State.correctedReads_kp (s : State) (p n : Nat) :
    (State.correctedReads s p n).kp = s.kp := by
  unfold State.correctedReads
  simp

@[simp] theorem State.finish_kp (s : State) (id : Nat) (st : Status) :
    (State.finish s id st).kp = s.kp := by
  unfold State.finish
  rfl

@[simp] theorem State.enterFaulted_kp (s : State) (c : Nat) (st : Status) (src : Nat) (lead : Option Nat) :
    (State.enterFaulted s c st src lead).kp = s.kp := by
  unfold State.enterFaulted
  simp

@[simp] theorem State.faultTile_kp (s : State) (l : Nat) (st : Status) (pc : Nat) :
    (State.faultTile s l st pc).kp = s.kp := by
  unfold State.faultTile
  repeat' (first | rfl | (simp; done) | split | dsimp only | intro _)

@[simp] theorem State.noteWait_kp (s : State) (p l : Nat) (old new : Tile) :
    (State.noteWait s p l old new).kp = s.kp := by
  unfold State.noteWait
  simp

@[simp] theorem State.applyEff_kp (s : State) (l p : Nat) (e : TEff) :
    (State.applyEff s l p e).kp = s.kp := by
  unfold State.applyEff
  repeat' (first | rfl | (simp; done) | split | dsimp only | intro _)

@[simp] theorem State.onTile_kp (s : State) (l : Nat) (f : Tile → TStep) :
    (State.onTile s l f).kp = s.kp := by
  unfold State.onTile
  repeat' (first | rfl | (simp; done) | split | dsimp only | intro _)

@[simp] theorem State.issue_kp (s : State) (l : Nat) (op : Nat → Bool) (f : State → Tile → Nat → Nat → State) (hf : ∀ y0 y1 y2 y3, (f y0 y1 y2 y3).kp = y0.kp) :
    (State.issue s l op f).kp = s.kp := by
  unfold State.issue
  repeat' (first | rfl | (simp [hf]; done) | split | dsimp only | intro _)

@[simp] theorem State.ctl_kp (s : State) (l op : Nat) (f : Tile → Nat → CtlRes) :
    (State.ctl s l op f).kp = s.kp := by
  unfold State.ctl
  repeat' (first | rfl | (simp; done) | split | dsimp only | intro _ | (have h1 := congrArg Prod.fst (‹_ = (_, _)›); dsimp only at h1; subst h1) | apply State.kp_foldl | apply State.kp_foldl_fst | apply State.kp_elim | apply State.issue_kp)

end Sys2Proof.Machine
end

