-- ==== Sys2Proof/Laws/KeepSchTable.lean ====
section
/-! SUPPORT. What the operations of Machine/SchTable.lean leave alone. -/
namespace Sys2Proof.Machine

@[simp] theorem State.modSchPart_kp (s : State) (p : Nat) (f : SchPart → SchPart) :
    (State.modSchPart s p f).kp = s.kp := by
  unfold State.modSchPart
  rfl

@[simp] theorem State.modSlot_kp (s : State) (i : Nat) (f : SlotStat → SlotStat) :
    (State.modSlot s i f).kp = s.kp := by
  unfold State.modSlot
  rfl

@[simp] theorem State.setHolder_kp (s : State) (p : Nat) (h : Holder) :
    (State.setHolder s p h).kp = s.kp := by
  unfold State.setHolder
  rfl

@[simp] theorem State.replayQueues_kp (s : State) (c : Nat) :
    (State.replayQueues s c).kp = s.kp := by
  unfold State.replayQueues
  rfl

@[simp] theorem State.schResume_kp (s : State) (c : Nat) :
    (State.schResume s c).kp = s.kp := by
  unfold State.schResume
  simp

@[simp] theorem State.passOn_kp (s : State) (p : Nat) (i : Option Nat) :
    (State.passOn s p i).kp = s.kp := by
  unfold State.passOn
  repeat' (first | rfl | (simp; done) | split | dsimp only | intro _)

end Sys2Proof.Machine
end

