-- ==== Sys2Proof/Laws/KeepMoveOps.lean ====
section
/-! SUPPORT. What the operations of Machine/MoveOps.lean leave alone. -/
namespace Sys2Proof.Machine

end Sys2Proof.Machine
end

