-- ==== Sys2Proof/Laws/KeepFabOps.lean ====
section
/-! SUPPORT. What the operations of Machine/FabOps.lean leave alone. -/
namespace Sys2Proof.Machine

end Sys2Proof.Machine
end

