-- ==== Sys2Proof/Laws/KeepAccess.lean ====
section
/-! SUPPORT. What the operations of Machine/Access.lean leave alone. -/
namespace Sys2Proof.Machine

@[simp] theorem State.memStep_kp (s : State) (f : MemSys → List Nat → (Nat → Bool) → MemSys) :
    (State.memStep s f).kp = s.kp := by
  unfold State.memStep
  simp

@[simp] theorem State.pageWait_kp (s : State) (cls : TCls) (k : Nat) (timed : Bool) :
    (State.pageWait s cls k timed).1.kp = s.kp := by
  unfold State.pageWait
  simp

@[simp] theorem State.dropWait_kp (s : State) (w : Nat) :
    (State.dropWait s w).kp = s.kp := by
  unfold State.dropWait
  simp

@[simp] theorem State.reachWait_kp (s : State) (cls : TCls) (k : Nat) (timed : Bool) :
    (State.reachWait s cls k timed).1.kp = s.kp := by
  unfold State.reachWait
  repeat' (first | rfl | (simp; done) | split | dsimp only | intro _)

@[simp] theorem State.noKeys_kp (s : State) (c : Nat) :
    (State.noKeys s c).kp = s.kp := by
  unfold State.noKeys
  rfl

@[simp] theorem State.winRead_kp (s : State) (o : AccFor) (c a n : Nat) :
    (State.winRead s o c a n).1.kp = s.kp := by
  unfold State.winRead
  repeat' (first | rfl | (simp; done) | split | dsimp only | intro _)

@[simp] theorem State.winWrite_kp (s : State) (o : AccFor) (c a : Nat) (bs : List Byte) (bad : List Nat) :
    (State.winWrite s o c a bs bad).1.kp = s.kp := by
  unfold State.winWrite
  repeat' (first | rfl | (simp; done) | split | dsimp only | intro _)

@[simp] theorem State.spdRead_kp (s : State) (l a n : Nat) (hw : List StoreErr) :
    (State.spdRead s l a n hw).1.kp = s.kp := by
  unfold State.spdRead
  repeat' (first | rfl | (simp; done) | split | dsimp only | intro _)

@[simp] theorem State.spdWrite_kp (s : State) (l a : Nat) (bs : List Byte) (bad : List Nat) :
    (State.spdWrite s l a bs bad).1.kp = s.kp := by
  unfold State.spdWrite
  repeat' (first | rfl | (simp; done) | split | dsimp only | intro _)

@[simp] theorem State.pageErrs_kp (s : State) (k o ce : Nat) (ue : List Nat) :
    (State.pageErrs s k o ce ue).kp = s.kp := by
  unfold State.pageErrs
  repeat' (first | rfl | (simp; done) | split | dsimp only | intro _)

@[simp] theorem State.moveErrs_kp (s : State) (k : Nat) (e : PageErr) :
    (State.moveErrs s k e).1.kp = s.kp := by
  unfold State.moveErrs
  repeat' (first | rfl | (simp; done) | split | dsimp only | intro _)

@[simp] theorem State.tierErrs_kp (s : State) (c a ce : Nat) (ue : List Nat) :
    (State.tierErrs s c a ce ue).kp = s.kp := by
  unfold State.tierErrs
  repeat' (first | rfl | (simp; done) | split | dsimp only | intro _)

@[simp] theorem State.winErrs_kp (s : State) (c a n : Nat) (res : OpRes) :
    (State.winErrs s c a n res).1.kp = s.kp := by
  unfold State.winErrs
  repeat' (first | rfl | (simp; done) | split | dsimp only | intro _)

@[simp] theorem State.winReadErr_kp (s : State) (o : AccFor) (c a n : Nat) (res : OpRes) :
    (State.winReadErr s o c a n res).1.kp = s.kp := by
  unfold State.winReadErr
  have h := State.winErrs_kp s c a n res
  generalize s.winErrs c a n res = x at h ⊢
  obtain ⟨s1, pb⟩ := x
  have g := State.winRead_kp s1 o c a n
  dsimp only at *
  split
  · next e => rw [e] at g; exact g.trans h
  · exact g.trans h

@[simp] theorem State.recordWrite_kp (s : State) (cls : TCls) (c a : Nat) (bs : List Byte) :
    (State.recordWrite s cls c a bs).1.kp = s.kp := by
  unfold State.recordWrite
  repeat' (first | rfl | (simp; done) | split | dsimp only | intro _ | (have h1 := congrArg Prod.fst (‹_ = (_, _)›); dsimp only at h1; subst h1) | apply State.kp_foldl | apply State.kp_foldl_fst | apply State.kp_elim | apply State.issue_kp)

@[simp] theorem State.dropWait?_kp (s : State) (w : Option Nat) :
    (State.dropWait? s w).kp = s.kp := by
  unfold State.dropWait?
  repeat' (first | rfl | (simp; done) | split | dsimp only | intro _)

@[simp] theorem State.wakeAll_kp (s : State) :
    (State.wakeAll s).kp = s.kp := by
  unfold State.wakeAll
  rfl

@[simp] theorem State.fabEffs_kp (s : State) (es : List FEff) :
    (State.fabEffs s es).kp = s.kp := by
  unfold State.fabEffs
  repeat' (first | rfl | (simp; done) | split | dsimp only | intro _ | (have h1 := congrArg Prod.fst (‹_ = (_, _)›); dsimp only at h1; subst h1) | apply State.kp_foldl | apply State.kp_foldl_fst | apply State.kp_elim | apply State.issue_kp)

@[simp] theorem State.onFab_kp (s : State) (f : Fab → Fab × List FEff) :
    (State.onFab s f).kp = s.kp := by
  unfold State.onFab
  simp

@[simp] theorem State.sealed_kp (s : State) (k : Packet) :
    (State.sealed s k).1.kp = s.kp := by
  unfold State.sealed
  repeat' (first | rfl | (simp; done) | split | dsimp only | intro _)

@[simp] theorem State.queueOn_kp (s : State) (p : Nat) (cls : TCls) (k : Packet) :
    (State.queueOn s p cls k).kp = s.kp := by
  unfold State.queueOn
  repeat' (first | rfl | (simp; done) | split | dsimp only | intro _ | (have h1 := congrArg Prod.fst (‹_ = (_, _)›); dsimp only at h1; subst h1) | apply State.kp_foldl | apply State.kp_foldl_fst | apply State.kp_elim | apply State.issue_kp)

@[simp] theorem State.send_kp (s : State) (cls : TCls) (k : Packet) :
    (State.send s cls k).kp = s.kp := by
  unfold State.send
  repeat' (first | rfl | (simp; done) | split | dsimp only | intro _ | (have h1 := congrArg Prod.fst (‹_ = (_, _)›); dsimp only at h1; subst h1) | apply State.kp_foldl | apply State.kp_foldl_fst | apply State.kp_elim | apply State.issue_kp)

@[simp] theorem State.egress_kp (s : State) (p : Nat) (k : Packet) :
    (State.egress s p k).1.kp = s.kp := by
  unfold State.egress
  repeat' (first | rfl | (simp; done) | split | dsimp only | intro _ | (have h1 := congrArg Prod.fst (‹_ = (_, _)›); dsimp only at h1; subst h1) | apply State.kp_foldl | apply State.kp_foldl_fst | apply State.kp_elim | apply State.issue_kp)

@[simp] theorem State.fillFlit_kp (p n : Nat) (s : State) (ws : List W32) (ks : List Packet) :
    (State.fillFlit p n s ws ks).1.kp = s.kp := by
  induction n generalizing s ws ks with
  | zero => rfl
  | succ n ih =>
    unfold State.fillFlit
    split
    · rfl
    · dsimp only
      split
      · rw [ih]; rfl
      · split
        · rfl
        · split
          · rfl
          · rw [ih]
            exact (State.kp_fab _ _).trans (State.egress_kp _ _ _)

@[simp] theorem State.txFlit_kp (s : State) (p : Nat) : (State.txFlit s p).kp = s.kp := by
  unfold State.txFlit
  split
  · rfl
  · have h : (if (s.fab.port p).txBuf.length < replayCap then State.fillFlit p 16 s [] [] else (s, [], [])).1.kp = s.kp := by
      split
      · exact State.fillFlit_kp _ _ _ _ _
      · rfl
    generalize (if (s.fab.port p).txBuf.length < replayCap then State.fillFlit p 16 s [] [] else (s, [], [])) = r at h ⊢
    obtain ⟨u, ws, ks⟩ := r
    dsimp only at h ⊢
    split
    · split
      · exact (State.emit_kp _ _).trans h
      · exact h
    · exact (State.emit_kp _ _).trans h

@[simp] theorem State.txFlits_kp (s : State) :
    (State.txFlits s).kp = s.kp := by
  unfold State.txFlits
  simp

@[simp] theorem State.request_kp (s : State) (cls : TCls) (who : TxnFor) (dst c op addr aux : Nat) (pay : List W32) (since : Nat) :
    (State.request s cls who dst c op addr aux pay since).1.kp = s.kp := by
  unfold State.request
  simp

end Sys2Proof.Machine
end

