-- ==== Sys2Proof/Laws/KeepTongs.lean ====
section
/-! SUPPORT. What the operations of Machine/Tongs.lean leave alone. -/
namespace Sys2Proof.Machine

@[simp] theorem State.modMove_kp (s : State) (id : Nat) (f : MoveRun → MoveRun) :
    (State.modMove s id f).kp = s.kp := by
  unfold State.modMove
  rfl

@[simp] theorem State.setPiece_kp (s : State) (id k : Nat) (st : PieceSt) :
    (State.setPiece s id k st).kp = s.kp := by
  unfold State.setPiece
  rfl

@[simp] theorem State.endPiece_kp (s : State) (id k n : Nat) :
    (State.endPiece s id k n).kp = s.kp := by
  unfold State.endPiece
  rfl

@[simp] theorem State.dataErr_kp (s : State) (id : Nat) :
    (State.dataErr s id).kp = s.kp := by
  unfold State.dataErr
  rfl

@[simp] theorem State.statAdd_kp (s : State) (o : AccFor) (c a : Nat) (st : StatRec) :
    (State.statAdd s o c a st).1.kp = s.kp := by
  unfold State.statAdd
  repeat' (first | split | dsimp only | intro _ | (rename _ = (_, _) => hq; have h1 := congrArg (fun r => State.kp (Prod.fst r)) hq; clear hq; simp at h1; (first | rw [← h1] | (simp; rw [← h1]) | rw [h1]); try clear h1) | with_reducible apply State.kp_foldl | with_reducible apply State.kp_foldl_fst | with_reducible apply State.kp_elim | with_reducible apply State.issue_kp | with_reducible rfl | (simp; done))

@[simp] theorem State.countStat_kp (s : State) (id : Nat) :
    (State.countStat s id).1.kp = s.kp := by
  unfold State.countStat
  repeat' (first | rfl | (simp; done) | split | dsimp only | intro _ | (have h1 := congrArg Prod.fst (‹_ = (_, _)›); dsimp only at h1; subst h1) | apply State.kp_foldl | apply State.kp_foldl_fst | apply State.kp_elim | apply State.issue_kp)

@[simp] theorem State.moveCheck_kp (s : State) (id : Nat) :
    (State.moveCheck s id).kp = s.kp := by
  unfold State.moveCheck
  repeat' (first | rfl | (simp; done) | split | dsimp only | intro _)

@[simp] theorem State.failPiece_kp (s : State) (id k : Nat) (st : Status) :
    (State.failPiece s id k st).kp = s.kp := by
  unfold State.failPiece
  simp

@[simp] theorem State.gotData_kp (s : State) (id k : Nat) (bs : List Byte) (bad : List Nat) :
    (State.gotData s id k bs bad).kp = s.kp := by
  unfold State.gotData
  repeat' (first | rfl | (simp; done) | split | dsimp only | intro _)

@[simp] theorem State.sendPiece_kp (s : State) (id k : Nat) (c : Nat) (dev a : Nat) (p : Piece) (wr : Option (List Byte)) :
    (State.sendPiece s id k c dev a p wr).kp = s.kp := by
  unfold State.sendPiece
  repeat' (first | rfl | (simp; done) | split | dsimp only | intro _ | (have h1 := congrArg Prod.fst (‹_ = (_, _)›); dsimp only at h1; subst h1) | apply State.kp_foldl | apply State.kp_foldl_fst | apply State.kp_elim | apply State.issue_kp)

@[simp] theorem State.viaFor_kp (s : State) (cls : TCls) (c a : Nat) (write : Bool) :
    (State.viaFor s cls c a write).1.kp = s.kp := by
  unfold State.viaFor
  repeat' (first | rfl | (simp; done) | split | dsimp only | intro _)

@[simp] theorem State.issueWrite_kp (s : State) (id k : Nat) (d : Desc) (b : MoveBody) (p : Piece) (bs : List Byte) (bad : List Nat) :
    (State.issueWrite s id k d b p bs bad).kp = s.kp := by
  unfold State.issueWrite
  repeat' (first | rfl | (simp; done) | split | dsimp only | intro _ | (have h1 := congrArg Prod.fst (‹_ = (_, _)›); dsimp only at h1; subst h1) | apply State.kp_foldl | apply State.kp_foldl_fst | apply State.kp_elim | apply State.issue_kp)

@[simp] theorem State.issueRead_kp (s : State) (id k : Nat) (d : Desc) (b : MoveBody) (p : Piece) (a : Nat) :
    (State.issueRead s id k d b p a).kp = s.kp := by
  unfold State.issueRead
  repeat' (first | rfl | (simp; done) | split | dsimp only | intro _ | (have h1 := congrArg Prod.fst (‹_ = (_, _)›); dsimp only at h1; subst h1) | apply State.kp_foldl | apply State.kp_foldl_fst | apply State.kp_elim | apply State.issue_kp)

@[simp] theorem State.moveIssue_kp (s : State) (id : Nat) :
    (State.moveIssue s id).kp = s.kp := by
  unfold State.moveIssue
  repeat' (first | rfl | (simp; done) | split | dsimp only | intro _)

@[simp] theorem State.pathErr_kp (s : State) (res : OpRes) (die : Nat) :
    (State.pathErr s res die).kp = s.kp := by
  unfold State.pathErr
  repeat' (first | rfl | (simp; done) | split | dsimp only | intro _)

@[simp] theorem State.readDone_kp (s : State) (id k : Nat) (d : Desc) (b : MoveBody) (r : MoveRun) (p : Piece) (res : OpRes) :
    (State.readDone s id k d b r p res).kp = s.kp := by
  unfold State.readDone
  repeat' (first | rfl | (simp; done) | split | dsimp only | intro _ | (have h1 := congrArg Prod.fst (‹_ = (_, _)›); dsimp only at h1; subst h1) | apply State.kp_foldl | apply State.kp_foldl_fst | apply State.kp_elim | apply State.issue_kp)

@[simp] theorem State.skewWrite_kp (s : State) (b : MoveBody) (p : Piece) (bs : List Byte) (bad : List Nat) :
    (State.skewWrite s b p bs bad).1.kp = s.kp := by
  unfold State.skewWrite
  repeat' (first | rfl | (simp; done) | split | dsimp only | intro _)

@[simp] theorem State.statHeld_kp (s : State) (o : AccFor) (c : Nat) (b : MoveBody) :
    (State.statHeld s o c b).1.kp = s.kp := by
  unfold State.statHeld
  repeat' (first | split | dsimp only | intro _ | (rename _ = (_, _) => hq; have h1 := congrArg (fun r => State.kp (Prod.fst r)) hq; clear hq; simp at h1; (first | rw [← h1] | (simp; rw [← h1]) | rw [h1]); try clear h1) | with_reducible apply State.kp_foldl | with_reducible apply State.kp_foldl_fst | with_reducible apply State.kp_elim | with_reducible apply State.issue_kp | with_reducible rfl | (simp; done))

@[simp] theorem State.accWrite_kp (s : State) (id : Nat) (cls : TCls) (c x : Nat) (b : MoveBody) (bs : List Byte) (bad : List Nat) :
    (State.accWrite s id cls c x b bs bad).1.kp = s.kp := by
  unfold State.accWrite
  repeat' (first | split | dsimp only | intro _ | (rename _ = (_, _) => hq; have h1 := congrArg (fun r => State.kp (Prod.fst r)) hq; clear hq; simp at h1; (first | rw [← h1] | (simp; rw [← h1]) | rw [h1]); try clear h1) | with_reducible apply State.kp_foldl | with_reducible apply State.kp_foldl_fst | with_reducible apply State.kp_elim | with_reducible apply State.issue_kp | with_reducible rfl | (simp; done))

@[simp] theorem State.writeDone_kp (s : State) (id k : Nat) (d : Desc) (b : MoveBody) (r : MoveRun) (p : Piece) (bs : List Byte) (bad : List Nat) (res : OpRes) :
    (State.writeDone s id k d b r p bs bad res).kp = s.kp := by
  unfold State.writeDone
  repeat' (first | rfl | (simp; done) | split | dsimp only | intro _)

@[simp] theorem State.tongsDone_kp (s : State) (id k : Nat) (res : OpRes) :
    (State.tongsDone s id k res).kp = s.kp := by
  unfold State.tongsDone
  repeat' (first | rfl | (simp; done) | split | dsimp only | intro _)

end Sys2Proof.Machine
end

