-- ==== Sys2Proof/Laws/KeepDescOps.lean ====
section
/-! SUPPORT. What the operations of Machine/DescOps.lean leave alone. -/
namespace Sys2Proof.Machine

end Sys2Proof.Machine
end

