-- ==== Sys2Proof/Laws/KeepLayers.lean ====
section
/-! SUPPORT. What the operations of Machine/Layers.lean leave alone. -/
namespace Sys2Proof.Machine

@[simp] theorem State.modLayer_kp (s : State) (x : Ctx) (l : Nat) (f : Layer → Layer) :
    (State.modLayer s x l f).kp = s.kp := by
  unfold State.modLayer
  rfl

@[simp] theorem State.signalEntry_kp (s : State) (c : Nat) (y : Layer) :
    (State.signalEntry s c y).kp = s.kp := by
  unfold State.signalEntry
  simp

@[simp] theorem State.replacementFailed_kp (s : State) (c : Nat) (i : W32) :
    (State.replacementFailed s c i).kp = s.kp := by
  unfold State.replacementFailed
  repeat' (first | rfl | (simp; done) | split | dsimp only | intro _)

@[simp] theorem State.layerReplaced_kp (s : State) (c l : Nat) (bad : Bool) :
    (State.layerReplaced s c l bad).kp = s.kp := by
  unfold State.layerReplaced
  repeat' (first | rfl | (simp; done) | split | dsimp only | intro _)

@[simp] theorem State.switchCheck_kp (s : State) (c : Nat) :
    (State.switchCheck s c).kp = s.kp := by
  unfold State.switchCheck
  repeat' (first | rfl | (simp; done) | split | dsimp only | intro _)

@[simp] theorem State.layersReplaced_kp (s : State) (c : Nat) :
    (State.layersReplaced s c).kp = s.kp := by
  unfold State.layersReplaced
  repeat' (first | rfl | (simp; done) | split | dsimp only | intro _)

@[simp] theorem State.layerRelease_kp (s : State) (c : Nat) :
    (State.layerRelease s c).kp = s.kp := by
  unfold State.layerRelease
  repeat' (first | rfl | (simp; done) | split | dsimp only | intro _)

@[simp] theorem State.barrierErr_kp (s : State) (c : Nat) :
    (State.barrierErr s c).kp = s.kp := by
  unfold State.barrierErr
  rfl

@[simp] theorem State.takeExit_kp (s : State) (c tile sem : Nat) :
    (State.takeExit s c tile sem).kp = s.kp := by
  unfold State.takeExit
  repeat' (first | rfl | (simp; done) | split | dsimp only | intro _)

end Sys2Proof.Machine
end

