-- ==== Sys2Proof/Laws/KeepDescriptors.lean ====
section
/-! SUPPORT. What the operations of Machine/Descriptors.lean leave alone. -/
namespace Sys2Proof.Machine

@[simp] theorem State.entryDone_kp (s : State) (q : Nat) (i : W32) (st : Status) :
    (State.entryDone s q i st).kp = s.kp := by
  unfold State.entryDone
  simp

@[simp] theorem State.queueErr_kp (s : State) (q : Nat) (st : Status) :
    (State.queueErr s q st).kp = s.kp := by
  unfold State.queueErr
  rfl

@[simp] theorem State.queueIrq_kp (s : State) (q : Nat) :
    (State.queueIrq s q).kp = s.kp := by
  unfold State.queueIrq
  simp

@[simp] theorem State.rejectEntry_kp (s : State) (q : Nat) (st : Status) :
    (State.rejectEntry s q st).kp = s.kp := by
  unfold State.rejectEntry
  simp

@[simp] theorem State.readEntry_kp (s : State) (q : Nat) (host : Fetched) :
    (State.readEntry s q host).1.kp = s.kp := by
  unfold State.readEntry
  repeat' (first | rfl | (simp; done) | split | dsimp only | intro _ | (have h1 := congrArg Prod.fst (‹_ = (_, _)›); dsimp only at h1; subst h1) | apply State.kp_foldl | apply State.kp_foldl_fst | apply State.kp_elim | apply State.issue_kp)

@[simp] theorem State.addDesc_kp (s : State) (src : DescSrc) (h : DescHdr) (body : DescBody) (st : DescSt) (status : Status) (detail : Nat) :
    (State.addDesc s src h body st status detail).1.kp = s.kp := by
  unfold State.addDesc
  rfl

@[simp] theorem State.addDone_kp (s : State) (src : DescSrc) (h : DescHdr) (status : Status) (detail : Nat) :
    (State.addDone s src h status detail).kp = s.kp := by
  unfold State.addDone
  rfl

@[simp] theorem State.startMove_kp (s : State) (src : DescSrc) (h : DescHdr) (b : MoveBody) (die eng : Nat) :
    (State.startMove s src h b die eng).kp = s.kp := by
  unfold State.startMove
  simp

@[simp] theorem State.startSync_kp (s : State) (src : DescSrc) (h : DescHdr) (bs : List Byte) :
    (State.startSync s src h bs).kp = s.kp := by
  unfold State.startSync
  repeat' (first | rfl | (simp; done) | split | dsimp only | intro _)

@[simp] theorem State.startLaunch_kp (s : State) (src : DescSrc) (h : DescHdr) (bs : List Byte) (stage : Option (Nat × Nat)) :
    (State.startLaunch s src h bs stage).1.kp = s.kp := by
  unfold State.startLaunch
  rfl

@[simp] theorem State.takeEntry_kp (s : State) (q : Nat) (accept : Nat → Nat → Bool) (class5 : State → List Byte → Option Status) (start : State → DescSrc → DescHdr → List Byte → State) (bs : List Byte) (hstart : ∀ y0 y1 y2 y3, (start y0 y1 y2 y3).kp = y0.kp) :
    (State.takeEntry s q accept class5 start bs).kp = s.kp := by
  unfold State.takeEntry
  repeat' (first | rfl | (simp [hstart]; done) | split | dsimp only | intro _)

@[simp] theorem State.descRow_kp (s : State) (q : Nat) (host : Fetched) (mine : List Byte → Bool) (accept : State → Nat → Nat → Bool) (class5 : State → List Byte → Option Status) (start : State → DescSrc → DescHdr → List Byte → State) (hstart : ∀ y0 y1 y2 y3, (start y0 y1 y2 y3).kp = y0.kp) :
    (State.descRow s q host mine accept class5 start).kp = s.kp := by
  unfold State.descRow
  repeat' (first | rfl | (simp [hstart]; done) | split | dsimp only | intro _ | (have h1 := congrArg Prod.fst (‹_ = (_, _)›); dsimp only at h1; subst h1) | apply State.kp_foldl | apply State.kp_foldl_fst | apply State.kp_elim | apply State.issue_kp | apply State.takeEntry_kp)

@[simp] theorem State.forget_kp (s : State) (id : Nat) :
    (State.forget s id).kp = s.kp := by
  unfold State.forget
  repeat' (first | rfl | (simp; done) | split | dsimp only | intro _ | (have h1 := congrArg Prod.fst (‹_ = (_, _)›); dsimp only at h1; subst h1) | apply State.kp_foldl | apply State.kp_foldl_fst | apply State.kp_elim | apply State.issue_kp | apply State.takeEntry_kp | apply State.descRow_kp)

@[simp] theorem State.cutShort_kp (s : State) (id : Nat) (st : Status) :
    (State.cutShort s id st).kp = s.kp := by
  unfold State.cutShort
  repeat' (first | rfl | (simp; done) | split | dsimp only | intro _)

end Sys2Proof.Machine
end

