-- ==== Sys2Proof/Laws/KeepCollOps.lean ====
section
/-! SUPPORT. What the operations of Machine/CollOps.lean leave alone. -/
namespace Sys2Proof.Machine

end Sys2Proof.Machine
end

