-- ==== Sys2Proof/Laws/KeepCollective.lean ====
section
/-! SUPPORT. What the operations of Machine/Collective.lean leave alone. -/
namespace Sys2Proof.Machine

@[simp] theorem State.setInst_kp (s : State) (i : Inst) :
    (State.setInst s i).kp = s.kp := by
  unfold State.setInst
  rfl

@[simp] theorem State.dropInst_kp (s : State) (k : InstKey) :
    (State.dropInst s k).kp = s.kp := by
  unfold State.dropInst
  rfl

@[simp] theorem State.sendColl_kp (s : State) (g : CGroup) (cls : TCls) (k : InstKey) (fo to_ op aux : Nat) (pay : List W32) :
    (State.sendColl s g cls k fo to_ op aux pay).kp = s.kp := by
  unfold State.sendColl
  simp

@[simp] theorem State.dropLate_kp (s : State) (ls : List LateSeg) :
    (State.dropLate s ls).kp = s.kp := by
  unfold State.dropLate
  repeat' (first | rfl | (simp; done) | split | dsimp only | intro _ | (have h1 := congrArg Prod.fst (‹_ = (_, _)›); dsimp only at h1; subst h1) | apply State.kp_foldl | apply State.kp_foldl_fst | apply State.kp_elim | apply State.issue_kp | apply State.takeEntry_kp | apply State.descRow_kp)

@[simp] theorem State.holdLate_kp (s : State) (l : LateSeg) :
    (State.holdLate s l).kp = s.kp := by
  unfold State.holdLate
  simp

@[simp] theorem State.voteDone_kp (s : State) (c result : Nat) (step : W32) :
    (State.voteDone s c result step).kp = s.kp := by
  unfold State.voteDone
  rfl

@[simp] theorem State.rememberInst_kp (s : State) (d : DoneInst) :
    (State.rememberInst s d).kp = s.kp := by
  unfold State.rememberInst
  rfl

@[simp] theorem State.dropCollOp_kp (s : State) (id : Nat) :
    (State.dropCollOp s id).kp = s.kp := by
  unfold State.dropCollOp
  repeat' (first | rfl | (simp; done) | split | dsimp only | intro _)

@[simp] theorem State.instOver_kp (s : State) (i : Inst) :
    (State.instOver s i).kp = s.kp := by
  unfold State.instOver
  repeat' (first | rfl | (simp; done) | split | dsimp only | intro _)

@[simp] theorem State.instEnd_kp (s : State) (i : Inst) (st : Status) (detail : W32) (ws : List (Nat × Nat × List MByte)) :
    (State.instEnd s i st detail ws).kp = s.kp := by
  unfold State.instEnd
  simp

@[simp] theorem State.scramble_kp (s : State) (c sp a : Nat) (bs : List Byte) :
    (State.scramble s c sp a bs).kp = s.kp := by
  unfold State.scramble
  repeat' (first | rfl | (simp; done) | split | dsimp only | intro _ | (have h1 := congrArg Prod.fst (‹_ = (_, _)›); dsimp only at h1; subst h1) | apply State.kp_foldl | apply State.kp_foldl_fst | apply State.kp_elim | apply State.issue_kp | apply State.takeEntry_kp | apply State.descRow_kp)

@[simp] theorem State.permuteLeft_kp (s : State) (i : Inst) :
    (State.permuteLeft s i).kp = s.kp := by
  unfold State.permuteLeft
  repeat' (first | rfl | (simp; done) | split | dsimp only | intro _)

@[simp] theorem State.instClose_kp (s : State) (i : Inst) (st : Status) :
    (State.instClose s i st).kp = s.kp := by
  unfold State.instClose
  simp

@[simp] theorem State.sendCredit_kp (s : State) (g : CGroup) (i : Inst) (fo r n : Nat) :
    (State.sendCredit s g i fo r n).kp = s.kp := by
  unfold State.sendCredit
  simp

@[simp] theorem State.openFlow_kp (s : State) (g : CGroup) (k : InstKey) (r n : Nat) :
    (State.openFlow s g k r n).kp = s.kp := by
  unfold State.openFlow
  repeat' (first | rfl | (simp; done) | split | dsimp only | intro _)

@[simp] theorem State.openScratch_kp (s : State) (c : Nat) :
    (State.openScratch s c).kp = s.kp := by
  unfold State.openScratch
  repeat' (first | rfl | (simp; done) | split | dsimp only | intro _ | (have h1 := congrArg Prod.fst (‹_ = (_, _)›); dsimp only at h1; subst h1) | apply State.kp_foldl | apply State.kp_foldl_fst | apply State.kp_elim | apply State.issue_kp | apply State.takeEntry_kp | apply State.descRow_kp)

@[simp] theorem State.instConclude_kp (s : State) (g : CGroup) (i : Inst) (b : CollBody) (poison : Bool) :
    (State.instConclude s g i b poison).kp = s.kp := by
  unfold State.instConclude
  repeat' (first | rfl | (simp; done) | split | dsimp only | intro _)

@[simp] theorem State.takeLate_kp (s : State) (i : Inst) (b : CollBody) (me : Nat) :
    (State.takeLate s i b me).1.kp = s.kp := by
  unfold State.takeLate
  simp

@[simp] theorem State.putAside_kp (s : State) (i : Inst) (b : CollBody) (n r : Nat) : (State.putAside s i b n r).1.kp = s.kp := by
  unfold State.putAside
  dsimp only
  rw [State.dropLate_kp]
  apply State.kp_foldl
  intro s a
  split
  · rfl
  · split
    · simp
    · rfl

@[simp] theorem State.reduceOwn_kp (s : State) (g : CGroup) (i : Inst) (b : CollBody) : (State.reduceOwn s g i b).1.kp = s.kp := by
  unfold State.reduceOwn
  dsimp only
  refine (State.kp_foldl _ (fun _ _ => State.openFlow_kp _ _ _ _ _) _ _).trans ?_
  rw [State.setInst_kp]
  refine (State.kp_foldl_fst _ (fun _ _ => State.putAside_kp _ _ _ _ _) _ _).trans ?_
  dsimp only
  split
  · rw [State.setFlag_kp]; exact State.takeLate_kp s i b g.rank
  · exact State.takeLate_kp s i b g.rank

@[simp] theorem State.judgeSeg_kp (g : CGroup) (i : Inst) (b : CollBody) (rank c r : Nat) (a : State × InFlow) (p : Nat × Nat × Nat) :
    (State.judgeSeg g i b rank c r a p).1.kp = a.1.kp := by
  unfold State.judgeSeg
  split
  · rfl
  · cases segRange c r p.1 with
    | none => rfl
    | some x =>
      obtain ⟨lo, n⟩ := x
      dsimp only
      generalize (if (b.op.isRed && decide (lo < c)) = true then blocksOf n else _) = back
      split
      · dsimp only
        split
        · exact State.sendCredit_kp _ _ _ _ _ _
        · rfl
      · split
        · dsimp only
          rw [State.sendColl_kp, State.sendCredit_kp]
        · exact State.sendCredit_kp _ _ _ _ _ _

@[simp] theorem State.judgeFlow_kp (g : CGroup) (i : Inst) (b : CollBody) (a : State × Inst) (x : InFlow) :
    (State.judgeFlow g i b a x).1.kp = a.1.kp :=
  State.kp_foldl_fst _ (fun _ _ => State.judgeSeg_kp _ _ _ _ _ _ _ _) _ _

@[simp] theorem State.judge_kp (s : State) (g : CGroup) (i : Inst) (b : CollBody) : (State.judge s g i b).1.kp = s.kp :=
  State.kp_foldl_fst _ (fun _ _ => State.judgeFlow_kp _ _ _ _ _) _ _

@[simp] theorem State.grantAll_kp (s : State) (g : CGroup) (i : Inst) (b : CollBody) :
    (State.grantAll s g i b).1.kp = s.kp := by
  unfold State.grantAll
  repeat' (first | rfl | (simp; done) | split | dsimp only | intro _ | (have h1 := congrArg Prod.fst (‹_ = (_, _)›); dsimp only at h1; subst h1) | apply State.kp_foldl | apply State.kp_foldl_fst | apply State.kp_elim | apply State.issue_kp | apply State.takeEntry_kp | apply State.descRow_kp)

@[simp] theorem State.voteEnd_kp (s : State) (i : Inst) (op : CollOp) (result : Nat) (st : Status) (detail : W32) :
    (State.voteEnd s i op result st detail).kp = s.kp := by
  unfold State.voteEnd
  repeat' (first | rfl | (simp; done) | split | dsimp only | intro _)

@[simp] theorem State.lightCheck_kp (s : State) (g : CGroup) (i : Inst) (b : CollBody) :
    (State.lightCheck s g i b).kp = s.kp := by
  unfold State.lightCheck
  repeat' (first | rfl | (simp; done) | split | dsimp only | intro _)

@[simp] theorem State.dataCheck_kp (s : State) (g : CGroup) (i : Inst) (b : CollBody) :
    (State.dataCheck s g i b).kp = s.kp := by
  unfold State.dataCheck
  simp

@[simp] theorem State.sendBlock_kp (s : State) (g : CGroup) (i : Inst) (b : CollBody) (o : OutFlow) (lo m slo sn : Nat) :
    (State.sendBlock s g i b o lo m slo sn).kp = s.kp := by
  unfold State.sendBlock
  simp

@[simp] theorem State.sendPart_kp (s : State) (g : CGroup) (i : Inst) (b : CollBody) (o : OutFlow) (lo n : Nat) (rest : List (Nat × Nat)) (m slo sn : Nat) :
    (State.sendPart s g i b o lo n rest m slo sn).kp = s.kp := by
  unfold State.sendPart
  simp

@[simp] theorem State.sendWithin_kp (s : State) (g : CGroup) (i : Inst) (b : CollBody) (o : OutFlow) (lo n : Nat) (rest : List (Nat × Nat)) (r : Option (Nat × Nat)) :
    (State.sendWithin s g i b o lo n rest r).kp = s.kp := by
  unfold State.sendWithin
  repeat' (first | rfl | (simp; done) | split | dsimp only | intro _)

@[simp] theorem State.sendNext_kp (s : State) (g : CGroup) (i : Inst) (b : CollBody) :
    (State.sendNext s g i b).kp = s.kp := by
  unfold State.sendNext
  repeat' (first | rfl | (simp; done) | split | dsimp only | intro _)

@[simp] theorem State.sendLeft_kp (s : State) (k : InstKey) : (State.sendLeft s k).kp = s.kp := by
  unfold State.sendLeft
  split
  · split
    · split
      · rfl
      · refine State.kp_foldl _ (fun _ _ => State.kp_elim _ _ _ fun _ => ?_) _ _
        exact State.sendNext_kp _ _ _ _
    · rfl
  · rfl

@[simp] theorem State.instCheck_kp (s : State) (k : InstKey) :
    (State.instCheck s k).kp = s.kp := by
  unfold State.instCheck
  repeat' (first | rfl | (simp; done) | split | dsimp only | intro _)

@[simp] theorem State.openDirect_kp (s : State) (g : CGroup) (i : Inst) (b : CollBody) :
    (State.openDirect s g i b).kp = s.kp := by
  unfold State.openDirect
  simp

@[simp] theorem State.instRun_kp (s : State) (g : CGroup) (i : Inst) (b : CollBody) :
    (State.instRun s g i b).kp = s.kp := by
  unfold State.instRun
  simp

@[simp] theorem State.modColl_kp (s : State) (id : Nat) (f : CollRun → CollRun) :
    (State.modColl s id f).kp = s.kp := by
  unfold State.modColl
  rfl

@[simp] theorem State.collFail_kp (s : State) (id : Nat) (st : Status) :
    (State.collFail s id st).kp = s.kp := by
  unfold State.collFail
  repeat' (first | rfl | (simp; done) | split | dsimp only | intro _)

@[simp] theorem State.collIssue_kp (s : State) (id : Nat) :
    (State.collIssue s id).kp = s.kp := by
  unfold State.collIssue
  repeat' (first | rfl | (simp; done) | split | dsimp only | intro _ | (have h1 := congrArg Prod.fst (‹_ = (_, _)›); dsimp only at h1; subst h1) | apply State.kp_foldl | apply State.kp_foldl_fst | apply State.kp_elim | apply State.issue_kp | apply State.takeEntry_kp | apply State.descRow_kp)

@[simp] theorem State.collAtOnce_kp (s : State) (id : Nat) (st : Status) (detail : W32) :
    (State.collAtOnce s id st detail).kp = s.kp := by
  unfold State.collAtOnce
  rfl

@[simp] theorem State.collOpen_kp (s : State) (id : Nat) (d : Desc) (b : CollBody) (step : W32) (table : List (Nat × Nat)) :
    (State.collOpen s id d b step table).kp = s.kp := by
  unfold State.collOpen
  repeat' (first | rfl | (simp; done) | split | dsimp only | intro _)

@[simp] theorem State.rejectColl_kp (s : State) (id : Nat) (d : Desc) (st : Status) :
    (State.rejectColl s id d st).kp = s.kp := by
  unfold State.rejectColl
  repeat' (first | rfl | (simp; done) | split | dsimp only | intro _)

@[simp] theorem State.collTable_kp (s : State) (id : Nat) :
    (State.collTable s id).kp = s.kp := by
  unfold State.collTable
  repeat' (first | rfl | (simp; done) | split | dsimp only | intro _)

@[simp] theorem State.startCollOp_kp (s : State) (src : DescSrc) (h : DescHdr) (b : CollBody) (die eng : Nat) :
    (State.startCollOp s src h b die eng).kp = s.kp := by
  unfold State.startCollOp
  simp

@[simp] theorem State.collGot_kp (s : State) (id : Nat) (bs : List Byte) (bad : List Nat) :
    (State.collGot s id bs bad).kp = s.kp := by
  unfold State.collGot
  repeat' (first | rfl | (simp; done) | split | dsimp only | intro _)

@[simp] theorem State.collPut_kp (s : State) (id n : Nat) :
    (State.collPut s id n).kp = s.kp := by
  unfold State.collPut
  repeat' (first | rfl | (simp; done) | split | dsimp only | intro _)

@[simp] theorem State.collPutErrs_kp (s : State) (c sp a n die : Nat) (res : OpRes) :
    (State.collPutErrs s c sp a n die res).1.kp = s.kp := by
  unfold State.collPutErrs
  repeat' (first | rfl | (simp; done) | split | dsimp only | intro _)

@[simp] theorem State.collStore_kp (s : State) (o : AccFor) (c sp a : Nat) (bs : List Byte) (bad : List Nat) :
    (State.collStore s o c sp a bs bad).1.kp = s.kp := by
  unfold State.collStore
  repeat' (first | rfl | (simp; done) | split | dsimp only | intro _)

@[simp] theorem State.collLoad_kp (s : State) (o : AccFor) (c sp a n die : Nat) (res : OpRes) :
    (State.collLoad s o c sp a n die res).1.kp = s.kp := by
  unfold State.collLoad
  repeat' (first | rfl | (simp; done) | split | dsimp only | intro _)

@[simp] theorem State.collOp_kp (s : State) (id : Nat) (op : Option CollOpn) :
    (State.collOp s id op).kp = s.kp := by
  unfold State.collOp
  rfl

@[simp] theorem State.collOpFail_kp (s : State) (id : Nat) (st : Status) :
    (State.collOpFail s id st).kp = s.kp := by
  unfold State.collOpFail
  simp

@[simp] theorem State.collWrote_kp (s : State) (id : Nat) (o : AccFor) (c sp a n die : Nat) (res : OpRes) :
    (State.collWrote s id o c sp a n die res).kp = s.kp := by
  unfold State.collWrote
  dsimp only
  split
  · rw [State.collPut_kp]
    split
    · split
      · rw [State.collStore_kp, State.collPutErrs_kp]
      · rw [State.setInst_kp, State.collStore_kp, State.collPutErrs_kp]
    · rw [State.collStore_kp, State.collPutErrs_kp]
  · rw [State.collOp_kp, State.collStore_kp, State.collPutErrs_kp]
  · rw [State.collOpFail_kp, State.collStore_kp, State.collPutErrs_kp]

@[simp] theorem State.collRead_kp (s : State) (id : Nat) (o : AccFor) (c sp a n die : Nat) (res : OpRes) :
    (State.collRead s id o c sp a n die res).kp = s.kp := by
  unfold State.collRead
  dsimp only
  split
  · rw [State.collGot_kp, State.collLoad_kp]
  · rw [State.collOp_kp, State.collLoad_kp]
  · rw [State.collOpFail_kp, State.collLoad_kp]

@[simp] theorem State.collLand_kp (s : State) (id : Nat) (d : Desc) (die sp a : Nat) (res : OpRes) :
    (State.collLand s id d die sp a res).kp = s.kp := by
  unfold State.collLand
  repeat' (first | rfl | (simp; done) | split | dsimp only | intro _)

@[simp] theorem State.collDone_kp (s : State) (id : Nat) (res : OpRes) :
    (State.collDone s id res).kp = s.kp := by
  unfold State.collDone
  repeat' (first | rfl | (simp; done) | split | dsimp only | intro _)

@[simp] theorem State.closeColls_kp (s : State) (c : Nat) (st : Status) :
    (State.closeColls s c st).kp = s.kp := by
  unfold State.closeColls
  simp

@[simp] theorem State.failRemote_kp (s : State) (c : Nat) (st : Status) (to_ : Nat → Bool) :
    (State.failRemote s c st to_).kp = s.kp := by
  unfold State.failRemote
  repeat' (first | rfl | (simp; done) | split | dsimp only | intro _ | (have h1 := congrArg Prod.fst (‹_ = (_, _)›); dsimp only at h1; subst h1) | apply State.kp_foldl | apply State.kp_foldl_fst | apply State.kp_elim | apply State.issue_kp | apply State.takeEntry_kp | apply State.descRow_kp)

@[simp] theorem State.dropStep_kp (s : State) (c : Nat) : (State.dropStep s c).kp = s.kp := by
  unfold State.dropStep
  split
  · rfl
  · dsimp only
    split
    · rw [State.passOn_kp, State.modCtx_kp]
    · exact State.modCtx_kp _ _ _

@[simp] theorem State.selfFence_kp (s : State) (c : Nat) :
    (State.selfFence s c).kp = s.kp := by
  unfold State.selfFence
  simp

@[simp] theorem State.recordFence_kp (s : State) (c dev : Nat) :
    (State.recordFence s c dev).kp = s.kp := by
  unfold State.recordFence
  simp

@[simp] theorem State.sendFence_kp (s : State) (c dev issuer hop : Nat) (ep : W32) (except : Option Nat) :
    (State.sendFence s c dev issuer hop ep except).kp = s.kp := by
  unfold State.sendFence
  simp

@[simp] theorem State.addFenceKey_kp (s : State) (f : Fence) : (State.addFenceKey s f).kp = s.kp :=
  State.kp_fab s _

@[simp] theorem State.issueFence_kp (s : State) (c dev : Nat) :
    (State.issueFence s c dev).kp = s.kp := by
  unfold State.issueFence
  simp

@[simp] theorem State.setEpoch_kp (s : State) (c : Nat) (ep : W32) :
    (State.setEpoch s c ep).kp = s.kp := by
  unfold State.setEpoch
  simp

@[simp] theorem State.startColl_kp (s : State) (src : DescSrc) (h : DescHdr) (bs : List Byte) (die : Nat) (eng : CollBody → Nat) :
    (State.startColl s src h bs die eng).kp = s.kp := by
  unfold State.startColl
  repeat' (first | rfl | (simp; done) | split | dsimp only | intro _)

end Sys2Proof.Machine
end

