-- ==== Sys2Proof/Laws/KeepMemctlOps.lean ====
section
/-! SUPPORT. What the operations of Machine/MemctlOps.lean leave alone. -/
namespace Sys2Proof.Machine

@[simp] theorem State.modObj_kp (s : State) (h : Nat) (f : Obj → Obj) :
    (State.modObj s h f).kp = s.kp := by
  unfold State.modObj
  rfl

@[simp] theorem State.bringIn_kp (s : State) (cls : TCls) (keys : List Nat) :
    (State.bringIn s cls keys).1.kp = s.kp := by
  unfold State.bringIn
  simp

@[simp] theorem State.demotePages_kp (s : State) (cls : TCls) (keys : List Nat) :
    (State.demotePages s cls keys).1.kp = s.kp := by
  unfold State.demotePages
  simp

@[simp] theorem State.startMemctl_kp (s : State) (src : DescSrc) (h : DescHdr) (bs : List Byte) :
    (State.startMemctl s src h bs).kp = s.kp := by
  unfold State.startMemctl
  repeat' (first | rfl | (simp; done) | split | dsimp only | intro _)

@[simp] theorem State.endMemctl_kp (s : State) (id : Nat) (st : Status) (n : Nat) :
    (State.endMemctl s id st n).kp = s.kp := by
  unfold State.endMemctl
  rfl

@[simp] theorem State.settleMemctl_kp (s : State) (id : Nat) :
    (State.settleMemctl s id).kp = s.kp := by
  unfold State.settleMemctl
  repeat' (first | rfl | (simp; done) | split | dsimp only | intro _ | (have h1 := congrArg Prod.fst (‹_ = (_, _)›); dsimp only at h1; subst h1) | apply State.kp_foldl | apply State.kp_foldl_fst | apply State.kp_elim | apply State.issue_kp | apply State.takeEntry_kp | apply State.descRow_kp)

end Sys2Proof.Machine
end

