-- ==== Sys2Proof/Laws/KeepRights.lean ====
section
/-! SUPPORT. What the operations of Machine/Rights.lean leave alone. -/
namespace Sys2Proof.Machine

@[simp] theorem State.recordRes_kp (bar off : Nat) (r : RegRes) :
    (State.recordRes bar off r).kp = r.1.kp := by
  unfold State.recordRes
  repeat' (first | rfl | (simp; done) | split | dsimp only | intro _)

@[simp] theorem State.regWrite_kp (s : State) (bar off : Nat) (item : RegItem) (f : State → RegRes) (hf : ∀ y0, (f y0).1.kp = y0.kp) :
    (State.regWrite s bar off item f).kp = s.kp := by
  unfold State.regWrite
  simp [hf]

@[simp] theorem State.hostWrite_kp (s : State) (bar off : Nat) (item : RegItem) (tee : Bool) (f : State → RegRes) (hf : ∀ y0, (f y0).1.kp = y0.kp) :
    (State.hostWrite s bar off item tee f).kp = s.kp := by
  unfold State.hostWrite
  simp [hf]

end Sys2Proof.Machine
end

