-- ==== Sys2Proof/Laws/KeepQueueCmds.lean ====
section
/-! SUPPORT. What the operations of Machine/QueueCmds.lean leave alone. -/
namespace Sys2Proof.Machine

@[simp] theorem State.queueRefuse_kp (s : State) (q : Nat) (st : Status) :
    (State.queueRefuse s q st).1.kp = s.kp := by
  unfold State.queueRefuse
  rfl

@[simp] theorem State.doorbell_kp (s : State) (q : Nat) (tail : W32) :
    (State.doorbell s q tail).1.kp = s.kp := by
  unfold State.doorbell
  simp

@[simp] theorem State.enableQueue_kp (s : State) (q : Nat) :
    (State.enableQueue s q).kp = s.kp := by
  unfold State.enableQueue
  repeat' (first | rfl | (simp; done) | split | dsimp only | intro _)

@[simp] theorem State.queueCtl_kp (s : State) (q : Nat) (en irqen : Bool) :
    (State.queueCtl s q en irqen).1.kp = s.kp := by
  unfold State.queueCtl
  simp

@[simp] theorem State.queueShape_kp (s : State) (q : Nat) (rsvd : Bool) (base rsz vec : Nat) :
    (State.queueShape s q rsvd base rsz vec).1.kp = s.kp := by
  unfold State.queueShape
  simp

@[simp] theorem State.wakeForQueue_kp (s : State) (q : Nat) :
    (State.wakeForQueue s q).kp = s.kp := by
  unfold State.wakeForQueue
  simp

@[simp] theorem State.qRow_kp (s : State) (q : Nat) (host : Fetched) (mine : List Byte → Bool) (class5 : State → List Byte → Option Status) (start : State → DescSrc → DescHdr → List Byte → State) (hstart : ∀ y0 y1 y2 y3, (start y0 y1 y2 y3).kp = y0.kp) :
    (State.qRow s q host mine class5 start).kp = s.kp := by
  unfold State.qRow
  simp [hstart]

@[simp] theorem State.startQueueMove_kp (s : State) (q : Nat) (src : DescSrc) (h : DescHdr) (bs : List Byte) :
    (State.startQueueMove s q src h bs).kp = s.kp := by
  unfold State.startQueueMove
  simp

@[simp] theorem State.startQueueColl_kp (s : State) (q : Nat) (src : DescSrc) (h : DescHdr) (bs : List Byte) :
    (State.startQueueColl s q src h bs).kp = s.kp := by
  unfold State.startQueueColl
  simp

@[simp] theorem State.moveRow_kp (s : State) (q : Nat) (host : Fetched) (op : Nat) :
    (State.moveRow s q host op).kp = s.kp := by
  unfold State.moveRow
  simp

@[simp] theorem State.syncRow_kp (s : State) (q : Nat) (host : Fetched) (op : Nat) :
    (State.syncRow s q host op).kp = s.kp := by
  unfold State.syncRow
  simp

@[simp] theorem State.memctlRow_kp (s : State) (q : Nat) (host : Fetched) (op : Nat) :
    (State.memctlRow s q host op).kp = s.kp := by
  unfold State.memctlRow
  simp

@[simp] theorem State.collRow_kp (s : State) (q : Nat) (host : Fetched) (op : Nat) :
    (State.collRow s q host op).kp = s.kp := by
  unfold State.collRow
  simp

@[simp] theorem State.engineGranted_kp (s : State) (e : Nat × Nat) (id : Nat) (c : TCls) :
    (State.engineGranted s e id c).kp = s.kp := by
  unfold State.engineGranted
  rfl

@[simp] theorem State.startExec_kp (s : State) (tile pc eng : Nat) (bs : List Byte) :
    (State.startExec s tile pc eng bs).kp = s.kp := by
  unfold State.startExec
  simp

@[simp] theorem State.appendEntry_kp (s : State) (cls : TCls) (q : Nat) (bs : List Byte) :
    (State.appendEntry s cls q bs).1.kp = s.kp := by
  unfold State.appendEntry
  repeat' (first | rfl | (simp; done) | split | dsimp only | intro _ | (have h1 := congrArg Prod.fst (‹_ = (_, _)›); dsimp only at h1; subst h1) | apply State.kp_foldl | apply State.kp_foldl_fst | apply State.kp_elim | apply State.issue_kp | apply State.takeEntry_kp | apply State.descRow_kp | apply State.regWrite_kp | apply State.hostWrite_kp | apply State.qRow_kp)

end Sys2Proof.Machine
end

