-- ==== Sys2Proof/Laws/KeepSchedOps.lean ====
section
/-! SUPPORT. What the operations of Machine/SchedOps.lean leave alone. -/
namespace Sys2Proof.Machine

@[simp] theorem State.dropWork_kp (s : State) (f : Nat → Tile → Bool) (g : Tile → Tile) :
    (State.dropWork s f g).kp = s.kp := by
  unfold State.dropWork
  rfl

@[simp] theorem State.abandonCtx_kp (s : State) (c : Nat) :
    (State.abandonCtx s c).kp = s.kp := by
  unfold State.abandonCtx
  simp

@[simp] theorem State.preemptStart_kp (s : State) (c : Nat) (who : Preempter) :
    (State.preemptStart s c who).kp = s.kp := by
  unfold State.preemptStart
  simp

@[simp] theorem State.launchWaits_kp (s : State) (p c : Nat) :
    (State.launchWaits s p c).1.kp = s.kp := by
  unfold State.launchWaits
  simp

@[simp] theorem State.admitStep_kp (s : State) (c : Nat) (slot : Option (Option Nat × Nat)) :
    (State.admitStep s c slot).kp = s.kp := by
  unfold State.admitStep
  repeat' (first | rfl | (simp; done) | split | dsimp only | intro _)

@[simp] theorem State.countSkip_kp (s : State) (i c : Nat) :
    (State.countSkip s i c).kp = s.kp := by
  unfold State.countSkip
  rfl

@[simp] theorem State.openGo_kp (s : State) (i close : Nat) :
    (State.openGo s i close).kp = s.kp := by
  unfold State.openGo
  simp

@[simp] theorem State.schAdvance_kp (s : State) (p : Nat) :
    (State.schAdvance s p).kp = s.kp := by
  unfold State.schAdvance
  repeat' (first | rfl | (simp; done) | split | dsimp only | intro _)

@[simp] theorem State.slotOpen_kp (s : State) (i : Nat) :
    (State.slotOpen s i).kp = s.kp := by
  unfold State.slotOpen
  simp

@[simp] theorem State.openDue_kp (s : State) (t : Nat) :
    (State.openDue s t).kp = s.kp := by
  unfold State.openDue
  simp

@[simp] theorem State.overrun_kp (s : State) (i c close : Nat) :
    (State.overrun s i c close).kp = s.kp := by
  unfold State.overrun
  simp

@[simp] theorem State.slotClose_kp (s : State) (i : Nat) :
    (State.slotClose s i).kp = s.kp := by
  unfold State.slotClose
  repeat' (first | rfl | (simp; done) | split | dsimp only | intro _)

@[simp] theorem State.batchStepDone_kp (s : State) (c : Nat) : (State.batchStepDone s c).kp = s.kp := by
  unfold State.batchStepDone
  split
  · rfl
  · split
    · rfl
    · extract_lets left s1 s2 excess s3 s4 s5
      have h1 : s1.kp = s.kp := State.kp_foldl _ (fun _ _ => by simp) _ _
      have h2 : s2.kp = s.kp := by rw [← h1]; unfold s2; split <;> simp
      have h3 : s3.kp = s.kp := (State.modCtx_kp _ _ _).trans h2
      have h4 : s4.kp = s.kp := by rw [← h3]; unfold s4; split <;> simp
      have h5 : s5.kp = s.kp := by
        rw [← h4]; unfold s5; split <;> simp
      rw [← h5]
      clear_value s5
      split <;> simp

@[simp] theorem State.preemptDone_kp (s : State) (c : Nat) :
    (State.preemptDone s c).kp = s.kp := by
  unfold State.preemptDone
  repeat' (first | rfl | (simp; done) | split | dsimp only | intro _)

@[simp] theorem State.schCommitGo_kp (s : State) :
    (State.schCommitGo s).1.kp = s.kp := by
  unfold State.schCommitGo
  repeat' (first | rfl | (simp; done) | split | dsimp only | intro _)

@[simp] theorem State.commitEffect_kp (s : State) (e : Nat) : (State.commitEffect s e).kp = s.kp := by
  unfold State.commitEffect
  extract_lets s1 sc s2 sd s3 ps s4
  refine (State.kp_foldl _ (fun _ _ => State.schResume_kp _ _) _ _).trans ?_
  unfold s4
  have h1 : s1.kp = s.kp := State.kp_foldl _ (fun _ _ => by dsimp only; split <;> simp) _ _
  clear_value s1
  have h2 : s2.kp = s.kp := by rw [← h1]; rfl
  have h3 : s3.kp = s.kp := by
    unfold s3
    split
    · exact h2
    · exact h2
  clear_value s3 ps
  clear h2 sd s2 sc h1 s1
  refine (State.kp_foldl _ ?_ _ _).trans h3
  intro u p
  have h : (List.foldl (fun (s : State) r => s.wakeDie r.die) u (u.load.prects.filter fun r => r.id = p)).kp = u.kp :=
    State.kp_foldl _ (fun _ _ => by simp) _ _
  dsimp only
  generalize List.foldl (fun (s : State) r => s.wakeDie r.die) u (u.load.prects.filter fun r => r.id = p) = v at h ⊢
  rw [← h]
  split
  · exact State.setHolder_kp _ _ _
  · exact State.passOn_kp _ _ _

end Sys2Proof.Machine
end

