-- ==== Sys2Proof/Laws/KeepQuenchOps.lean ====
section
/-! SUPPORT. What the operations of Machine/QuenchOps.lean leave alone. -/
namespace Sys2Proof.Machine

@[simp] theorem State.resetRecord_kp (s : State) (kind source arg : Nat) :
    (State.resetRecord s kind source arg).kp = s.kp := by
  unfold State.resetRecord
  repeat' (first | rfl | (simp; done) | split | dsimp only | intro _)

@[simp] theorem State.modPart_kp (s : State) (p : Nat) (f : Part → Part) :
    (State.modPart s p f).kp = s.kp := by
  unfold State.modPart
  rfl

@[simp] theorem State.installTile_kp (s : State) (p : Nat) :
    (State.installTile s p).kp = s.kp := by
  unfold State.installTile
  repeat' (first | rfl | (simp; done) | split | dsimp only | intro _)

@[simp] theorem State.installAll_kp (s : State) (ds : List Due) :
    (State.installAll s ds).kp = s.kp := by
  unfold State.installAll
  simp

@[simp] theorem State.preemptKeep_kp (s : State) (c : Nat) :
    (State.preemptKeep s c).kp = s.kp := by
  unfold State.preemptKeep
  simp

@[simp] theorem State.degradeCtx_kp (s : State) (c : Nat) :
    (State.degradeCtx s c).kp = s.kp := by
  unfold State.degradeCtx
  simp

@[simp] theorem State.quenchStart_kp (s : State) (p src : Nat) (keep : Option Nat) :
    (State.quenchStart s p src keep).kp = s.kp := by
  unfold State.quenchStart
  extract_lets cs a1 a2 a3 a4
  have h1 : a1.kp = s.kp := (State.schAdvance_kp _ _).trans (State.modPart_kp _ _ _)
  have h2 : a2.kp = a1.kp := by
    unfold a2
    split
    · exact State.kp_foldl _ (fun _ _ => State.degradeCtx_kp _ _) _ _
    · rfl
  clear_value a2
  have h3 : a3.kp = a2.kp := State.kp_foldl _ (fun _ _ => by
    split
    · exact State.preemptKeep_kp _ _
    · exact (State.preemptDone_kp _ _).trans (State.preemptStart_kp _ _ _)) _ _
  clear_value a3
  exact (State.dropWork_kp _ _ _).trans ((State.installAll_kp _ _).trans (h3.trans (h2.trans h1)))

@[simp] theorem State.leaveDegraded_kp (s : State) (p : Nat) :
    (State.leaveDegraded s p).kp = s.kp := by
  unfold State.leaveDegraded
  simp

@[simp] theorem State.unhold_kp (s : State) (c : Nat) :
    (State.unhold s c).kp = s.kp := by
  unfold State.unhold
  rfl

@[simp] theorem State.hangEnd_kp (s : State) (p : Nat) :
    (State.hangEnd s p).kp = s.kp := by
  unfold State.hangEnd
  repeat' (first | rfl | (simp; done) | split | dsimp only | intro _)

@[simp] theorem State.hangNext_kp (s : State) (p : Nat) :
    (State.hangNext s p).kp = s.kp := by
  unfold State.hangNext
  repeat' (first | rfl | (simp; done) | split | dsimp only | intro _)

@[simp] theorem State.suspectPass_kp (s : State) (p c : Nat) :
    (State.suspectPass s p c).kp = s.kp := by
  unfold State.suspectPass
  simp

@[simp] theorem State.hangCheck_kp (s : State) (p : Nat) :
    (State.hangCheck s p).kp = s.kp := by
  unfold State.hangCheck
  repeat' (first | rfl | (simp; done) | split | dsimp only | intro _)

@[simp] theorem State.hangStart_kp (s : State) (p : Nat) :
    (State.hangStart s p).kp = s.kp := by
  unfold State.hangStart
  simp

@[simp] theorem State.suspectGuilty_kp (s : State) (p c : Nat) :
    (State.suspectGuilty s p c).kp = s.kp := by
  unfold State.suspectGuilty
  simp

@[simp] theorem State.quenchAsk_kp (s : State) (p src : Nat) :
    (State.quenchAsk s p src).kp = s.kp := by
  unfold State.quenchAsk
  simp

@[simp] theorem State.quenchDone_kp (s : State) (p : Nat) :
    (State.quenchDone s p).kp = s.kp := by
  unfold State.quenchDone
  repeat' (first | rfl | (simp; done) | split | dsimp only | intro _)

end Sys2Proof.Machine
end

