-- ==== Sys2Proof/Laws/KeepLaunchCmds.lean ====
section
/-! SUPPORT. What the operations of Machine/LaunchCmds.lean leave alone. -/
namespace Sys2Proof.Machine

@[simp] theorem State.chooseOn_kp (s : State) (tiles : List Nat) :
    (State.chooseOn s tiles).kp = s.kp := by
  unfold State.chooseOn
  repeat' (first | rfl | (simp; done) | split | dsimp only | intro _)

@[simp] theorem State.startTile_kp (s : State) (c id entry : Nat) (args : List W32) (l : Nat) :
    (State.startTile s c id entry args l).kp = s.kp := by
  unfold State.startTile
  repeat' (first | rfl | (simp; done) | split | dsimp only | intro _)

@[simp] theorem State.launchGo_kp (s : State) (id : Nat) :
    (State.launchGo s id).kp = s.kp := by
  unfold State.launchGo
  repeat' (first | rfl | (simp; done) | split | dsimp only | intro _)

@[simp] theorem State.stepDone_kp (s : State) (c : Nat) :
    (State.stepDone s c).kp = s.kp := by
  unfold State.stepDone
  repeat' (first | rfl | (simp; done) | split | dsimp only | intro _)

@[simp] theorem State.semOver_kp (s : State) (g : Signal) (t : Tile) :
    (State.semOver s g t).kp = s.kp := by
  unfold State.semOver
  repeat' (first | rfl | (simp; done) | split | dsimp only | intro _)

@[simp] theorem State.signalLand_kp (s : State) (g : Signal) :
    (State.signalLand s g).kp = s.kp := by
  unfold State.signalLand
  repeat' (first | rfl | (simp; done) | split | dsimp only | intro _)

@[simp] theorem State.landSigs_kp (s : State) (c : Nat) :
    (State.landSigs s c).kp = s.kp := by
  unfold State.landSigs
  simp

@[simp] theorem State.recordTry_kp (s : State) (gaveUp : Bool) (cls : TCls) (c a : Nat) (bs : List Byte) :
    (State.recordTry s gaveUp cls c a bs).1.kp = s.kp := by
  unfold State.recordTry
  simp

@[simp] theorem State.voteRecord_kp (s : State) (gaveUp : Bool) (d : Desc) :
    (State.voteRecord s gaveUp d).1.kp = s.kp := by
  unfold State.voteRecord
  repeat' (first | rfl | (simp; done) | split | dsimp only | intro _)

@[simp] theorem State.completeRest_kp (s : State) (id : Nat) (d : Desc) (st : Status) :
    (State.completeRest s id d st).kp = s.kp := by
  unfold State.completeRest
  repeat' (first | rfl | (simp; done) | split | dsimp only | intro _)

@[simp] theorem State.complete_kp (s : State) (id : Nat) : (State.complete s id).kp = s.kp := by
  unfold State.complete
  rw [← State.settleMemctl_kp s id]
  generalize s.settleMemctl id = s
  dsimp only
  split
  · rfl
  · split
    · rfl
    · next d _ _ =>
      generalize hv : (s.dropWait? d.crecWait).modDesc id (fun d => { d with crecWait := none }) = v
      have h : v.kp = s.kp := by rw [← hv]; simp
      rw [← h]
      clear hv h
      generalize (decide (s.waitRes d.crecWait ≠ .ok) && decide (s.waitRes d.crecWait ≠ .abandoned)) = gu
      generalize hx : (if gu = true then (v, none) else v.countStat id) = x
      have h : x.1.kp = v.kp := by rw [← hx]; split <;> simp
      rw [← h]
      clear hx h
      obtain ⟨u, o⟩ := x
      cases o with
      | some w => simp
      | none =>
        try dsimp only
        generalize hx : u.voteRecord gu d = x
        have h : x.1.kp = u.kp := by rw [← hx]; simp
        rw [← h]
        clear hx h
        obtain ⟨u, o⟩ := x
        cases o with
        | some w => simp
        | none =>
          try dsimp only
          generalize u.finalStatus d = st
          generalize crecBytes d.hdr st _ _ d.detail.toNat u.now = bs
          generalize hx : (if d.hdr.crec = true then u.recordTry gu (u.classOf d) d.hdr.ctx d.hdr.cplAddr bs else (u, none)) = x
          have h : x.1.kp = u.kp := by rw [← hx]; split <;> simp
          rw [← h]
          clear hx h
          obtain ⟨u, o⟩ := x
          cases o with
          | some w => simp
          | none => simp

@[simp] theorem State.takeGate_kp (s : State) (g : Stage) (role : Nat) :
    (State.takeGate s g role).kp = s.kp := by
  unfold State.takeGate
  repeat' (first | rfl | (simp; done) | split | dsimp only | intro _)

@[simp] theorem State.stageDecide_kp (s : State) (n : Nat) (host : Fetched) :
    (State.stageDecide s n host).kp = s.kp := by
  unfold State.stageDecide
  repeat' (first | rfl | (simp; done) | split | dsimp only | intro _ | (have h1 := congrArg Prod.fst (‹_ = (_, _)›); dsimp only at h1; subst h1) | apply State.kp_foldl | apply State.kp_foldl_fst | apply State.kp_elim | apply State.issue_kp | apply State.takeEntry_kp | apply State.descRow_kp | apply State.regWrite_kp | apply State.hostWrite_kp | apply State.qRow_kp)

end Sys2Proof.Machine
end

