-- ==== Sys2Proof/Laws/KeepSchCmds.lean ====
section
/-! SUPPORT. What the operations of Machine/SchCmds.lean leave alone. -/
namespace Sys2Proof.Machine

@[simp] theorem State.schRefuse_kp (s : State) (c : Nat) (st : Status) :
    (State.schRefuse s c st).1.kp = s.kp := by
  unfold State.schRefuse
  rfl

@[simp] theorem State.emptyNow_kp (s : State) (c : Nat) :
    (State.emptyNow s c).kp = s.kp := by
  unfold State.emptyNow
  repeat' (first | rfl | (simp; done) | split | dsimp only | intro _)

@[simp] theorem State.hostPreempt_kp (s : State) (c : Nat) : (State.hostPreempt s c).kp = s.kp := by
  unfold State.hostPreempt
  have h : ((s.openDue s.now).emptyNow c).kp = s.kp := by simp
  generalize (s.openDue s.now).emptyNow c = u at h ⊢
  rw [← h]
  dsimp only
  split
  · with_reducible rfl
  · rw [State.hangCheck_kp]
    split <;> simp

@[simp] theorem State.hostResume_kp (s : State) (c : Nat) :
    (State.hostResume s c).1.kp = s.kp := by
  unfold State.hostResume
  repeat' (first | rfl | (simp; done) | split | dsimp only | intro _)

@[simp] theorem State.hostSwitch_kp (s : State) (c : Nat) (ver : W16) : (State.hostSwitch s c ver).1.kp = s.kp := by
  unfold State.hostSwitch
  have h : (s.openDue (s.now + 1)).kp = s.kp := by simp
  generalize s.openDue (s.now + 1) = u at h ⊢
  rw [← h]
  dsimp only
  split
  · with_reducible rfl
  · split
    · simp
    · split
      · simp
      · dsimp only
        rw [State.switchCheck_kp]
        exact (State.kp_foldl _ (fun _ _ => State.modLayer_kp _ _ _ _) _ _).trans (State.modCtx_kp _ _ _)

@[simp] theorem State.schCmd_kp (s : State) (c : Nat) (w : W32) :
    (State.schCmd s c w).1.kp = s.kp := by
  unfold State.schCmd
  simp

@[simp] theorem State.schCtl_kp (s : State) (w : W32) :
    (State.schCtl s w).1.kp = s.kp := by
  unfold State.schCtl
  simp

@[simp] theorem State.cycleNext_kp (s : State) :
    (State.cycleNext s).kp = s.kp := by
  unfold State.cycleNext
  simp

end Sys2Proof.Machine
end

