-- ==== Sys2Proof/Laws/KeepServeOps.lean ====
section
/-! SUPPORT. What the operations of Machine/ServeOps.lean leave alone. -/
namespace Sys2Proof.Machine

@[simp] theorem State.reply_kp (s : State) (k : Packet) (st : Status) (data : Option (List Byte)) :
    (State.reply s k st data).kp = s.kp := by
  unfold State.reply
  simp

@[simp] theorem State.serveRead_kp (s : State) (fly : Bool) (k : Packet) (res : OpRes) : (State.serveRead s fly k res).1.kp = s.kp := by
  rw [State.serveRead]
  generalize k.aux % 2 ^ 9 = n
  generalize k.addr = a
  split
  · rw [← State.winReadErr_kp s ⟨fly, true, .job⟩ k.ctx a n res]
    generalize s.winReadErr ⟨fly, true, .job⟩ k.ctx a n res = x
    obtain ⟨u, r⟩ := x
    cases r <;> rfl
  · split
    · split
      · rfl
      · exact State.t3Read_kp s none (t3Addr a) n
    · rfl

@[simp] theorem State.serveWrite_kp (s : State) (fly : Bool) (k : Packet) (res : OpRes) : (State.serveWrite s fly k res).1.kp = s.kp := by
  rw [State.serveWrite]
  generalize ((wordsToBytes k.pay).drop (k.addr % 4)).take (k.aux % 2 ^ 9) = bs
  generalize k.addr = a
  split
  · have h := State.winErrs_kp s k.ctx a bs.length res
    generalize s.winErrs k.ctx a bs.length res = y at h ⊢
    obtain ⟨v, bad⟩ := y
    have g := State.winWrite_kp v ⟨fly, true, .job⟩ k.ctx a bs bad
    dsimp only at h g ⊢
    generalize v.winWrite ⟨fly, true, .job⟩ k.ctx a bs bad = x at g ⊢
    obtain ⟨u, r⟩ := x
    cases r <;> exact g.trans h
  · split
    · split
      · rfl
      · exact State.t3Out_kp s _
    · rfl

@[simp] theorem State.servePush_kp (s : State) (k : Packet) : (State.servePush s k).1.kp = s.kp := by
  rw [State.servePush]
  generalize fld (k.pw 9) 0 16 = tile
  generalize fld (k.pw 9) 16 16 = lo
  generalize k.addr = q
  generalize pushBytes k.ctx (k.pay.take 8) = bs
  have h := State.appendEntry_kp s .job q bs
  generalize s.appendEntry .job q bs = x at h ⊢
  obtain ⟨u, r⟩ := x
  cases r <;> dsimp only <;> repeat' (first | rfl | exact h | split)

@[simp] theorem State.serveOp_kp (s : State) (fly : Bool) (k : Packet) (res : OpRes) : (State.serveOp s fly k res).1.kp = s.kp := by
  unfold State.serveOp
  split
  · exact State.serveRead_kp s fly k res
  · exact State.serveWrite_kp s fly k res
  · exact State.servePush_kp s k

@[simp] theorem State.serveEnd_kp (k : Packet) (res : OpRes) (r : State × ServeRes) : (State.serveEnd k res r).kp = r.1.kp := by
  obtain ⟨u, r⟩ := r
  cases r with
  | reply st data => exact State.reply_kp u k st data
  | hold w tag => rfl

@[simp] theorem State.serve_kp (s : State) (fly : Bool) (k : Packet) (res : OpRes) : (State.serve s fly k res).kp = s.kp :=
  (State.serveEnd_kp k res _).trans (State.serveOp_kp s fly k res)

@[simp] theorem State.serveAgain_kp (s : State) (x : Served) :
    (State.serveAgain s x).kp = s.kp := by
  unfold State.serveAgain
  simp

@[simp] theorem State.serveHeld_kp (s : State) :
    (State.serveHeld s).kp = s.kp := by
  unfold State.serveHeld
  simp

@[simp] theorem State.bar4ReadPart_kp (s : State) (x : Bar4Wait) (a n : Nat) (st : Status) :
    (State.bar4ReadPart s x a n st).1.kp = s.kp := by
  unfold State.bar4ReadPart
  repeat' (first | rfl | (simp; done) | split | dsimp only | intro _ | (have h1 := congrArg Prod.fst (‹_ = (_, _)›); dsimp only at h1; subst h1) | apply State.kp_foldl | apply State.kp_foldl_fst | apply State.kp_elim | apply State.issue_kp | apply State.takeEntry_kp | apply State.descRow_kp | apply State.regWrite_kp | apply State.hostWrite_kp | apply State.qRow_kp)

@[simp] theorem State.bar4WritePart_kp (s : State) (x : Bar4Wait) (a : Nat) (bs : List (Option Byte)) (st : Status) :
    (State.bar4WritePart s x a bs st).1.kp = s.kp := by
  unfold State.bar4WritePart
  repeat' (first | rfl | (simp; done) | split | dsimp only | intro _ | (have h1 := congrArg Prod.fst (‹_ = (_, _)›); dsimp only at h1; subst h1) | apply State.kp_foldl | apply State.kp_foldl_fst | apply State.kp_elim | apply State.issue_kp | apply State.takeEntry_kp | apply State.descRow_kp | apply State.regWrite_kp | apply State.hostWrite_kp | apply State.qRow_kp)

@[simp] theorem State.bar4End_kp (s : State) (x : Bar4Wait) :
    (State.bar4End s x).kp = s.kp := by
  unfold State.bar4End
  repeat' (first | rfl | (simp; done) | split | dsimp only | intro _)

@[simp] theorem State.bar4Go_kp (f : Nat) (s : State) (x : Bar4Wait) : (State.bar4Go f s x).kp = s.kp := by
  induction f generalizing s x with
  | zero => unfold State.bar4Go; exact State.bar4End_kp s x
  | succ f ih =>
    unfold State.bar4Go
    split
    · exact State.bar4End_kp s x
    · rw [← State.dropWait?_kp s x.wait]
      generalize s.dropWait? x.wait = s
      dsimp only
      generalize min (x.n - x.pos) (pageSize - (x.addr + x.pos) % pageSize) = n
      split
      · generalize hy : s.bar4ReadPart x (x.addr + x.pos) n _ = y
        have h : y.1.kp = s.kp := by rw [← hy]; exact State.bar4ReadPart_kp _ _ _ _ _
        rw [← h]
        obtain ⟨u, r⟩ := y
        cases r with
        | error w => rfl
        | ok r => exact ih _ _
      · generalize hy : s.bar4WritePart x (x.addr + x.pos) _ _ = y
        have h : y.1.kp = s.kp := by rw [← hy]; exact State.bar4WritePart_kp _ _ _ _ _
        rw [← h]
        obtain ⟨u, r⟩ := y
        cases r with
        | error w => rfl
        | ok r => exact ih _ _

@[simp] theorem State.bar4Held_kp (s : State) :
    (State.bar4Held s).kp = s.kp := by
  unfold State.bar4Held
  simp

@[simp] theorem State.resume_kp (s : State) :
    (State.resume s).kp = s.kp := by
  unfold State.resume
  simp

@[simp] theorem State.bar4_kp (s : State) (read : Bool) (off n : Nat) (data : List (Option Byte)) (tee : Bool) (res : OpRes) :
    (State.bar4 s read off n data tee res).kp = s.kp := by
  unfold State.bar4
  simp

end Sys2Proof.Machine
end

