-- ==== Sys2Proof/Laws/KeepHangOps.lean ====
section
/-! SUPPORT. What the operations of Machine/HangOps.lean leave alone. -/
namespace Sys2Proof.Machine

@[simp] theorem State.noteStages_kp (s : State) :
    (State.noteStages s).kp = s.kp := by
  unfold State.noteStages
  repeat' (first | rfl | (simp; done) | split | dsimp only | intro _ | (have h1 := congrArg Prod.fst (‹_ = (_, _)›); dsimp only at h1; subst h1) | apply State.kp_foldl | apply State.kp_foldl_fst | apply State.kp_elim | apply State.issue_kp | apply State.takeEntry_kp | apply State.descRow_kp | apply State.regWrite_kp | apply State.hostWrite_kp | apply State.qRow_kp)

end Sys2Proof.Machine
end

