-- ==== Sys2Proof/Laws/KeepFaultCmds.lean ====
section
/-! SUPPORT. What the operations of Machine/FaultCmds.lean leave alone. -/
namespace Sys2Proof.Machine

@[simp] theorem State.countRemote_kp (s : State) (c dst : Nat) :
    (State.countRemote s c dst).kp = s.kp := by
  unfold State.countRemote
  rfl

@[simp] theorem State.pieceTimeout_kp (s : State) (id k c : Nat) :
    (State.pieceTimeout s id k c).kp = s.kp := by
  unfold State.pieceTimeout
  simp

@[simp] theorem State.txnTimeout_kp (s : State) (seq : Nat) :
    (State.txnTimeout s seq).kp = s.kp := by
  unfold State.txnTimeout
  repeat' (first | rfl | (simp; done) | split | dsimp only | intro _)

@[simp] theorem State.portTimeout_kp (s : State) (id k : Nat) :
    (State.portTimeout s id k).kp = s.kp := by
  unfold State.portTimeout
  repeat' (first | rfl | (simp; done) | split | dsimp only | intro _)

@[simp] theorem State.pushTimeout_kp (s : State) (l : Nat) :
    (State.pushTimeout s l).kp = s.kp := by
  unfold State.pushTimeout
  repeat' (first | rfl | (simp; done) | split | dsimp only | intro _)

@[simp] theorem State.srstTimeout_kp (s : State) (l : Nat) :
    (State.srstTimeout s l).kp = s.kp := by
  unfold State.srstTimeout
  repeat' (first | rfl | (simp; done) | split | dsimp only | intro _)

@[simp] theorem State.collTimeout_kp (s : State) (id : Nat) :
    (State.collTimeout s id).kp = s.kp := by
  unfold State.collTimeout
  repeat' (first | rfl | (simp; done) | split | dsimp only | intro _)

@[simp] theorem State.retireReg_kp (s : State) (w : W32) :
    (State.retireReg s w).1.kp = s.kp := by
  unfold State.retireReg
  simp

@[simp] theorem State.partCtl_kp (s : State) (p : Nat) (w : W32) :
    (State.partCtl s p w).1.kp = s.kp := by
  unfold State.partCtl
  repeat' (first | rfl | (simp; done) | split | dsimp only | intro _)

@[simp] theorem State.switchCut_kp (s : State) (c : Nat) :
    (State.switchCut s c).kp = s.kp := by
  unfold State.switchCut
  repeat' (first | rfl | (simp; done) | split | dsimp only | intro _)

@[simp] theorem State.endWork_kp (s : State) (c : Nat) :
    (State.endWork s c).kp = s.kp := by
  unfold State.endWork
  simp

@[simp] theorem State.contextReset_kp (s : State) (c src : Nat) : (State.contextReset s c src).kp = s.kp := by
  unfold State.contextReset
  have h : ((s.endWork c).switchCut c).kp = s.kp := by rw [State.switchCut_kp, State.endWork_kp]
  generalize (s.endWork c).switchCut c = u at h ⊢
  extract_lets v1 fb fl v2 v3 v4 part v5
  have h2 : v2.kp = u.kp := rfl
  clear_value v2
  have h3 : v3.kp = v2.kp := State.dropWork_kp _ _ _
  clear_value v3
  have h4 : v4.kp = v3.kp := State.kp_foldl _ (fun _ _ => by simp) _ _
  clear_value v4 part
  have h5 : v5.kp = v4.kp := State.modCtx_kp _ _ _
  clear_value v5
  rw [State.resetRecord_kp, State.schAdvance_kp, h5, h4, h3, h2, h]

@[simp] theorem State.ctxCtl_kp (s : State) (c : Nat) (w : W32) :
    (State.ctxCtl s c w).1.kp = s.kp := by
  unfold State.ctxCtl
  simp

@[simp] theorem State.hangFound_kp (s : State) (p : Nat) : (State.hangFound s p).kp = s.kp := by
  unfold State.hangFound
  split
  · with_reducible rfl
  · split
    · exact State.hangStart_kp _ _
    · exact State.suspectGuilty_kp _ _ _
    · with_reducible rfl

@[simp] theorem State.hangScan_kp (s : State) :
    (State.hangScan s).kp = s.kp := by
  unfold State.hangScan
  simp

@[simp] theorem State.healthDecay_kp (s : State) :
    (State.healthDecay s).kp = s.kp := by
  unfold State.healthDecay
  rfl

@[simp] theorem State.timeTile_kp (s : State) (p : Nat) :
    (State.timeTile s p).kp = s.kp := by
  unfold State.timeTile
  simp

end Sys2Proof.Machine
end

