-- ==== Sys2Proof/Laws/KeepHrtOps.lean ====
section
/-! SUPPORT. What the operations of Machine/HrtOps.lean leave alone. -/
namespace Sys2Proof.Machine

@[simp] theorem State.lockEv_kp (s : State) (l : Lock) (what : Nat) :
    (State.lockEv s l what).kp = s.kp := by
  unfold State.lockEv
  rfl

@[simp] theorem State.lockRefuse_kp (s : State) (l h : Lock) :
    (State.lockRefuse s l h).kp = s.kp := by
  unfold State.lockRefuse
  rfl

@[simp] theorem State.lockGrant_kp (s : State) (l : Lock) :
    (State.lockGrant s l).kp = s.kp := by
  unfold State.lockGrant
  rfl

@[simp] theorem State.lockDrop_kp (s : State) (f : Lock → Bool) :
    (State.lockDrop s f).kp = s.kp := by
  unfold State.lockDrop
  simp

@[simp] theorem State.setDieMv_kp (s : State) (d mv : Nat) :
    (State.setDieMv s d mv).kp = s.kp := by
  unfold State.setDieMv
  rfl

@[simp] theorem State.sweepStart_kp (s : State) (d : Nat) :
    (State.sweepStart s d).kp = s.kp := by
  unfold State.sweepStart
  rfl

@[simp] theorem State.sweepEnd_kp (s : State) (d : Nat) (restore : Bool) :
    (State.sweepEnd s d restore).kp = s.kp := by
  unfold State.sweepEnd
  repeat' (first | rfl | (simp; done) | split | dsimp only | intro _)

@[simp] theorem State.setMargin_kp (s : State) (d mv : Nat) :
    (State.setMargin s d mv).kp = s.kp := by
  unfold State.setMargin
  rfl

@[simp] theorem State.sweepStep_kp (s : State) (d : Nat) :
    (State.sweepStep s d).kp = s.kp := by
  unfold State.sweepStep
  repeat' (first | rfl | (simp; done) | split | dsimp only | intro _)

@[simp] theorem State.linkRetrain_kp (s : State) (p : Nat) :
    (State.linkRetrain s p).kp = s.kp := by
  unfold State.linkRetrain
  simp

@[simp] theorem State.lockReq_kp (s : State) (w : W32) :
    (State.lockReq s w).1.kp = s.kp := by
  unfold State.lockReq
  repeat' (first | rfl | (simp; done) | split | dsimp only | intro _)

@[simp] theorem State.onPortRow_kp (s : State) (p : Nat) (g : Port → Port × List FEff) :
    (State.onPortRow s p g).kp = s.kp := by
  unfold State.onPortRow
  simp

@[simp] theorem State.bistZero_kp (s : State) (kind idx : Nat) :
    (State.bistZero s kind idx).kp = s.kp := by
  unfold State.bistZero
  repeat' (first | rfl | (simp; done) | split | dsimp only | intro _)

@[simp] theorem State.bistReport_kp (s : State) (host : Bool) (kind idx : Nat) (st : Status) :
    (State.bistReport s host kind idx st).kp = s.kp := by
  unfold State.bistReport
  simp

@[simp] theorem State.bistAbandon_kp (s : State) (b : BistRun) :
    (State.bistAbandon s b).kp = s.kp := by
  unfold State.bistAbandon
  simp

@[simp] theorem State.bistGo_kp (s : State) (host : Bool) (l : Lock) (precond : Bool) :
    (State.bistGo s host l precond).kp = s.kp := by
  unfold State.bistGo
  repeat' (first | rfl | (simp; done) | split | dsimp only | intro _)

@[simp] theorem State.bistReq_kp (s : State) (w : W32) (precond : Bool) :
    (State.bistReq s w precond).1.kp = s.kp := by
  unfold State.bistReq
  repeat' (first | rfl | (simp; done) | split | dsimp only | intro _)

@[simp] theorem State.bistMsg_kp (s : State) (eid kind idx : Nat) (precond : Bool) :
    (State.bistMsg s eid kind idx precond).kp = s.kp := by
  unfold State.bistMsg
  repeat' (first | rfl | (simp; done) | split | dsimp only | intro _)

@[simp] theorem State.retireDie_kp (s : State) (t d : Nat) :
    (State.retireDie s t d).kp = s.kp := by
  unfold State.retireDie
  simp

@[simp] theorem State.tileTested_kp (s : State) (q : Nat) :
    (State.tileTested s q).kp = s.kp := by
  unfold State.tileTested
  repeat' (first | rfl | (simp; done) | split | dsimp only | intro _)

@[simp] theorem State.bistFailed_kp (s : State) (kind idx : Nat) : (State.bistFailed s kind idx).kp = s.kp := by
  unfold State.bistFailed
  split
  · rw [State.tileTested_kp, State.dueTile_kp]
  · exact State.retireDie_kp _ _ _
  · exact State.retireDie_kp _ _ _
  · exact State.onFab_kp _ _
  · rfl

@[simp] theorem State.bistPassed_kp (s : State) (kind idx : Nat) :
    (State.bistPassed s kind idx).kp = s.kp := by
  unfold State.bistPassed
  repeat' (first | rfl | (simp; done) | split | dsimp only | intro _)

@[simp] theorem State.bistEnd_kp (s : State) (kind idx : Nat) (pass : Bool) :
    (State.bistEnd s kind idx pass).kp = s.kp := by
  unfold State.bistEnd
  repeat' (first | rfl | (simp; done) | split | dsimp only | intro _)

@[simp] theorem State.abandonTests_kp (s : State) (restore : Bool) :
    (State.abandonTests s restore).kp = s.kp := by
  unfold State.abandonTests
  simp

@[simp] theorem State.scrubStop_kp (s : State) :
    (State.scrubStop s).kp = s.kp := by
  unfold State.scrubStop
  simp

end Sys2Proof.Machine
end

