-- ==== Sys2Proof/Laws/KeepLoadOps.lean ====
section
/-! SUPPORT. What the operations of Machine/LoadOps.lean leave alone. -/
namespace Sys2Proof.Machine

@[simp] theorem State.rebuildRemap_kp (s : State) :
    (State.rebuildRemap s).kp = s.kp := by
  unfold State.rebuildRemap
  rfl

@[simp] theorem State.instIdentity_kp (s : State) (bs : List Byte) :
    (State.instIdentity s bs).kp = s.kp := by
  unfold State.instIdentity
  rfl

@[simp] theorem State.instPartition_kp (s : State) (bs : List Byte) :
    (State.instPartition s bs).kp = s.kp := by
  unfold State.instPartition
  rfl

@[simp] theorem State.instRemap_kp (s : State) (bs : List Byte) :
    (State.instRemap s bs).kp = s.kp := by
  unfold State.instRemap
  rfl

@[simp] theorem State.instContext_kp (s : State) (bs : List Byte) :
    (State.instContext s bs).kp = s.kp := by
  unfold State.instContext
  simp

@[simp] theorem State.instQueue_kp (s : State) (bs : List Byte) :
    (State.instQueue s bs).kp = s.kp := by
  unfold State.instQueue
  simp

@[simp] theorem State.instTilecfg_kp (s : State) (bs : List Byte) :
    (State.instTilecfg s bs).kp = s.kp := by
  unfold State.instTilecfg
  simp

@[simp] theorem State.instMesh_kp (s : State) (bs : List Byte) :
    (State.instMesh s bs).kp = s.kp := by
  unfold State.instMesh
  rfl

@[simp] theorem State.instNumerics_kp (s : State) (part : Bool) (bs : List Byte) :
    (State.instNumerics s part bs).kp = s.kp := by
  unfold State.instNumerics
  simp

@[simp] theorem State.instStage_kp (s : State) (bs : List Byte) :
    (State.instStage s bs).kp = s.kp := by
  unfold State.instStage
  repeat' (first | rfl | (simp; done) | split | dsimp only | intro _ | (have h1 := congrArg Prod.fst (‹_ = (_, _)›); dsimp only at h1; subst h1) | apply State.kp_foldl | apply State.kp_foldl_fst | apply State.kp_elim | apply State.issue_kp | apply State.takeEntry_kp | apply State.descRow_kp | apply State.regWrite_kp | apply State.hostWrite_kp | apply State.qRow_kp)

@[simp] theorem State.instServing_kp (s : State) (part : Bool) (bs : List Byte) :
    (State.instServing s part bs).kp = s.kp := by
  unfold State.instServing
  repeat' (first | rfl | (simp; done) | split | dsimp only | intro _ | (have h1 := congrArg Prod.fst (‹_ = (_, _)›); dsimp only at h1; subst h1) | apply State.kp_foldl | apply State.kp_foldl_fst | apply State.kp_elim | apply State.issue_kp | apply State.takeEntry_kp | apply State.descRow_kp | apply State.regWrite_kp | apply State.hostWrite_kp | apply State.qRow_kp)

@[simp] theorem State.instBank_kp (s : State) (part : Bool) (bs : List Byte) :
    (State.instBank s part bs).kp = s.kp := by
  unfold State.instBank
  simp

@[simp] theorem State.instCollgroup_kp (s : State) (bs : List Byte) :
    (State.instCollgroup s bs).kp = s.kp := by
  unfold State.instCollgroup
  rfl

@[simp] theorem State.instSect_kp (s : State) (part : Bool) (ty : Nat) (bs : List Byte) :
    (State.instSect s part ty bs).kp = s.kp := by
  unfold State.instSect
  repeat' (first | rfl | (simp; done) | split | dsimp only | intro _)

@[simp] theorem State.imageWrite_kp (s : State) (scope : Nat) (bs : List Byte) :
    (State.imageWrite s scope bs).kp = s.kp := by
  unfold State.imageWrite
  simp

end Sys2Proof.Machine
end

