-- ==== Sys2Proof/Laws/KeepLoadCmds.lean ====
section
/-! SUPPORT. What the operations of Machine/LoadCmds.lean leave alone. -/
namespace Sys2Proof.Machine

@[simp] theorem State.loadEnd_kp (s : State) (st : Status) :
    (State.loadEnd s st).kp = s.kp := by
  unfold State.loadEnd
  simp

@[simp] theorem State.loadFail_kp (s : State) (st : Status) (sect off : Nat) :
    (State.loadFail s st sect off).kp = s.kp := by
  unfold State.loadFail
  simp

@[simp] theorem State.dropProgram_kp (s : State) :
    (State.dropProgram s).kp = s.kp := by
  unfold State.dropProgram
  simp

@[simp] theorem State.endProgram_kp (s : State) (src : Nat) :
    (State.endProgram s src).kp = s.kp := by
  unfold State.endProgram
  simp

@[simp] theorem State.bare_kp (s : State) :
    (State.bare s).kp = s.kp := by
  unfold State.bare
  rfl

@[simp] theorem State.keepNonce_kp (s : State) (c : Container) :
    (State.keepNonce s c).kp = s.kp := by
  unfold State.keepNonce
  rfl

@[simp] theorem State.loadChecked_kp (s : State) (r : CheckRead) :
    (State.loadChecked s r).kp = s.kp := by
  unfold State.loadChecked
  repeat' (first | rfl | (simp; done) | split | dsimp only | intro _)

@[simp] theorem State.imagesWrite_kp (s : State) (l : List (Nat × List Byte)) :
    (State.imagesWrite s l).kp = s.kp := by
  unfold State.imagesWrite
  simp

@[simp] theorem State.sweepPart_kp (s : State) (p : Nat) :
    (State.sweepPart s p).kp = s.kp := by
  unfold State.sweepPart
  rfl

@[simp] theorem State.installRipe_kp (s : State) :
    (State.installRipe s).kp = s.kp := by
  unfold State.installRipe
  simp

@[simp] theorem State.applyFail_kp (s : State) (g : Staged) (st : Status) (sect off : Nat) :
    (State.applyFail s g st sect off).kp = s.kp := by
  unfold State.applyFail
  simp

@[simp] theorem State.instFabric_kp (s : State) (bs : List Byte) :
    (State.instFabric s bs).kp = s.kp := by
  unfold State.instFabric
  simp

@[simp] theorem State.instFrame_kp (s : State) (g : Staged) :
    (State.instFrame s g).kp = s.kp := by
  unfold State.instFrame
  simp

@[simp] theorem State.instTables_kp (s : State) (g : Staged) :
    (State.instTables s g).kp = s.kp := by
  unfold State.instTables
  simp

@[simp] theorem State.instLast_kp (s : State) (g : Staged) :
    (State.instLast s g).kp = s.kp := by
  unfold State.instLast
  simp

@[simp] theorem State.holesDegrade_kp (s : State) :
    (State.holesDegrade s).kp = s.kp := by
  unfold State.holesDegrade
  simp

@[simp] theorem State.loadApplied_kp (s : State) (g : Staged) (r : ImageRead) :
    (State.loadApplied s g r).kp = s.kp := by
  unfold State.loadApplied
  repeat' (first | rfl | (simp; done) | split | dsimp only | intro _)

@[simp] theorem State.loadAbandon_kp (s : State) :
    (State.loadAbandon s).kp = s.kp := by
  unfold State.loadAbandon
  repeat' (first | rfl | (simp; done) | split | dsimp only | intro _)

@[simp] theorem State.loadCtl_kp (s : State) (w : W32) :
    (State.loadCtl s w).1.kp = s.kp := by
  unfold State.loadCtl
  simp

end Sys2Proof.Machine
end

