-- ==== Sys2Proof/Laws/KeepHrtCmds.lean ====
section
/-! SUPPORT. What the operations of Machine/HrtCmds.lean leave alone. -/
namespace Sys2Proof.Machine

@[simp] theorem State.hearthDown_kp (s : State) (r : Restart) :
    (State.hearthDown s r).kp = s.kp := by
  unfold State.hearthDown
  simp

@[simp] theorem State.hearthUp_kp (s : State) (cause : Nat) :
    (State.hearthUp s cause).kp = s.kp := by
  unfold State.hearthUp
  simp

@[simp] theorem State.seenClear_kp (s : State) (w : W32) :
    (State.seenClear s w).1.kp = s.kp := by
  unfold State.seenClear
  rfl

@[simp] theorem State.hlogHead_kp (s : State) (v : W32) :
    (State.hlogHead s v).1.kp = s.kp := by
  unfold State.hlogHead
  simp

end Sys2Proof.Machine
end

