-- ==== Sys2Proof/Laws/KeepResetOps.lean ====
section
/-! SUPPORT. What the operations of Machine/ResetOps.lean leave alone. -/
namespace Sys2Proof.Machine

@[simp] theorem State.partCut_kp (s : State) (p : Nat) :
    (State.partCut s p).kp = s.kp := by
  unfold State.partCut
  simp

@[simp] theorem State.degradePart_kp (s : State) (p : Nat) :
    (State.degradePart s p).kp = s.kp := by
  unfold State.degradePart
  simp

@[simp] theorem State.dieReset_kp (s : State) (d src : Nat) :
    (State.dieReset s d src).kp = s.kp := by
  unfold State.dieReset
  simp

@[simp] theorem State.dieBack_kp (s : State) :
    (State.dieBack s).kp = s.kp := by
  unfold State.dieBack
  simp

@[simp] theorem State.dieResetEnd_kp (s : State) (d : Nat) :
    (State.dieResetEnd s d).kp = s.kp := by
  unfold State.dieResetEnd
  repeat' (first | rfl | (simp; done) | split | dsimp only | intro _)

@[simp] theorem State.fenceSelf_kp (s : State) :
    (State.fenceSelf s).kp = s.kp := by
  unfold State.fenceSelf
  simp

@[simp] theorem State.computeLost_kp (s : State) :
    (State.computeLost s).kp = s.kp := by
  unfold State.computeLost
  simp

@[simp] theorem State.warmReset_kp (s : State) (src : Nat) :
    (State.warmReset s src).kp = s.kp := by
  unfold State.warmReset
  simp

@[simp] theorem State.retiringOut_kp (s : State) :
    (State.retiringOut s).kp = s.kp := by
  unfold State.retiringOut
  simp

@[simp] theorem State.restartTime_kp (s : State) : (State.restartTime s).kp = s.kp := by
  have h : (s.sec.tfabPrev.map fun k => (k.1, k.2 - s.time.now)).map (·.1) = s.sec.tfabPrev.map (·.1) := by
    cases s.sec.tfabPrev <;> rfl
  exact congrArg (fun z => ((s.sec.st, s.sec.exiting, s.sec.tkey, s.sec.tload, s.sec.tfab, z, s.sec.memKeys, s.sec.logKey), s.pending)) h

end Sys2Proof.Machine
end

