-- ==== Sys2Proof/Laws/KeepSecCmds.lean ====
section
/-! SUPPORT. What the operations of Machine/SecCmds.lean leave alone. -/
namespace Sys2Proof.Machine

@[simp] theorem State.gAnswer_kp (s : State) (cmd : Nat) (st : Status) (data : List Byte) :
    (State.gAnswer s cmd st data).kp = s.kp := by
  unfold State.gAnswer
  rfl

@[simp] theorem State.memCleared_kp (s : State) :
    (State.memCleared s).kp = s.kp := by
  unfold State.memCleared
  simp

@[simp] theorem State.newChallenge_kp (s : State) :
    (State.newChallenge s).kp = s.kp := by
  unfold State.newChallenge
  rfl

@[simp] theorem State.tdisp_kp (s : State) (sess : Option Nat) (cmd : Nat) (ok : Bool) (new : Tdi) :
    (State.tdisp s sess cmd ok new).kp = s.kp := by
  unfold State.tdisp
  simp

@[simp] theorem State.tdiError_kp (s : State) :
    (State.tdiError s).kp = s.kp := by
  unfold State.tdiError
  simp

end Sys2Proof.Machine
end

