-- ==== Sys2Proof/Laws/KeepPwrCmds.lean ====
section
/-! SUPPORT. What the operations of Machine/PwrCmds.lean leave alone. -/
namespace Sys2Proof.Machine

@[simp] theorem State.resetReq_kp (s : State) (w : W32) :
    (State.resetReq s w).1.kp = s.kp := by
  unfold State.resetReq
  simp

@[simp] theorem State.causeReg_kp (s : State) (w : W32) :
    (State.causeReg s w).1.kp = s.kp := by
  unfold State.causeReg
  simp

@[simp] theorem State.groupsReg_kp (s : State) (w : W32) :
    (State.groupsReg s w).1.kp = s.kp := by
  unfold State.groupsReg
  simp

@[simp] theorem State.parkGo_kp (s : State) (d : Nat) (deep : Bool) :
    (State.parkGo s d deep).kp = s.kp := by
  unfold State.parkGo
  repeat' (first | rfl | (simp; done) | split | dsimp only | intro _)

@[simp] theorem State.parkCtl_kp (s : State) (d : Nat) (w : W32) :
    (State.parkCtl s d w).1.kp = s.kp := by
  unfold State.parkCtl
  simp

@[simp] theorem State.dieLost_kp (s : State) (d : Nat) :
    (State.dieLost s d).kp = s.kp := by
  unfold State.dieLost
  rfl

@[simp] theorem State.compute_kp (s : State) (who : MgmtFrom) (f : State → State) (hf : ∀ y0, (f y0).kp = y0.kp) :
    (State.compute s who f).kp = s.kp := by
  unfold State.compute
  simp [hf]

@[simp] theorem State.tripRecord_kp (s : State) (kind sensor : Nat) :
    (State.tripRecord s kind sensor).kp = s.kp := by
  unfold State.tripRecord
  rfl

@[simp] theorem State.laserRecord_kp (s : State) (d : Nat) :
    (State.laserRecord s d).kp = s.kp := by
  unfold State.laserRecord
  rfl

end Sys2Proof.Machine
end

