-- ==== Sys2Proof/Laws/KeepFabCmds.lean ====
section
/-! SUPPORT. What the operations of Machine/FabCmds.lean leave alone. -/
namespace Sys2Proof.Machine

@[simp] theorem State.takePkt_kp (s : State) (p : Nat) (k : Packet) :
    (State.takePkt s p k).kp = s.kp := by
  unfold State.takePkt
  rfl

@[simp] theorem State.badPkt_kp (s : State) (p : Nat) :
    (State.badPkt s p).kp = s.kp := by
  unfold State.badPkt
  rfl

@[simp] theorem State.authDrop_kp (s : State) :
    (State.authDrop s).kp = s.kp := by
  unfold State.authDrop
  rfl

@[simp] theorem State.packetRow_kp (s : State) (p : Nat) (k : Packet) (cls : Nat) (ops : Nat → Bool) (f : State → Packet → State) (hf : ∀ y0 y1, (f y0 y1).kp = y0.kp) :
    (State.packetRow s p k cls ops f).kp = s.kp := by
  unfold State.packetRow
  repeat' (first | rfl | (simp [hf]; done) | split | dsimp only | intro _)

@[simp] theorem State.lateRsp_kp (s : State) :
    (State.lateRsp s).kp = s.kp := by
  unfold State.lateRsp
  rfl

@[simp] theorem State.rspFor_kp (s : State) (k : Packet) :
    (State.rspFor s k).1.kp = s.kp := by
  unfold State.rspFor
  repeat' (first | rfl | (simp; done) | split | dsimp only | intro _)

@[simp] theorem State.retireSeq_kp (s : State) (k : Packet) :
    (State.retireSeq s k).kp = s.kp := by
  unfold State.retireSeq
  rfl

@[simp] theorem State.dropOver_kp (s : State) :
    (State.dropOver s).kp = s.kp := by
  unfold State.dropOver
  rfl

@[simp] theorem State.collPkt_kp (s : State) (p : Nat) (k : Packet) (ops : Nat → Bool) (f : State → Packet → CGroup → State) (hf : ∀ y0 y1 y2, (f y0 y1 y2).kp = y0.kp) :
    (State.collPkt s p k ops f).kp = s.kp := by
  unfold State.collPkt
  repeat' (first | rfl | (simp [hf]; done) | split | dsimp only | intro _ | (have h1 := congrArg Prod.fst (‹_ = (_, _)›); dsimp only at h1; subst h1) | apply State.kp_foldl | apply State.kp_foldl_fst | apply State.kp_elim | apply State.issue_kp | apply State.takeEntry_kp | apply State.descRow_kp | apply State.regWrite_kp | apply State.hostWrite_kp | apply State.qRow_kp | apply State.compute_kp | apply State.packetRow_kp)

@[simp] theorem State.segDone_kp (s : State) (k : InstKey) (rank seg : Nat) :
    (State.segDone s k rank seg).kp = s.kp := by
  unfold State.segDone
  repeat' (first | rfl | (simp; done) | split | dsimp only | intro _)

@[simp] theorem State.dataIn_kp (s : State) (g : CGroup) (i : Inst) (rank fo lo : Nat) (bs : List Byte) :
    (State.dataIn s g i rank fo lo bs).kp = s.kp := by
  unfold State.dataIn
  repeat' (first | rfl | (simp; done) | split | dsimp only | intro _)

@[simp] theorem State.lateTake_kp (s : State) (k : InstKey) (rank n seg crc : Nat) (at_ : Nat × Nat) :
    (State.lateTake s k rank n seg crc at_).kp = s.kp := by
  unfold State.lateTake
  simp

@[simp] theorem State.lateSegment_kp (s : State) (g : CGroup) (k : InstKey) (fo rank n seg crc : Nat) :
    (State.lateSegment s g k fo rank n seg crc).kp = s.kp := by
  unfold State.lateSegment
  simp

@[simp] theorem State.passFence_kp (s : State) (p : Nat) (k : Packet) :
    (State.passFence s p k).kp = s.kp := by
  unfold State.passFence
  repeat' (first | rfl | (simp; done) | split | dsimp only | intro _ | (have h1 := congrArg Prod.fst (‹_ = (_, _)›); dsimp only at h1; subst h1) | apply State.kp_foldl | apply State.kp_foldl_fst | apply State.kp_elim | apply State.issue_kp | apply State.takeEntry_kp | apply State.descRow_kp | apply State.regWrite_kp | apply State.hostWrite_kp | apply State.qRow_kp | apply State.compute_kp | apply State.packetRow_kp | apply State.collPkt_kp)

@[simp] theorem State.takeFence_kp (s : State) (k : Packet) :
    (State.takeFence s k).kp = s.kp := by
  unfold State.takeFence
  repeat' (first | rfl | (simp; done) | split | dsimp only | intro _)

@[simp] theorem State.badExchange_kp (s : State) (p : Nat) :
    (State.badExchange s p).kp = s.kp := by
  unfold State.badExchange
  simp

@[simp] theorem State.sendTreq_kp (s : State) (p : Nat) :
    (State.sendTreq s p).kp = s.kp := by
  unfold State.sendTreq
  simp

@[simp] theorem State.goodExchange_kp (s : State) (p : Nat) (theta : Int) (delay : Nat) :
    (State.goodExchange s p theta delay).kp = s.kp := by
  unfold State.goodExchange
  simp

end Sys2Proof.Machine
end

