-- ==== Sys2Proof/Laws/KeepRtCmds.lean ====
section
/-! SUPPORT. What the operations of Machine/RtCmds.lean leave alone. -/
namespace Sys2Proof.Machine

@[simp] theorem State.brmMin_kp (s : State) (p : Nat) (w : W32) :
    (State.brmMin s p w).1.kp = s.kp := by
  unfold State.brmMin
  simp

@[simp] theorem State.brmDieWindow_kp (s : State) (w : BrmWindow) (d : Nat) :
    (State.brmDieWindow s w d).kp = s.kp := by
  unfold State.brmDieWindow
  simp

@[simp] theorem State.bellowsDie_kp (s : State) (d : Nat) (less : Bool) (delta : Int) : (State.bellowsDie s d less delta).kp = s.kp := by
  unfold State.bellowsDie
  extract_lets mv lo hi slot lost fl s1 hr s2
  clear_value lost slot hi lo mv
  split
  · rfl
  · have h1 : s1.kp = s.kp := by
      unfold s1
      split <;> rfl
    have h2 : s2.kp = s.kp := by rw [← h1]; rfl
    clear_value s2
    split
    · exact h2
    · exact (State.setDieMv_kp _ _ _).trans h2

end Sys2Proof.Machine
end

