-- ==== Sys2Proof/Laws/KeepRegMap.lean ====
section
/-! SUPPORT. What the operations of Machine/RegMap.lean leave alone. -/
namespace Sys2Proof.Machine

end Sys2Proof.Machine
end

