-- ==== Sys2Proof/Laws/KeepRegRead.lean ====
section
/-! SUPPORT. What the operations of Machine/RegRead.lean leave alone. -/
namespace Sys2Proof.Machine

end Sys2Proof.Machine
end

