-- ==== Sys2Proof/Laws/KeepRegWrite.lean ====
section
/-! SUPPORT. What the operations of Machine/RegWrite.lean leave alone. -/
namespace Sys2Proof.Machine

@[simp] theorem State.roWrite_kp (s : State) (mask : Nat) (w : W32) :
    (State.roWrite s mask w).1.kp = s.kp := by
  unfold State.roWrite
  rfl

@[simp] theorem State.abiReq_kp (s : State) (w : W32) :
    (State.abiReq s w).1.kp = s.kp := by
  unfold State.abiReq
  simp

@[simp] theorem State.winCtxReg_kp (s : State) (w : W32) :
    (State.winCtxReg s w).1.kp = s.kp := by
  unfold State.winCtxReg
  simp

@[simp] theorem State.winBaseReg_kp (s : State) (hi : Bool) (w : W32) :
    (State.winBaseReg s hi w).1.kp = s.kp := by
  unfold State.winBaseReg
  simp

@[simp] theorem State.msixReg_kp (s : State) (i : Nat) (w : W32) :
    (State.msixReg s i w).kp = s.kp := by
  unfold State.msixReg
  rfl

@[simp] theorem State.hifWrite_kp (s : State) (o mask : Nat) (w : W32) :
    (State.hifWrite s o mask w).1.kp = s.kp := by
  unfold State.hifWrite
  simp

@[simp] theorem State.logCfg_kp (s : State) (w : W32) :
    (State.logCfg s w).1.kp = s.kp := by
  unfold State.logCfg
  simp

@[simp] theorem State.hlogBaseReg_kp (s : State) (hi : Bool) (w : W32) :
    (State.hlogBaseReg s hi w).1.kp = s.kp := by
  unfold State.hlogBaseReg
  simp

@[simp] theorem State.hlogCfg_kp (s : State) (w : W32) :
    (State.hlogCfg s w).1.kp = s.kp := by
  unfold State.hlogCfg
  simp

@[simp] theorem State.plimitReg_kp (s : State) (w : W32) :
    (State.plimitReg s w).1.kp = s.kp := by
  unfold State.plimitReg
  simp

@[simp] theorem State.hrtWrite_kp (s : State) (o mask : Nat) (pre : Bool) (w : W32) :
    (State.hrtWrite s o mask pre w).1.kp = s.kp := by
  unfold State.hrtWrite
  simp

@[simp] theorem State.rtStat_kp (s : State) (w : W32) :
    (State.rtStat s w).1.kp = s.kp := by
  unfold State.rtStat
  simp

@[simp] theorem State.lowaterReg_kp (s : State) (t : Nat) (w : W32) :
    (State.lowaterReg s t w).1.kp = s.kp := by
  unfold State.lowaterReg
  simp

@[simp] theorem State.memWrite_kp (s : State) (o mask : Nat) (w : W32) :
    (State.memWrite s o mask w).1.kp = s.kp := by
  unfold State.memWrite
  simp

@[simp] theorem State.bankWrite_kp (s : State) (b : Bool) (a : Nat) (w : W32) :
    (State.bankWrite s b a w).1.kp = s.kp := by
  unfold State.bankWrite
  simp

@[simp] theorem State.schStart_kp (s : State) (hi : Bool) (w : W32) :
    (State.schStart s hi w).1.kp = s.kp := by
  unfold State.schStart
  simp

@[simp] theorem State.schWrite_kp (s : State) (o mask : Nat) (w : W32) :
    (State.schWrite s o mask w).1.kp = s.kp := by
  unfold State.schWrite
  simp

@[simp] theorem State.remapReg_kp (s : State) (w : W32) :
    (State.remapReg s w).1.kp = s.kp := by
  unfold State.remapReg
  simp

@[simp] theorem State.loadRange_kp (s : State) (o : Nat) (w : W32) :
    (State.loadRange s o w).1.kp = s.kp := by
  unfold State.loadRange
  simp

@[simp] theorem State.fltTmo_kp (s : State) (w : W32) :
    (State.fltTmo s w).1.kp = s.kp := by
  unfold State.fltTmo
  simp

@[simp] theorem State.fltHang_kp (s : State) (w : W32) :
    (State.fltHang s w).1.kp = s.kp := by
  unfold State.fltHang
  simp

@[simp] theorem State.tileCfg_kp (s : State) (p : Nat) (w : W32) :
    (State.tileCfg s p w).1.kp = s.kp := by
  unfold State.tileCfg
  simp

@[simp] theorem State.tileTol_kp (s : State) (p : Nat) (w : W32) :
    (State.tileTol s p w).1.kp = s.kp := by
  unfold State.tileTol
  simp

@[simp] theorem State.tileWrite_kp (s : State) (p r mask : Nat) (w : W32) :
    (State.tileWrite s p r mask w).1.kp = s.kp := by
  unfold State.tileWrite
  simp

@[simp] theorem State.queueWrite_kp (s : State) (q r mask : Nat) (w : W32) :
    (State.queueWrite s q r mask w).1.kp = s.kp := by
  unfold State.queueWrite
  simp

end Sys2Proof.Machine
end

