-- ==== Sys2Proof/Laws/KeepHifCmds.lean ====
section
/-! SUPPORT. What the operations of Machine/HifCmds.lean leave alone. -/
namespace Sys2Proof.Machine

@[simp] theorem State.recordCfg_kp (s : State) (st : Status) :
    (State.recordCfg s st).kp = s.kp := by
  unfold State.recordCfg
  simp

@[simp] theorem State.resize_kp (s : State) (log2 : Nat) :
    (State.resize s log2).kp = s.kp := by
  unfold State.resize
  simp

@[simp] theorem State.cfgSet_kp (s : State) (off : Nat) (v : W32) :
    (State.cfgSet s off v).kp = s.kp := by
  unfold State.cfgSet
  simp

@[simp] theorem State.t3Drop_kp (s : State) (tag : Nat) :
    (State.t3Drop s tag).kp = s.kp := by
  unfold State.t3Drop
  rfl

@[simp] theorem State.takeServed_kp (s : State) (tag : Nat) :
    (State.takeServed s tag).1.kp = s.kp := by
  unfold State.takeServed
  repeat' (first | rfl | (simp; done) | split | dsimp only | intro _)

@[simp] theorem State.t3Result_kp (s : State) (tag : Nat) (x : T3Read) (st : Status) (bs : List Byte) :
    (State.t3Result s tag x st bs).kp = s.kp := by
  unfold State.t3Result
  repeat' (first | rfl | (simp; done) | split | dsimp only | intro _ | (have h1 := congrArg Prod.fst (‹_ = (_, _)›); dsimp only at h1; subst h1) | apply State.kp_foldl | apply State.kp_foldl_fst | apply State.kp_elim | apply State.issue_kp | apply State.takeEntry_kp | apply State.descRow_kp | apply State.regWrite_kp | apply State.hostWrite_kp | apply State.qRow_kp | apply State.compute_kp | apply State.packetRow_kp | apply State.collPkt_kp)

@[simp] theorem State.ctrlReply_kp (s : State) (k : Packet) (st : Status) (data : List W32) :
    (State.ctrlReply s k st data).kp = s.kp := by
  unfold State.ctrlReply
  simp

end Sys2Proof.Machine
end

