-- ==== Sys2Proof/Laws/KeepMemCmds.lean ====
section
/-! SUPPORT. What the operations of Machine/MemCmds.lean leave alone. -/
namespace Sys2Proof.Machine

@[simp] theorem State.scrubHit_kp (s : State) (h : ScrubHit) : (State.scrubHit s h).kp = s.kp := by
  unfold State.scrubHit
  split
  · rfl
  · refine (State.kp_foldl _ ?_ _ _).trans (State.kp_foldl _ (fun _ _ => by simp) _ _)
    intro u w
    dsimp only
    split
    · split
      · rfl
      · simp
    · simp

end Sys2Proof.Machine
end

