-- ==== Sys2Proof/Laws/KeepAnvilCmds.lean ====
section
/-! SUPPORT. What the operations of Machine/AnvilCmds.lean leave alone. -/
namespace Sys2Proof.Machine

end Sys2Proof.Machine
end

