-- ==== Sys2Proof/Laws/KeepControlCmds.lean ====
section
/-! SUPPORT. What the operations of Machine/ControlCmds.lean leave alone. -/
namespace Sys2Proof.Machine

@[simp] theorem State.partDone_kp (s : State) (l id : Nat) :
    (State.partDone s l id).kp = s.kp := by
  unfold State.partDone
  rfl

end Sys2Proof.Machine
end

