-- ==== Sys2Proof/Laws/KeepVectorCmds.lean ====
section
/-! SUPPORT. What the operations of Machine/VectorCmds.lean leave alone. -/
namespace Sys2Proof.Machine

@[simp] theorem State.vecHand_kp (s : State) (l : Nat) (t : Tile) (len : Nat) (r : Except Status VecOp) :
    (State.vecHand s l t len r).kp = s.kp := by
  unfold State.vecHand
  repeat' (first | rfl | (simp; done) | split | dsimp only | intro _)

end Sys2Proof.Machine
end

