-- ==== Sys2Proof/Laws/KeepIdle.lean ====
section
/-! SUPPORT. What the operations of Machine/Idle.lean leave alone. -/
namespace Sys2Proof.Machine

@[simp] theorem State.countUs_kp (s : State) :
    (State.countUs s).kp = s.kp := by
  unfold State.countUs
  rfl

@[simp] theorem State.openWaiting_kp (s : State) :
    (State.openWaiting s).kp = s.kp := by
  unfold State.openWaiting
  simp

@[simp] theorem State.idle_kp (s : State) :
    (State.idle s).kp = s.kp := by
  unfold State.idle
  simp

end Sys2Proof.Machine
end

