-- ==== Sys2Proof/Laws/Confined.lean ====
section
/-! SUPPORT. The operations that do change the Gauntlet: each keeps the queue of commands, and leaves the secrets of a
tenancy confined where they were. -/
namespace Sys2Proof.Machine

/-- From `s` to `u` the waiting commands stay, and confined secrets stay confined. -/
def State.Keeps (s u : State) : Prop := u.pending = s.pending ∧ (s.secretsConfined = true → u.secretsConfined = true)

theorem Sec.confined_core {x y : Sec} (h : y.core = x.core) : y.confined = x.confined := by
  simp only [Sec.core, Prod.mk.injEq] at h
  obtain ⟨h1, h2, h3, h4, h5, h6, h7, h8⟩ := h
  have h9 : y.tfabPrev.isNone = x.tfabPrev.isNone := by
    have := congrArg Option.isNone h6
    simpa using this
  simp [Sec.confined, h1, h2, h3, h4, h5, h7, h8, h9]

theorem State.Keeps.refl (s : State) : s.Keeps s := ⟨rfl, id⟩

theorem State.Keeps.trans {s t u : State} (h : s.Keeps t) (g : t.Keeps u) : s.Keeps u :=
  ⟨g.1.trans h.1, fun x => g.2 (h.2 x)⟩

/-- What leaves the Gauntlet's secrets and the queue alone keeps them. -/
theorem State.keeps_of_kp {s u : State} (h : u.kp = s.kp) : s.Keeps u :=
  ⟨State.kp_pending h, fun x => (Sec.confined_core (State.kp_sec h)).trans x⟩

theorem State.Keeps.kp {s t u : State} (h : s.Keeps t) (g : u.kp = t.kp) : s.Keeps u := h.trans (State.keeps_of_kp g)

/-- A change of the Gauntlet alone. -/
theorem State.keeps_sec {s u : State} (hp : u.pending = s.pending) (h : s.sec.confined = true → u.sec.confined = true) :
    s.Keeps u := ⟨hp, h⟩

theorem State.keeps_foldl {α : Type} (f : State → α → State) (h : ∀ (s : State) (a : α), s.Keeps (f s a)) (l : List α) (s : State) :
    s.Keeps (l.foldl f s) := by
  induction l generalizing s with
  | nil => exact State.Keeps.refl s
  | cons a l ih => exact (h s a).trans (ih _)

theorem State.keeps_foldl_fst {α β : Type} (f : State × β → α → State × β) (h : ∀ (r : State × β) (a : α), r.1.Keeps (f r a).1) (l : List α)
    (r : State × β) : r.1.Keeps (l.foldl f r).1 := by
  induction l generalizing r with
  | nil => exact State.Keeps.refl r.1
  | cons a l ih => exact (h r a).trans (ih _)

/-! Resets and power -/

theorem Sec.exitOver_confined (x : Sec) (h : x.confined = true) : x.exitOver.confined = true := by
  unfold Sec.exitOver
  split
  · next e =>
    simp only [Sec.confined, e, Bool.and_eq_true, Bool.or_eq_true, decide_eq_true_eq] at h ⊢
    obtain ⟨h1, h2⟩ := h
    simp at h2
    simp [h2] at h1
    simp [h1]
  · exact h

theorem State.warmEnd_keeps (s : State) : s.Keeps s.warmEnd := by
  unfold State.warmEnd
  split
  · exact State.Keeps.refl s
  · split
    · exact State.Keeps.refl s
    · next src _ _ =>
      extract_lets p a b c
      have ha : a.kp = s.kp := rfl
      clear_value a
      have hb : b.kp = s.kp := (State.resetRecord_kp _ _ _ _).trans ha
      clear_value b
      have hc : b.Keeps c := State.keeps_sec rfl (Sec.exitOver_confined _)
      clear_value c
      exact ((State.keeps_of_kp hb).trans hc).kp (State.dieBack_kp _)

theorem State.domainDown_keeps (s : State) (src : Nat) : s.Keeps (s.domainDown src) := by
  unfold State.domainDown
  split
  · exact State.Keeps.refl s
  · dsimp only
    have h : ((((s.abandonTests false).scrubStop).computeLost).retiringOut).kp = s.kp := by simp
    generalize (((s.abandonTests false).scrubStop).computeLost).retiringOut = u at h ⊢
    refine (State.keeps_of_kp h).trans (State.keeps_sec rfl fun x => ?_)
    exact (Sec.confined_core (x := u.sec.exitOver) rfl).trans (Sec.exitOver_confined _ x)

theorem State.standbyGo_keeps (s : State) (src : Nat) : s.Keeps (s.standbyGo src) := by
  unfold State.standbyGo
  split
  · have h : (s.fenceSelf.loadAbandon).kp = s.kp := by simp
    exact (State.keeps_of_kp h).trans (State.domainDown_keeps _ _)
  · exact State.Keeps.refl s

theorem State.standbyRequest_keeps (s : State) (src : Nat) : s.Keeps (s.standbyRequest src) := by
  unfold State.standbyRequest
  exact (State.keeps_of_kp (s := s) rfl).trans (State.standbyGo_keeps _ _)

theorem State.standbyReg_keeps (s : State) (w : W32) : s.Keeps (s.standbyReg w).1 := by
  unfold State.standbyReg
  split
  · exact State.Keeps.refl s
  · split
    · exact State.standbyRequest_keeps s 1
    · exact State.Keeps.refl s

/-! Register writes -/

theorem State.keeps_ite {s : State} {c : Prop} [Decidable c] {a b : RegRes} (ha : s.Keeps a.1) (hb : s.Keeps b.1) :
    s.Keeps (if c then a else b).1 := by split <;> assumption

theorem State.devWrite_keeps (s : State) (o mask : Nat) (w : W32) : s.Keeps (s.devWrite o mask w).1 := by
  unfold State.devWrite
  iterate 5 refine State.keeps_ite (State.keeps_of_kp (by simp)) ?_
  refine State.keeps_ite (State.standbyReg_keeps s w) ?_
  iterate 10 refine State.keeps_ite (State.keeps_of_kp (by simp)) ?_
  exact State.Keeps.refl s

theorem State.regSet_keeps (s : State) (bar o mask : Nat) (pre : Bool) (w : W32) : s.Keeps (s.regSet bar o mask pre w).1 := by
  unfold State.regSet
  iterate 7 refine State.keeps_ite (State.keeps_of_kp (by simp)) ?_
  exact State.keeps_ite (State.devWrite_keeps s _ _ w) (State.keeps_of_kp (by simp))

theorem State.recordRes_keeps {s : State} {bar off : Nat} {r : RegRes} (h : s.Keeps r.1) : s.Keeps (State.recordRes bar off r) :=
  h.kp (State.recordRes_kp _ _ _)

theorem State.regWrite_keeps (s : State) (bar off : Nat) (item : RegItem) (f : State → RegRes) (h : s.Keeps (f s).1) :
    s.Keeps (s.regWrite bar off item f) := by
  unfold State.regWrite
  split
  · exact State.keeps_of_kp (State.record_kp _ _ _ _ _)
  · split
    · exact State.keeps_of_kp (State.record_kp _ _ _ _ _)
    · exact State.recordRes_keeps h

theorem State.hostWrite_keeps (s : State) (bar off : Nat) (item : RegItem) (tee : Bool) (f : State → RegRes)
    (h : s.Keeps (f s).1) : s.Keeps (s.hostWrite bar off item tee f) := by
  unfold State.hostWrite
  split
  · exact State.Keeps.refl s
  · exact State.regWrite_keeps s bar off item f h

theorem State.write4_keeps (s : State) (bar o : Nat) (pre : Bool) (w : W32) : s.Keeps (s.write4 bar o pre w) := by
  unfold State.write4
  split
  · exact State.keeps_of_kp (State.record_kp _ _ _ _ _)
  · exact State.regWrite_keeps s bar o _ _ (State.regSet_keeps _ _ _ _ _ _)

theorem State.regAccess_keeps (s : State) (a : HostAcc) : s.Keeps (s.regAccess a) := by
  unfold State.regAccess
  extract_lets bar lo
  split
  · exact State.Keeps.refl s
  · split
    · exact State.write4_keeps _ _ _ _ _
    · split
      · exact (State.write4_keeps _ _ _ _ _).trans (State.write4_keeps _ _ _ _ _)
      · exact State.keeps_of_kp (State.record_kp _ _ _ _ _)

theorem State.ctrlWords_keeps (s : State) (k : Packet) (os : List Nat) : s.Keeps (s.ctrlWords k os).1 := by
  unfold State.ctrlWords
  refine State.keeps_foldl_fst _ (fun r a => ?_) _ (s, none)
  have h : r.1.draw.2.kp = r.1.kp := State.draw_kp r.1
  generalize r.1.draw = d at h ⊢
  obtain ⟨f, u⟩ := d
  exact (State.keeps_of_kp h).trans (State.regSet_keeps _ _ _ _ _ _)

theorem State.packetRow_keeps (s : State) (p : Nat) (k : Packet) (cls : Nat) (ops : Nat → Bool) (f : State → Packet → State)
    (h : ∀ (u : State) (x : Packet), u.Keeps (f u x)) : s.Keeps (s.packetRow p k cls ops f) := by
  unfold State.packetRow
  split
  · exact State.Keeps.refl s
  · have hu : (s.takePkt p k).kp = s.kp := State.takePkt_kp _ _ _
    generalize s.takePkt p k = u at hu ⊢
    refine (State.keeps_of_kp hu).trans ?_
    dsimp only
    repeat' (first | exact h u _ | (refine State.keeps_of_kp ?_; first | rfl | (simp; done)) | split)

/-! The Gauntlet's commands -/

theorem State.gauntlet_keeps (s : State) (cmd : Nat) (r : GReq) (len : Nat) (rsvdBody : Bool) (role : GRole) (states : List SecSt)
    (f : State → State × Status) (h : states.contains s.sec.st = true → s.sec.st ≠ .handover → s.Keeps (f s).1) :
    s.Keeps (s.gauntlet cmd r len rsvdBody role states f) := by
  unfold State.gauntlet
  dsimp only
  split
  · exact State.Keeps.refl s
  · split
    · exact State.keeps_of_kp (State.gAnswer_kp _ _ _ _)
    iterate 4 (split; · exact State.keeps_of_kp (State.gAnswer_kp _ _ _ _))
    split
    · exact State.keeps_of_kp (State.gAnswer_kp _ _ _ _)
    · next h1 =>
      split
      · exact State.keeps_of_kp (State.gAnswer_kp _ _ _ _)
      · next h2 => exact (h (by simpa using h2) h1).kp (State.gAnswer_kp _ _ _ _)

theorem State.exitMaint_keeps (s : State) (h : s.sec.st = .maintenance) : s.Keeps s.exitMaint := by
  unfold State.exitMaint
  have h0 : s.Keeps { s with sec := { s.sec with debugOpen := false, challenge := 0 } } := State.keeps_of_kp rfl
  refine h0.trans ?_
  have hu : ({ s with sec := { s.sec with debugOpen := false, challenge := 0 } } : State).sec.st = .maintenance := h
  generalize ({ s with sec := { s.sec with debugOpen := false, challenge := 0 } } : State) = u at hu ⊢
  have h1 : u.Keeps { u with sec := { u.sec with exiting := true } } := State.keeps_sec rfl fun x => by
    simp only [Sec.confined, hu] at x ⊢
    simpa using x
  dsimp only
  split
  · exact h1.kp (State.warmReset_kp _ _)
  · split
    · exact h1
    · refine State.keeps_sec rfl fun x => ?_
      simp only [Sec.confined, hu] at x ⊢
      simp at x
      simp [x]

theorem State.handoverStart_keeps (s : State) (cause : Nat) (h : s.sec.st = .tenanted) : s.Keeps (s.handoverStart cause) := by
  unfold State.handoverStart
  dsimp only
  have h1 : (((s.loadAbandon.abandonTests true).scrubStop).lockDrop fun l => l.act = actKey).kp = s.kp := by simp
  generalize (((s.loadAbandon.abandonTests true).scrubStop).lockDrop fun l => l.act = actKey) = u at h1 ⊢
  have hst : u.sec.st = .tenanted := (congrArg (fun z => z.1.1) h1).trans h
  refine (State.keeps_of_kp h1).trans ?_
  have h2 : u.Keeps { u with sec := { u.sec with st := .handover, tdi := .unlocked, hand := some (cause, u.now) } } :=
    State.keeps_sec rfl fun x => by
      simp only [Sec.confined, hst] at x ⊢
      simpa using x
  refine h2.trans (State.keeps_of_kp ?_)
  rw [State.memCleared_kp, State.endProgram_kp]
  exact State.kp_foldl _ (fun s d => State.wakeDeep_kp s d) _ _

theorem Sec.dropGlove_confined (x : Sec) (h : x.exiting = false) : x.dropGlove.confined = true := by
  simp [Sec.confined, Sec.dropGlove, h]

theorem State.handoverEnd_keeps (s : State) (failed : List (Nat × List (Nat × Nat))) : s.Keeps (s.handoverEnd failed) := by
  unfold State.handoverEnd
  split
  · next cause start hst _ =>
    split
    · exact State.Keeps.refl s
    · dsimp only
      have hd : (if failed.isEmpty then (0#64, s) else s.draw).2.kp = s.kp := by split <;> simp
      generalize (if failed.isEmpty then (0#64, s) else s.draw) = d at hd ⊢
      obtain ⟨c, u⟩ := d
      dsimp only at hd ⊢
      refine State.Keeps.trans (t := _) ?_ (State.keeps_of_kp (State.ev_kp _ _ _ _ _ _))
      refine State.keeps_sec (State.kp_pending (u := u) (s := s) hd) fun x => ?_
      have he : s.sec.exiting = false := by
        simp only [Sec.confined, hst] at x
        simpa using x
      simp [Sec.confined, Sec.dropGlove, he]
  · exact State.Keeps.refl s

end Sys2Proof.Machine
end

