-- ==== Sys2Proof/Laws/Maps.lean ====
section
/-! SUPPORT. The sparse maps: reading after writing, and the canonical form that every operation keeps. -/
namespace Sys2Proof

variable {α : Type}

/-! Reading after writing -/

@[simp] theorem SMap.get?_nil (k : Nat) : SMap.get? ([] : SMap α) k = none := rfl

theorem SMap.get?_cons (p : Nat × α) (m : SMap α) (k : Nat) :
    SMap.get? (p :: m) k = if p.1 = k then some p.2 else SMap.get? m k := rfl

@[simp] theorem SMap.get?_set_self (m : SMap α) (k : Nat) (v : α) : SMap.get? (SMap.set m k v) k = some v := by
  induction m with
  | nil => simp [SMap.set, SMap.get?]
  | cons p m ih =>
    obtain ⟨j, w⟩ := p
    rw [SMap.set]
    split
    · simp [SMap.get?]
    · split
      · simp [SMap.get?]
      · rw [SMap.get?_cons, ih]; simp only [ite_eq_right_iff]; omega

theorem SMap.get?_set_ne (m : SMap α) {k q : Nat} (v : α) (h : q ≠ k) : SMap.get? (SMap.set m k v) q = SMap.get? m q := by
  induction m with
  | nil => simp [SMap.set, SMap.get?, Ne.symm h]
  | cons p m ih =>
    obtain ⟨j, w⟩ := p
    rw [SMap.set]
    split
    · rw [SMap.get?_cons, if_neg (Ne.symm h)]
    · split
      · next he => subst he; simp [SMap.get?_cons, Ne.symm h]
      · rw [SMap.get?_cons, SMap.get?_cons, ih]

@[simp] theorem SMap.get?_erase_self (m : SMap α) (k : Nat) : SMap.get? (SMap.erase m k) k = none := by
  induction m with
  | nil => rfl
  | cons p m ih =>
    unfold SMap.erase at *
    rw [List.filter_cons]
    split
    · next h => rw [SMap.get?_cons, ih]; simpa using h
    · exact ih

theorem SMap.get?_erase_ne (m : SMap α) {k q : Nat} (h : q ≠ k) : SMap.get? (SMap.erase m k) q = SMap.get? m q := by
  induction m with
  | nil => rfl
  | cons p m ih =>
    unfold SMap.erase at *
    rw [List.filter_cons]
    split
    · rw [SMap.get?_cons, SMap.get?_cons, ih]
    · next hk =>
      have : p.1 = k := by simpa using hk
      rw [ih, SMap.get?_cons, if_neg (by omega)]

@[simp] theorem SMap.getD_setD_self [DecidableEq α] (m : SMap α) (k : Nat) (v d : α) : SMap.getD (SMap.setD m k v d) k d = v := by
  unfold SMap.setD SMap.getD
  split
  · next h => simp [h]
  · simp

theorem SMap.getD_setD_ne [DecidableEq α] (m : SMap α) {k q : Nat} (v d : α) (h : q ≠ k) :
    SMap.getD (SMap.setD m k v d) q d = SMap.getD m q d := by
  unfold SMap.setD SMap.getD
  split
  · rw [SMap.get?_erase_ne m h]
  · rw [SMap.get?_set_ne m v h]

theorem SMap.get?_adj (m : SMap α) (k q : Nat) (f : α → α) :
    SMap.get? (SMap.adj m k f) q = if q = k then (SMap.get? m q).map f else SMap.get? m q := by
  induction m with
  | nil => simp [SMap.adj]
  | cons p m ih =>
    unfold SMap.adj at *
    rw [List.map_cons, SMap.get?_cons, ih, SMap.get?_cons]
    split <;> split <;> simp_all <;> grind

/-! The canonical form -/

/-- Every key of the map is above `k`. -/
def SMap.above (k : Nat) (m : SMap α) : Prop := ∀ p ∈ m, k < p.1

theorem SMap.wf_cons (p : Nat × α) (m : SMap α) : SMap.wf (p :: m) = true ↔ SMap.above p.1 m ∧ SMap.wf m = true := by
  induction m generalizing p with
  | nil => simp [SMap.wf, SMap.above]
  | cons q m ih =>
    rw [SMap.wf, Bool.and_eq_true, decide_eq_true_iff]
    constructor
    · rintro ⟨h, hw⟩
      refine ⟨fun x hx => ?_, hw⟩
      rcases List.mem_cons.1 hx with rfl | hx
      · exact h
      · exact Nat.lt_trans h (((ih q).1 hw).1 x hx)
    · rintro ⟨h, hw⟩
      exact ⟨h q (List.mem_cons_self ..), hw⟩

theorem SMap.mem_set {m : SMap α} {k : Nat} {v : α} {p : Nat × α} (h : p ∈ SMap.set m k v) : p = (k, v) ∨ p ∈ m := by
  induction m with
  | nil => exact .inl (List.mem_singleton.1 h)
  | cons q m ih =>
    obtain ⟨j, w⟩ := q
    rw [SMap.set] at h
    split at h
    · simpa using h
    · split at h
      · rcases List.mem_cons.1 h with h | h
        · exact .inl h
        · exact .inr (List.mem_cons_of_mem _ h)
      · rcases List.mem_cons.1 h with h | h
        · exact .inr (h ▸ List.mem_cons_self ..)
        · exact (ih h).imp_right (List.mem_cons_of_mem _)

theorem SMap.set_wf {m : SMap α} (h : SMap.wf m = true) (k : Nat) (v : α) : SMap.wf (SMap.set m k v) = true := by
  induction m with
  | nil => rfl
  | cons p m ih =>
    obtain ⟨j, w⟩ := p
    have hc := (SMap.wf_cons _ m).1 h
    rw [SMap.set]
    split
    · next hk =>
      refine (SMap.wf_cons _ _).2 ⟨fun x hx => ?_, h⟩
      rcases List.mem_cons.1 hx with rfl | hx
      · exact hk
      · exact Nat.lt_trans hk (hc.1 x hx)
    · split
      · next hk => subst hk; exact (SMap.wf_cons _ _).2 hc
      · refine (SMap.wf_cons _ _).2 ⟨fun x hx => ?_, ih hc.2⟩
        rcases SMap.mem_set hx with rfl | hx
        · show j < k; omega
        · exact hc.1 x hx

theorem SMap.filter_wf {m : SMap α} (h : SMap.wf m = true) (f : Nat × α → Bool) : SMap.wf (m.filter f) = true := by
  induction m with
  | nil => rfl
  | cons p m ih =>
    have hc := (SMap.wf_cons p m).1 h
    rw [List.filter_cons]
    split
    · exact (SMap.wf_cons _ _).2 ⟨fun x hx => hc.1 x (List.mem_filter.1 hx).1, ih hc.2⟩
    · exact ih hc.2

theorem SMap.erase_wf {m : SMap α} (h : SMap.wf m = true) (k : Nat) : SMap.wf (SMap.erase m k) = true := SMap.filter_wf h _

theorem SMap.keep_wf {m : SMap α} (h : SMap.wf m = true) (f : Nat → α → Bool) : SMap.wf (SMap.keep m f) = true := SMap.filter_wf h _

theorem SMap.setD_wf [DecidableEq α] {m : SMap α} (h : SMap.wf m = true) (k : Nat) (v d : α) : SMap.wf (SMap.setD m k v d) = true := by
  unfold SMap.setD
  split
  · exact SMap.erase_wf h k
  · exact SMap.set_wf h k v

theorem SMap.map_wf {β : Type} {m : SMap α} (h : SMap.wf m = true) (f : Nat × α → Nat × β) (hf : ∀ p, (f p).1 = p.1) :
    SMap.wf (m.map f) = true := by
  induction m with
  | nil => rfl
  | cons p m ih =>
    have hc := (SMap.wf_cons p m).1 h
    rw [List.map_cons]
    refine (SMap.wf_cons _ _).2 ⟨fun x hx => ?_, ih hc.2⟩
    obtain ⟨y, hy, rfl⟩ := List.mem_map.1 hx
    rw [hf, hf]; exact hc.1 y hy

theorem SMap.adj_wf {m : SMap α} (h : SMap.wf m = true) (k : Nat) (f : α → α) : SMap.wf (SMap.adj m k f) = true :=
  SMap.map_wf h _ fun p => by split <;> rfl

theorem SMap.mapV_wf {m : SMap α} (h : SMap.wf m = true) (f : Nat → α → α) : SMap.wf (SMap.mapV m f) = true :=
  SMap.map_wf h _ fun _ => rfl

/-! Byte storage -/

@[simp] theorem Mem.rd_wr_self (m : Mem) (a : Nat) (b : Byte) : Mem.rd (Mem.wr m a b) a = b := SMap.getD_setD_self m a b 0#8

theorem Mem.rd_wr_ne (m : Mem) {a q : Nat} (b : Byte) (h : q ≠ a) : Mem.rd (Mem.wr m a b) q = Mem.rd m q :=
  SMap.getD_setD_ne m b 0#8 h

theorem Mem.wr_wf {m : Mem} (h : Mem.wf m = true) (a : Nat) (b : Byte) : Mem.wf (Mem.wr m a b) = true := by
  simp only [Mem.wf, Bool.and_eq_true, List.all_eq_true, bne_iff_ne] at h ⊢
  refine ⟨SMap.setD_wf h.1 a b 0#8, fun p hp => ?_⟩
  unfold Mem.wr SMap.setD at hp
  split at hp
  · exact h.2 p (List.mem_filter.1 hp).1
  · next hb =>
    rcases SMap.mem_set hp with rfl | hp
    · exact hb
    · exact h.2 p hp

theorem Mem.wrN_wf {m : Mem} (h : Mem.wf m = true) (a : Nat) (bs : List Byte) : Mem.wf (Mem.wrN m a bs) = true := by
  induction bs generalizing m a with
  | nil => exact h
  | cons b bs ih => exact ih (Mem.wr_wf h a b) (a + 1)

/-- Bytes outside the range written read as before. -/
theorem Mem.rd_wrN_out (m : Mem) (a : Nat) (bs : List Byte) (q : Nat) (h : q < a ∨ a + bs.length ≤ q) :
    Mem.rd (Mem.wrN m a bs) q = Mem.rd m q := by
  induction bs generalizing m a with
  | nil => rfl
  | cons b bs ih =>
    rw [List.length_cons] at h
    rw [Mem.wrN, ih _ _ (by omega), Mem.rd_wr_ne _ _ (by omega)]

/-- A byte of the range written reads as written. -/
theorem Mem.rd_wrN_in (m : Mem) (a : Nat) (bs : List Byte) (i : Nat) (h : i < bs.length) :
    Mem.rd (Mem.wrN m a bs) (a + i) = bs.getD i 0#8 := by
  induction bs generalizing m a i with
  | nil => simp at h
  | cons b bs ih =>
    rw [Mem.wrN]
    cases i with
    | zero => rw [Mem.rd_wrN_out _ _ _ _ (by omega)]; simp
    | succ i =>
      have := ih (Mem.wr m a b) (a + 1) i (by simpa using h)
      rw [show a + (i + 1) = a + 1 + i by omega, this]; simp

end Sys2Proof
end

