-- ==== Sys2Proof/Laws/Seal.lean ====
section
/-! SUPPORT. Sealing and opening of packets: a packet that was sealed under a key of 32 bytes opens under it. -/
namespace Sys2Proof

/-! Bytes and blocks -/

/-- Sixteen byte values. -/
def IsBlock (l : List Nat) : Prop := l.length = 16 ∧ ∀ x ∈ l, x < 256

theorem xor_byte {a b : Nat} (ha : a < 256) (hb : b < 256) : a.xor b < 256 := Nat.xor_lt_two_pow (n := 8) ha hb

theorem xorB_length (a b : List Nat) : (xorB a b).length = min a.length b.length := List.length_zipWith

theorem xorB_bytes {a b : List Nat} (ha : ∀ x ∈ a, x < 256) (hb : ∀ x ∈ b, x < 256) : ∀ x ∈ xorB a b, x < 256 := by
  induction a generalizing b with
  | nil => intro x h; simp [xorB] at h
  | cons y a ih =>
    cases b with
    | nil => intro x h; simp [xorB] at h
    | cons z b =>
      intro x h
      simp only [xorB, List.zipWith_cons_cons, List.mem_cons] at h
      rcases h with rfl | h
      · exact xor_byte (ha y List.mem_cons_self) (hb z List.mem_cons_self)
      · exact ih (fun x h => ha x (List.mem_cons_of_mem _ h)) (fun x h => hb x (List.mem_cons_of_mem _ h)) x h

/-- A key stream added twice leaves the text. -/
theorem xorB_cancel {a b : List Nat} (h : a.length ≤ b.length) : xorB (xorB a b) b = a := by
  induction a generalizing b with
  | nil => rfl
  | cons y a ih =>
    cases b with
    | nil => simp at h
    | cons z b =>
      have e : (y.xor z).xor z = y := by
        show (y ^^^ z) ^^^ z = y
        rw [Nat.xor_assoc, Nat.xor_self, Nat.xor_zero]
      show (y.xor z).xor z :: xorB (xorB a b) b = y :: a
      rw [e, ih (by simpa using h)]

theorem aesS_byte (x : Nat) : aesS x < 256 := Nat.mod_lt _ (by decide)

theorem IsBlock.xorB {a b : List Nat} (ha : IsBlock a) (hb : IsBlock b) : IsBlock (xorB a b) :=
  ⟨by rw [xorB_length, ha.1, hb.1]; rfl, xorB_bytes ha.2 hb.2⟩

theorem aesSub_block (st : List Nat) : IsBlock (aesSub st) := by
  refine ⟨by simp [aesSub], fun x h => ?_⟩
  simp only [aesSub, List.mem_map] at h
  obtain ⟨i, -, rfl⟩ := h
  exact aesS_byte _

theorem aesRounds_block {ks : List (List Nat)} (h : ∀ k ∈ ks, IsBlock k) (hn : ks ≠ []) (st : List Nat) :
    IsBlock (aesRounds ks st) := by
  induction ks generalizing st with
  | nil => exact absurd rfl hn
  | cons k ks ih =>
    cases ks with
    | nil => exact (aesSub_block st).xorB (h k List.mem_cons_self)
    | cons k2 ks => exact ih (fun x hx => h x (List.mem_cons_of_mem _ hx)) (by simp) _

/-- Thirty-two byte values. -/
def IsKey (l : List Nat) : Prop := l.length = 32 ∧ ∀ x ∈ l, x < 256

theorem aesX_byte {b : Nat} (h : b < 256) : aesX b < 256 := by
  have : ∀ b : Fin 256, aesX b.val < 256 := by decide +kernel
  exact this ⟨b, h⟩

theorem word_bytes {k : List Nat} (h : ∀ x ∈ k, x < 256) (i : Nat) : ∀ x ∈ (k.drop i).take 4, x < 256 :=
  fun x hx => h x (List.mem_of_mem_drop (List.mem_of_mem_take hx))

theorem map_aesS_bytes (l : List Nat) : ∀ x ∈ l.map aesS, x < 256 := by
  intro x h
  obtain ⟨y, -, rfl⟩ := List.mem_map.1 h
  exact aesS_byte y

theorem aesExpand_key {rc : Nat} {k : List Nat} (hr : rc < 256) (h : IsKey k) : IsKey (aesExpand rc k) := by
  obtain ⟨hl, hb⟩ := h
  have hw : ∀ i, i < 8 → ((k.drop (4 * i)).take 4).length = 4 := fun i hi => by simp [hl]; omega
  have hwb : ∀ i, ∀ x ∈ (k.drop (4 * i)).take 4, x < 256 := fun i => word_bytes hb _
  unfold aesExpand
  extract_lets w t w0 w1 w2 w3 w4 w5 w6
  have ht : t.length = 4 ∧ ∀ x ∈ t, x < 256 := by
    have h7 : ((w 7).map aesS).length = 4 := by rw [List.length_map]; exact hw 7 (by decide)
    have h8 := map_aesS_bytes (w 7)
    unfold t
    generalize (w 7).map aesS = u at h7 h8 ⊢
    match u, h7 with
    | [a, b, c, d], _ =>
      simp only [List.mem_cons, List.not_mem_nil, or_false, forall_eq_or_imp, forall_eq] at h8
      refine ⟨rfl, ?_⟩
      simp only [List.mem_cons, List.not_mem_nil, or_false, forall_eq_or_imp, forall_eq]
      exact ⟨xor_byte h8.2.1 hr, h8.2.2.1, h8.2.2.2, h8.1⟩
  have step : ∀ i (a : List Nat), i < 8 → (a.length = 4 ∧ ∀ x ∈ a, x < 256) →
      (xorB (w i) a).length = 4 ∧ ∀ x ∈ xorB (w i) a, x < 256 := fun i a hi ha =>
    ⟨by rw [xorB_length, ha.1]; show min (w i).length 4 = 4; rw [show (w i).length = 4 from hw i hi]; rfl, xorB_bytes (hwb i) ha.2⟩
  have h0 := step 0 t (by decide) ht
  have h1 := step 1 w0 (by decide) h0
  have h2 := step 2 w1 (by decide) h1
  have h3 := step 3 w2 (by decide) h2
  have h4 := step 4 (w3.map aesS) (by decide) ⟨by rw [List.length_map]; exact h3.1, map_aesS_bytes w3⟩
  have h5 := step 5 w4 (by decide) h4
  have h6 := step 6 w5 (by decide) h5
  have h7 := step 7 w6 (by decide) h6
  refine ⟨?_, ?_⟩
  · simp only [List.length_append]
    rw [show w0.length = 4 from h0.1, show w1.length = 4 from h1.1, show w2.length = 4 from h2.1, show w3.length = 4 from h3.1,
      show w4.length = 4 from h4.1, show w5.length = 4 from h5.1, show w6.length = 4 from h6.1, h7.1]
  · intro x hx
    simp only [List.mem_append] at hx
    rcases hx with ((((((hx | hx) | hx) | hx) | hx) | hx) | hx) | hx
    · exact h0.2 x hx
    · exact h1.2 x hx
    · exact h2.2 x hx
    · exact h3.2 x hx
    · exact h4.2 x hx
    · exact h5.2 x hx
    · exact h6.2 x hx
    · exact h7.2 x hx

theorem aesKeyGo_bytes (n rc : Nat) (k : List Nat) (hr : rc < 256) (h : IsKey k) :
    (aesKeyGo n rc k).length = 32 * (n + 1) ∧ ∀ x ∈ aesKeyGo n rc k, x < 256 := by
  induction n generalizing rc k with
  | zero => exact ⟨by simp [aesKeyGo, h.1], h.2⟩
  | succ n ih =>
    have := ih (aesX rc) (aesExpand rc k) (aesX_byte hr) (aesExpand_key hr h)
    refine ⟨by simp [aesKeyGo, h.1, this.1]; omega, fun x hx => ?_⟩
    rcases List.mem_append.1 hx with hx | hx
    · exact h.2 x hx
    · exact this.2 x hx

theorem aesKeys_blocks {key : List Nat} (h : IsKey key) : ∀ k ∈ aesKeys key, IsBlock k := by
  intro k hk
  obtain ⟨i, hi, rfl⟩ := List.mem_map.1 hk
  have := aesKeyGo_bytes 7 1 key (by decide) h
  refine ⟨by simp [this.1]; have := List.mem_range.1 hi; omega, fun x hx => this.2 x (List.mem_of_mem_drop (List.mem_of_mem_take hx))⟩

/-- A block cipher's output under the round keys of a key. -/
theorem aesWith_block {key : List Nat} (h : IsKey key) (b : List Nat) : IsBlock (aesWith (aesKeys key) b) := by
  have hk := aesKeys_blocks h
  have hl : (aesKeys key).length = 15 := by simp [aesKeys]
  generalize aesKeys key = ks at hk hl
  match ks, hl with
  | k :: k2 :: ks, _ => exact aesRounds_block (fun x hx => hk x (List.mem_cons_of_mem _ hx)) (by simp) _

/-! AES-256-GCM-SIV -/

theorem sivKeys_key {key : List Nat} (h : IsKey key) (nonce : List Nat) : IsKey (sivKeys key nonce).2 := by
  have hb : ∀ i, ((aesWith (aesKeys key) (leNums 4 i ++ nonce)).take 8).length = 8 ∧
      ∀ x ∈ (aesWith (aesKeys key) (leNums 4 i ++ nonce)).take 8, x < 256 := fun i =>
    ⟨by simp [(aesWith_block h _).1], fun x hx => (aesWith_block h _).2 x (List.mem_of_mem_take hx)⟩
  refine ⟨?_, fun x hx => ?_⟩
  · simp only [sivKeys, List.length_append, (hb _).1]
  · simp only [sivKeys, List.mem_append] at hx
    rcases hx with ((hx | hx) | hx) | hx
    · exact (hb 2).2 x hx
    · exact (hb 3).2 x hx
    · exact (hb 4).2 x hx
    · exact (hb 5).2 x hx

theorem sivStream_bytes {key : List Nat} (h : IsKey key) (tag : List Nat) (n : Nat) :
    (sivStream (aesKeys key) tag n).length = 16 * n ∧ ∀ x ∈ sivStream (aesKeys key) tag n, x < 256 := by
  refine ⟨?_, fun x hx => ?_⟩
  · simp only [sivStream, List.length_flatMap, (aesWith_block h _).1, List.map_const', List.length_range]
    simp [Nat.mul_comm]
  · simp only [sivStream, List.mem_flatMap] at hx
    obtain ⟨i, -, hx⟩ := hx
    exact (aesWith_block h _).2 x hx

theorem le_ceilDiv (n : Nat) : n ≤ 16 * ceilDiv n 16 := by unfold ceilDiv; omega

/-- What a key of 32 bytes seals, it opens; ciphertext and tag are bytes. -/
theorem sivOpen_seal {key : List Nat} (h : IsKey key) (nonce aad pt : List Nat) :
    sivOpen key nonce aad (sivSeal key nonce aad pt).1 (sivSeal key nonce aad pt).2 = some pt := by
  have hs := sivKeys_key h nonce
  have hl : (sivSeal key nonce aad pt).1.length = pt.length := by
    simp only [sivSeal, xorB_length, (sivStream_bytes hs _ _).1]
    have := le_ceilDiv pt.length
    omega
  unfold sivOpen
  dsimp only
  rw [hl]
  have hc : xorB (sivSeal key nonce aad pt).1
      (sivStream (aesKeys (sivKeys key nonce).2) (sivSeal key nonce aad pt).2 (ceilDiv pt.length 16)) = pt :=
    xorB_cancel (by rw [(sivStream_bytes hs _ _).1]; exact le_ceilDiv _)
  rw [hc]
  exact if_pos rfl

theorem sivSeal_bytes {key : List Nat} (h : IsKey key) (nonce aad : List Nat) {pt : List Nat} (hp : ∀ x ∈ pt, x < 256) :
    ((sivSeal key nonce aad pt).1.length = pt.length ∧ ∀ x ∈ (sivSeal key nonce aad pt).1, x < 256) ∧
      IsBlock (sivSeal key nonce aad pt).2 := by
  have hs := sivKeys_key h nonce
  refine ⟨⟨?_, xorB_bytes hp (sivStream_bytes hs _ _).2⟩, aesWith_block hs _⟩
  simp only [sivSeal, xorB_length, (sivStream_bytes hs _ _).1]
  have := le_ceilDiv pt.length
  omega

/-! Words and bytes -/

theorem leBytes_leNat (bs : List Byte) : leBytes bs.length (leNat bs) = bs := by
  induction bs with
  | nil => rfl
  | cons b bs ih =>
    have h1 : BitVec.ofNat 8 (b.toNat + 256 * leNat bs) = b := by
      apply BitVec.eq_of_toNat_eq
      have := b.isLt
      simp only [BitVec.toNat_ofNat]
      omega
    have h2 : (b.toNat + 256 * leNat bs) / 256 = leNat bs := by have := b.isLt; omega
    simp only [List.length_cons, leBytes, leNat, h1, h2, ih]

theorem leNat_lt (bs : List Byte) : leNat bs < 256 ^ bs.length := by
  induction bs with
  | nil => decide
  | cons b bs ih =>
    have := b.isLt
    simp only [leNat, List.length_cons, Nat.pow_succ]
    omega

theorem leNat_leBytes (n v : Nat) (h : v < 256 ^ n) : leNat (leBytes n v) = v := by
  induction n generalizing v with
  | zero => simp [leBytes, leNat] at *; omega
  | succ n ih =>
    have : v / 256 < 256 ^ n := by rw [Nat.pow_succ] at h; omega
    simp only [leBytes, leNat, ih _ this, BitVec.toNat_ofNat]
    omega

theorem leBytes_length (n v : Nat) : (leBytes n v).length = n := by
  induction n generalizing v with
  | zero => rfl
  | succ n ih => simp [leBytes, ih]

theorem bytesToWords_succ (n : Nat) (a bs : List Byte) (h : a.length = 4) :
    bytesToWords (n + 1) (a ++ bs) = BitVec.ofNat 32 (leNat a) :: bytesToWords n bs := by
  have ha : (a ++ bs).take 4 = a := by rw [← h]; simp
  simp only [bytesToWords, List.range_succ_eq_map, List.map_cons, List.map_map, Nat.mul_zero, List.drop_zero, ha]
  refine congrArg _ (List.map_congr_left fun i _ => ?_)
  have hd : (a ++ bs).drop (4 * (i + 1)) = bs.drop (4 * i) := by
    rw [List.drop_append, h, List.drop_eq_nil_of_le (by omega), List.nil_append]
    exact congrArg (bs.drop ·) (by omega)
  simp only [Function.comp_apply, Nat.succ_eq_add_one, hd]

/-- Words as bytes and back. -/
theorem bytesToWords_wordsToBytes (ws : List W32) : bytesToWords ws.length (wordsToBytes ws) = ws := by
  induction ws with
  | nil => rfl
  | cons w ws ih =>
    show bytesToWords (ws.length + 1) (leBytes 4 w.toNat ++ wordsToBytes ws) = w :: ws
    rw [bytesToWords_succ _ _ _ (leBytes_length 4 _), ih, leNat_leBytes 4 _ w.isLt]
    simp

/-- Bytes as words and back. -/
theorem wordsToBytes_bytesToWords (n : Nat) (bs : List Byte) (h : bs.length = 4 * n) : wordsToBytes (bytesToWords n bs) = bs := by
  induction n generalizing bs with
  | zero => simp at h; subst h; rfl
  | succ n ih =>
    have hs : bs = bs.take 4 ++ bs.drop 4 := (List.take_append_drop 4 bs).symm
    have h4 : (bs.take 4).length = 4 := by simp; omega
    rw [hs, bytesToWords_succ _ _ _ h4]
    show leBytes 4 (BitVec.ofNat 32 (leNat (bs.take 4))).toNat ++ wordsToBytes (bytesToWords n (bs.drop 4)) = _
    rw [ih _ (by simp; omega), BitVec.toNat_ofNat, Nat.mod_eq_of_lt (by have := leNat_lt (bs.take 4); rw [h4] at this; exact this)]
    congr 1
    have := leBytes_leNat (bs.take 4)
    rwa [h4] at this

theorem map_ofNat_toNat (bs : List Byte) : (bs.map BitVec.toNat).map (BitVec.ofNat 8) = bs := by
  rw [List.map_map]
  conv => rhs; rw [← List.map_id bs]
  exact List.map_congr_left fun b _ => by simp

theorem map_toNat_ofNat {l : List Nat} (h : ∀ x ∈ l, x < 256) : (l.map (BitVec.ofNat 8)).map BitVec.toNat = l := by
  rw [List.map_map]
  conv => rhs; rw [← List.map_id l]
  refine List.map_congr_left fun b hb => ?_
  have := h b hb
  simp; omega

theorem numWords_wordNums (ws : List W32) : numWords ws.length (wordNums ws) = ws := by
  unfold numWords wordNums
  rw [map_ofNat_toNat, bytesToWords_wordsToBytes]

theorem wordNums_numWords {n : Nat} {l : List Nat} (hl : l.length = 4 * n) (h : ∀ x ∈ l, x < 256) : wordNums (numWords n l) = l := by
  unfold numWords wordNums
  rw [wordsToBytes_bytesToWords _ _ (by simpa using hl), map_toNat_ofNat h]

theorem wordNums_bytes (ws : List W32) : (wordNums ws).length = 4 * ws.length ∧ ∀ x ∈ wordNums ws, x < 256 := by
  refine ⟨?_, fun x hx => ?_⟩
  · induction ws with
    | nil => rfl
    | cons w ws ih =>
      simp only [wordNums, wordsToBytes, List.flatMap_cons, List.map_append, List.length_append, List.length_map, leBytes_length,
        List.length_cons] at ih ⊢
      omega
  · obtain ⟨b, -, rfl⟩ := List.mem_map.1 hx
    exact b.isLt

theorem numWords_length (n : Nat) (l : List Nat) : (numWords n l).length = n := by simp [numWords, bytesToWords]

/-! Packets -/

/-- A packet sealed under a key of 32 bytes opens under it, its tag still behind it (R395). -/
theorem Packet.open_seal (k : Packet) {key : List Byte} (hk : key.length = 32) :
    (k.seal key).open_ key = some { k with tag := (k.seal key).tag } := by
  have hkey : IsKey (key.map BitVec.toNat) := ⟨by simpa using hk, fun x hx => by
    obtain ⟨b, -, rfl⟩ := List.mem_map.1 hx; exact b.isLt⟩
  have hn : (k.seal key).nonce = k.nonce := rfl
  have hc : (k.seal key).cls = k.cls := rfl
  have hp := wordNums_bytes k.secret
  have hs := sivSeal_bytes hkey k.nonce k.aad hp.2
  have ht : wordNums (k.seal key).tag = (sivSeal (key.map BitVec.toNat) k.nonce k.aad (wordNums k.secret)).2 :=
    wordNums_numWords (n := 4) hs.2.1 hs.2.2
  unfold Packet.open_
  rw [hn, ht]
  by_cases h3 : k.cls = 3
  · have h0 : wordNums k.secret = [] := by simp [Packet.secret, h3, wordNums, wordsToBytes]
    have h1 : (sivSeal (key.map BitVec.toNat) k.nonce k.aad (wordNums k.secret)).1 = wordNums k.secret := by
      rw [h0] at hs ⊢
      exact List.eq_nil_of_length_eq_zero (by simpa using hs.1.1)
    have hy : (k.seal key).pay = k.pay := by simp [Packet.seal, h3]
    have ha : (k.seal key).aad = k.aad := by simp only [Packet.aad, hc, hy]; rfl
    have he : (k.seal key).secret = k.secret := by simp only [Packet.secret, hc, hy]
    have := sivOpen_seal hkey k.nonce k.aad (wordNums k.secret)
    rw [h1] at this
    rw [ha, he, this]
    simp only [Option.map_some, hc, h3, if_true, hy]
    rfl
  · have hl := hs.1.1
    rw [hp.1] at hl
    have hy : (k.seal key).pay = numWords k.pay.length (sivSeal (key.map BitVec.toNat) k.nonce k.aad (wordNums k.secret)).1 := by
      simp [Packet.seal, h3]
    have hk2 : k.secret = k.pay := by simp [Packet.secret, h3]
    have ha : (k.seal key).aad = k.aad := by simp only [Packet.aad, hc, h3, if_false]; rfl
    have he : wordNums (k.seal key).secret = (sivSeal (key.map BitVec.toNat) k.nonce k.aad (wordNums k.secret)).1 := by
      have : (k.seal key).secret = (k.seal key).pay := by simp [Packet.secret, hc, h3]
      rw [this, hy]
      exact wordNums_numWords (by rw [← hk2]; exact hl) hs.1.2
    rw [ha, he, sivOpen_seal hkey]
    have hlen : (k.seal key).pay.length = k.pay.length := by rw [hy, numWords_length]
    simp only [Option.map_some, hc, h3, if_false, hlen, hk2, numWords_wordNums]
    rfl

end Sys2Proof

namespace Sys2Proof.Machine

/-- A packet sealed under the present key of its class is opened. -/
theorem State.opened_seal (s : State) (k : Packet) {key : List Byte} (hk : key.length = 32) (h : s.sealKey k.cls = some key) :
    s.opened (k.seal key) = some { k with tag := (k.seal key).tag } := by
  have hc : (k.seal key).cls = k.cls := rfl
  simp [State.opened, hc, h, Packet.open_seal k hk]

/-- The sealed packet has the form of a received one. -/
theorem packetOk_seal {k : Packet} (key : List Byte) (hh : k.hdr.length = 8) (hp : k.pay.length ≤ 255) :
    packetOk (k.seal key) = true := by
  have h1 : (k.seal key).tag.length = 4 := numWords_length _ _
  have h2 : (k.seal key).pay.length = k.pay.length := by
    by_cases h3 : k.cls = 3
    · simp [Packet.seal, h3]
    · simp [Packet.seal, h3, numWords_length]
  have h3 : (k.seal key).hdr = k.hdr := rfl
  simp [packetOk, h1, h2, h3, hh, hp]

end Sys2Proof.Machine
end

