-- ==== Sys2Proof/Laws/State.lean ====
section
/-! SUPPORT. What each update of the state leaves as it was, and what it writes: one lemma for each field of each update. -/
namespace Sys2Proof.Machine

/-! setPtile -/

@[simp] theorem State.setPtile_pending (s : State) (p : Nat) (t : Tile) : (s.setPtile p t).pending = s.pending := rfl
@[simp] theorem State.setPtile_free (s : State) (p : Nat) (t : Tile) : (s.setPtile p t).free = s.free := rfl
@[simp] theorem State.setPtile_time (s : State) (p : Nat) (t : Tile) : (s.setPtile p t).time = s.time := rfl
@[simp] theorem State.setPtile_tiles (s : State) (p : Nat) (t : Tile) : (s.setPtile p t).tiles = SMap.setD s.tiles p t Tile.reset := rfl
@[simp] theorem State.setPtile_brmDie (s : State) (p : Nat) (t : Tile) : (s.setPtile p t).brmDie = s.brmDie := rfl
@[simp] theorem State.setPtile_brm (s : State) (p : Nat) (t : Tile) : (s.setPtile p t).brm = s.brm := rfl
@[simp] theorem State.setPtile_ctxs (s : State) (p : Nat) (t : Tile) : (s.setPtile p t).ctxs = s.ctxs := rfl
@[simp] theorem State.setPtile_queues (s : State) (p : Nat) (t : Tile) : (s.setPtile p t).queues = s.queues := rfl
@[simp] theorem State.setPtile_descs (s : State) (p : Nat) (t : Tile) : (s.setPtile p t).descs = s.descs := rfl
@[simp] theorem State.setPtile_nextDesc (s : State) (p : Nat) (t : Tile) : (s.setPtile p t).nextDesc = s.nextDesc := rfl
@[simp] theorem State.setPtile_sigs (s : State) (p : Nat) (t : Tile) : (s.setPtile p t).sigs = s.sigs := rfl
@[simp] theorem State.setPtile_lastStart (s : State) (p : Nat) (t : Tile) : (s.setPtile p t).lastStart = s.lastStart := rfl
@[simp] theorem State.setPtile_starts (s : State) (p : Nat) (t : Tile) : (s.setPtile p t).starts = s.starts := rfl
@[simp] theorem State.setPtile_stages (s : State) (p : Nat) (t : Tile) : (s.setPtile p t).stages = s.stages := rfl
@[simp] theorem State.setPtile_sch (s : State) (p : Nat) (t : Tile) : (s.setPtile p t).sch = s.sch := rfl
@[simp] theorem State.setPtile_mem (s : State) (p : Nat) (t : Tile) : (s.setPtile p t).mem = s.mem := rfl
@[simp] theorem State.setPtile_fab (s : State) (p : Nat) (t : Tile) : (s.setPtile p t).fab = s.fab := rfl
@[simp] theorem State.setPtile_load (s : State) (p : Nat) (t : Tile) : (s.setPtile p t).load = s.load := rfl
@[simp] theorem State.setPtile_flt (s : State) (p : Nat) (t : Tile) : (s.setPtile p t).flt = s.flt := rfl
@[simp] theorem State.setPtile_sec (s : State) (p : Nat) (t : Tile) : (s.setPtile p t).sec = s.sec := rfl
@[simp] theorem State.setPtile_hrt (s : State) (p : Nat) (t : Tile) : (s.setPtile p t).hrt = s.hrt := rfl
@[simp] theorem State.setPtile_hif (s : State) (p : Nat) (t : Tile) : (s.setPtile p t).hif = s.hif := rfl
@[simp] theorem State.setPtile_pwr (s : State) (p : Nat) (t : Tile) : (s.setPtile p t).pwr = s.pwr := rfl
@[simp] theorem State.setPtile_remap (s : State) (p : Nat) (t : Tile) : (s.setPtile p t).remap = s.remap := rfl
@[simp] theorem State.setPtile_out (s : State) (p : Nat) (t : Tile) : (s.setPtile p t).out = s.out := rfl
@[simp] theorem State.setPtile_engines (s : State) (p : Nat) (t : Tile) : (s.setPtile p t).engines = s.engines := rfl

/-! modCtx -/

@[simp] theorem State.modCtx_pending (s : State) (c : Nat) (f : Ctx → Ctx) : (s.modCtx c f).pending = s.pending := rfl
@[simp] theorem State.modCtx_free (s : State) (c : Nat) (f : Ctx → Ctx) : (s.modCtx c f).free = s.free := rfl
@[simp] theorem State.modCtx_time (s : State) (c : Nat) (f : Ctx → Ctx) : (s.modCtx c f).time = s.time := rfl
@[simp] theorem State.modCtx_tiles (s : State) (c : Nat) (f : Ctx → Ctx) : (s.modCtx c f).tiles = s.tiles := rfl
@[simp] theorem State.modCtx_brmDie (s : State) (c : Nat) (f : Ctx → Ctx) : (s.modCtx c f).brmDie = s.brmDie := rfl
@[simp] theorem State.modCtx_brm (s : State) (c : Nat) (f : Ctx → Ctx) : (s.modCtx c f).brm = s.brm := rfl
@[simp] theorem State.modCtx_ctxs (s : State) (c : Nat) (f : Ctx → Ctx) : (s.modCtx c f).ctxs = SMap.adj s.ctxs c f := rfl
@[simp] theorem State.modCtx_queues (s : State) (c : Nat) (f : Ctx → Ctx) : (s.modCtx c f).queues = s.queues := rfl
@[simp] theorem State.modCtx_descs (s : State) (c : Nat) (f : Ctx → Ctx) : (s.modCtx c f).descs = s.descs := rfl
@[simp] theorem State.modCtx_nextDesc (s : State) (c : Nat) (f : Ctx → Ctx) : (s.modCtx c f).nextDesc = s.nextDesc := rfl
@[simp] theorem State.modCtx_sigs (s : State) (c : Nat) (f : Ctx → Ctx) : (s.modCtx c f).sigs = s.sigs := rfl
@[simp] theorem State.modCtx_lastStart (s : State) (c : Nat) (f : Ctx → Ctx) : (s.modCtx c f).lastStart = s.lastStart := rfl
@[simp] theorem State.modCtx_starts (s : State) (c : Nat) (f : Ctx → Ctx) : (s.modCtx c f).starts = s.starts := rfl
@[simp] theorem State.modCtx_stages (s : State) (c : Nat) (f : Ctx → Ctx) : (s.modCtx c f).stages = s.stages := rfl
@[simp] theorem State.modCtx_sch (s : State) (c : Nat) (f : Ctx → Ctx) : (s.modCtx c f).sch = s.sch := rfl
@[simp] theorem State.modCtx_mem (s : State) (c : Nat) (f : Ctx → Ctx) : (s.modCtx c f).mem = s.mem := rfl
@[simp] theorem State.modCtx_fab (s : State) (c : Nat) (f : Ctx → Ctx) : (s.modCtx c f).fab = s.fab := rfl
@[simp] theorem State.modCtx_load (s : State) (c : Nat) (f : Ctx → Ctx) : (s.modCtx c f).load = s.load := rfl
@[simp] theorem State.modCtx_flt (s : State) (c : Nat) (f : Ctx → Ctx) : (s.modCtx c f).flt = s.flt := rfl
@[simp] theorem State.modCtx_sec (s : State) (c : Nat) (f : Ctx → Ctx) : (s.modCtx c f).sec = s.sec := rfl
@[simp] theorem State.modCtx_hrt (s : State) (c : Nat) (f : Ctx → Ctx) : (s.modCtx c f).hrt = s.hrt := rfl
@[simp] theorem State.modCtx_hif (s : State) (c : Nat) (f : Ctx → Ctx) : (s.modCtx c f).hif = s.hif := rfl
@[simp] theorem State.modCtx_pwr (s : State) (c : Nat) (f : Ctx → Ctx) : (s.modCtx c f).pwr = s.pwr := rfl
@[simp] theorem State.modCtx_remap (s : State) (c : Nat) (f : Ctx → Ctx) : (s.modCtx c f).remap = s.remap := rfl
@[simp] theorem State.modCtx_out (s : State) (c : Nat) (f : Ctx → Ctx) : (s.modCtx c f).out = s.out := rfl
@[simp] theorem State.modCtx_engines (s : State) (c : Nat) (f : Ctx → Ctx) : (s.modCtx c f).engines = s.engines := rfl

/-! setQueue -/

@[simp] theorem State.setQueue_pending (s : State) (q : Nat) (x : Queue) : (s.setQueue q x).pending = s.pending := rfl
@[simp] theorem State.setQueue_free (s : State) (q : Nat) (x : Queue) : (s.setQueue q x).free = s.free := rfl
@[simp] theorem State.setQueue_time (s : State) (q : Nat) (x : Queue) : (s.setQueue q x).time = s.time := rfl
@[simp] theorem State.setQueue_tiles (s : State) (q : Nat) (x : Queue) : (s.setQueue q x).tiles = s.tiles := rfl
@[simp] theorem State.setQueue_brmDie (s : State) (q : Nat) (x : Queue) : (s.setQueue q x).brmDie = s.brmDie := rfl
@[simp] theorem State.setQueue_brm (s : State) (q : Nat) (x : Queue) : (s.setQueue q x).brm = s.brm := rfl
@[simp] theorem State.setQueue_ctxs (s : State) (q : Nat) (x : Queue) : (s.setQueue q x).ctxs = s.ctxs := rfl
@[simp] theorem State.setQueue_queues (s : State) (q : Nat) (x : Queue) : (s.setQueue q x).queues = SMap.setD s.queues q x Queue.reset := rfl
@[simp] theorem State.setQueue_descs (s : State) (q : Nat) (x : Queue) : (s.setQueue q x).descs = s.descs := rfl
@[simp] theorem State.setQueue_nextDesc (s : State) (q : Nat) (x : Queue) : (s.setQueue q x).nextDesc = s.nextDesc := rfl
@[simp] theorem State.setQueue_sigs (s : State) (q : Nat) (x : Queue) : (s.setQueue q x).sigs = s.sigs := rfl
@[simp] theorem State.setQueue_lastStart (s : State) (q : Nat) (x : Queue) : (s.setQueue q x).lastStart = s.lastStart := rfl
@[simp] theorem State.setQueue_starts (s : State) (q : Nat) (x : Queue) : (s.setQueue q x).starts = s.starts := rfl
@[simp] theorem State.setQueue_stages (s : State) (q : Nat) (x : Queue) : (s.setQueue q x).stages = s.stages := rfl
@[simp] theorem State.setQueue_sch (s : State) (q : Nat) (x : Queue) : (s.setQueue q x).sch = s.sch := rfl
@[simp] theorem State.setQueue_mem (s : State) (q : Nat) (x : Queue) : (s.setQueue q x).mem = s.mem := rfl
@[simp] theorem State.setQueue_fab (s : State) (q : Nat) (x : Queue) : (s.setQueue q x).fab = s.fab := rfl
@[simp] theorem State.setQueue_load (s : State) (q : Nat) (x : Queue) : (s.setQueue q x).load = s.load := rfl
@[simp] theorem State.setQueue_flt (s : State) (q : Nat) (x : Queue) : (s.setQueue q x).flt = s.flt := rfl
@[simp] theorem State.setQueue_sec (s : State) (q : Nat) (x : Queue) : (s.setQueue q x).sec = s.sec := rfl
@[simp] theorem State.setQueue_hrt (s : State) (q : Nat) (x : Queue) : (s.setQueue q x).hrt = s.hrt := rfl
@[simp] theorem State.setQueue_hif (s : State) (q : Nat) (x : Queue) : (s.setQueue q x).hif = s.hif := rfl
@[simp] theorem State.setQueue_pwr (s : State) (q : Nat) (x : Queue) : (s.setQueue q x).pwr = s.pwr := rfl
@[simp] theorem State.setQueue_remap (s : State) (q : Nat) (x : Queue) : (s.setQueue q x).remap = s.remap := rfl
@[simp] theorem State.setQueue_out (s : State) (q : Nat) (x : Queue) : (s.setQueue q x).out = s.out := rfl
@[simp] theorem State.setQueue_engines (s : State) (q : Nat) (x : Queue) : (s.setQueue q x).engines = s.engines := rfl

/-! modQueue -/

@[simp] theorem State.modQueue_pending (s : State) (q : Nat) (f : Queue → Queue) : (s.modQueue q f).pending = s.pending := rfl
@[simp] theorem State.modQueue_free (s : State) (q : Nat) (f : Queue → Queue) : (s.modQueue q f).free = s.free := rfl
@[simp] theorem State.modQueue_time (s : State) (q : Nat) (f : Queue → Queue) : (s.modQueue q f).time = s.time := rfl
@[simp] theorem State.modQueue_tiles (s : State) (q : Nat) (f : Queue → Queue) : (s.modQueue q f).tiles = s.tiles := rfl
@[simp] theorem State.modQueue_brmDie (s : State) (q : Nat) (f : Queue → Queue) : (s.modQueue q f).brmDie = s.brmDie := rfl
@[simp] theorem State.modQueue_brm (s : State) (q : Nat) (f : Queue → Queue) : (s.modQueue q f).brm = s.brm := rfl
@[simp] theorem State.modQueue_ctxs (s : State) (q : Nat) (f : Queue → Queue) : (s.modQueue q f).ctxs = s.ctxs := rfl
@[simp] theorem State.modQueue_queues (s : State) (q : Nat) (f : Queue → Queue) : (s.modQueue q f).queues = SMap.setD s.queues q (f (s.queue q)) Queue.reset := rfl
@[simp] theorem State.modQueue_descs (s : State) (q : Nat) (f : Queue → Queue) : (s.modQueue q f).descs = s.descs := rfl
@[simp] theorem State.modQueue_nextDesc (s : State) (q : Nat) (f : Queue → Queue) : (s.modQueue q f).nextDesc = s.nextDesc := rfl
@[simp] theorem State.modQueue_sigs (s : State) (q : Nat) (f : Queue → Queue) : (s.modQueue q f).sigs = s.sigs := rfl
@[simp] theorem State.modQueue_lastStart (s : State) (q : Nat) (f : Queue → Queue) : (s.modQueue q f).lastStart = s.lastStart := rfl
@[simp] theorem State.modQueue_starts (s : State) (q : Nat) (f : Queue → Queue) : (s.modQueue q f).starts = s.starts := rfl
@[simp] theorem State.modQueue_stages (s : State) (q : Nat) (f : Queue → Queue) : (s.modQueue q f).stages = s.stages := rfl
@[simp] theorem State.modQueue_sch (s : State) (q : Nat) (f : Queue → Queue) : (s.modQueue q f).sch = s.sch := rfl
@[simp] theorem State.modQueue_mem (s : State) (q : Nat) (f : Queue → Queue) : (s.modQueue q f).mem = s.mem := rfl
@[simp] theorem State.modQueue_fab (s : State) (q : Nat) (f : Queue → Queue) : (s.modQueue q f).fab = s.fab := rfl
@[simp] theorem State.modQueue_load (s : State) (q : Nat) (f : Queue → Queue) : (s.modQueue q f).load = s.load := rfl
@[simp] theorem State.modQueue_flt (s : State) (q : Nat) (f : Queue → Queue) : (s.modQueue q f).flt = s.flt := rfl
@[simp] theorem State.modQueue_sec (s : State) (q : Nat) (f : Queue → Queue) : (s.modQueue q f).sec = s.sec := rfl
@[simp] theorem State.modQueue_hrt (s : State) (q : Nat) (f : Queue → Queue) : (s.modQueue q f).hrt = s.hrt := rfl
@[simp] theorem State.modQueue_hif (s : State) (q : Nat) (f : Queue → Queue) : (s.modQueue q f).hif = s.hif := rfl
@[simp] theorem State.modQueue_pwr (s : State) (q : Nat) (f : Queue → Queue) : (s.modQueue q f).pwr = s.pwr := rfl
@[simp] theorem State.modQueue_remap (s : State) (q : Nat) (f : Queue → Queue) : (s.modQueue q f).remap = s.remap := rfl
@[simp] theorem State.modQueue_out (s : State) (q : Nat) (f : Queue → Queue) : (s.modQueue q f).out = s.out := rfl
@[simp] theorem State.modQueue_engines (s : State) (q : Nat) (f : Queue → Queue) : (s.modQueue q f).engines = s.engines := rfl

/-! modDesc -/

@[simp] theorem State.modDesc_pending (s : State) (i : Nat) (f : Desc → Desc) : (s.modDesc i f).pending = s.pending := rfl
@[simp] theorem State.modDesc_free (s : State) (i : Nat) (f : Desc → Desc) : (s.modDesc i f).free = s.free := rfl
@[simp] theorem State.modDesc_time (s : State) (i : Nat) (f : Desc → Desc) : (s.modDesc i f).time = s.time := rfl
@[simp] theorem State.modDesc_tiles (s : State) (i : Nat) (f : Desc → Desc) : (s.modDesc i f).tiles = s.tiles := rfl
@[simp] theorem State.modDesc_brmDie (s : State) (i : Nat) (f : Desc → Desc) : (s.modDesc i f).brmDie = s.brmDie := rfl
@[simp] theorem State.modDesc_brm (s : State) (i : Nat) (f : Desc → Desc) : (s.modDesc i f).brm = s.brm := rfl
@[simp] theorem State.modDesc_ctxs (s : State) (i : Nat) (f : Desc → Desc) : (s.modDesc i f).ctxs = s.ctxs := rfl
@[simp] theorem State.modDesc_queues (s : State) (i : Nat) (f : Desc → Desc) : (s.modDesc i f).queues = s.queues := rfl
@[simp] theorem State.modDesc_descs (s : State) (i : Nat) (f : Desc → Desc) : (s.modDesc i f).descs = SMap.adj s.descs i f := rfl
@[simp] theorem State.modDesc_nextDesc (s : State) (i : Nat) (f : Desc → Desc) : (s.modDesc i f).nextDesc = s.nextDesc := rfl
@[simp] theorem State.modDesc_sigs (s : State) (i : Nat) (f : Desc → Desc) : (s.modDesc i f).sigs = s.sigs := rfl
@[simp] theorem State.modDesc_lastStart (s : State) (i : Nat) (f : Desc → Desc) : (s.modDesc i f).lastStart = s.lastStart := rfl
@[simp] theorem State.modDesc_starts (s : State) (i : Nat) (f : Desc → Desc) : (s.modDesc i f).starts = s.starts := rfl
@[simp] theorem State.modDesc_stages (s : State) (i : Nat) (f : Desc → Desc) : (s.modDesc i f).stages = s.stages := rfl
@[simp] theorem State.modDesc_sch (s : State) (i : Nat) (f : Desc → Desc) : (s.modDesc i f).sch = s.sch := rfl
@[simp] theorem State.modDesc_mem (s : State) (i : Nat) (f : Desc → Desc) : (s.modDesc i f).mem = s.mem := rfl
@[simp] theorem State.modDesc_fab (s : State) (i : Nat) (f : Desc → Desc) : (s.modDesc i f).fab = s.fab := rfl
@[simp] theorem State.modDesc_load (s : State) (i : Nat) (f : Desc → Desc) : (s.modDesc i f).load = s.load := rfl
@[simp] theorem State.modDesc_flt (s : State) (i : Nat) (f : Desc → Desc) : (s.modDesc i f).flt = s.flt := rfl
@[simp] theorem State.modDesc_sec (s : State) (i : Nat) (f : Desc → Desc) : (s.modDesc i f).sec = s.sec := rfl
@[simp] theorem State.modDesc_hrt (s : State) (i : Nat) (f : Desc → Desc) : (s.modDesc i f).hrt = s.hrt := rfl
@[simp] theorem State.modDesc_hif (s : State) (i : Nat) (f : Desc → Desc) : (s.modDesc i f).hif = s.hif := rfl
@[simp] theorem State.modDesc_pwr (s : State) (i : Nat) (f : Desc → Desc) : (s.modDesc i f).pwr = s.pwr := rfl
@[simp] theorem State.modDesc_remap (s : State) (i : Nat) (f : Desc → Desc) : (s.modDesc i f).remap = s.remap := rfl
@[simp] theorem State.modDesc_out (s : State) (i : Nat) (f : Desc → Desc) : (s.modDesc i f).out = s.out := rfl
@[simp] theorem State.modDesc_engines (s : State) (i : Nat) (f : Desc → Desc) : (s.modDesc i f).engines = s.engines := rfl

/-! signal -/

@[simp] theorem State.signal_pending (s : State) (x : Signal) : (s.signal x).pending = s.pending := rfl
@[simp] theorem State.signal_free (s : State) (x : Signal) : (s.signal x).free = s.free := rfl
@[simp] theorem State.signal_time (s : State) (x : Signal) : (s.signal x).time = s.time := rfl
@[simp] theorem State.signal_tiles (s : State) (x : Signal) : (s.signal x).tiles = s.tiles := rfl
@[simp] theorem State.signal_brmDie (s : State) (x : Signal) : (s.signal x).brmDie = s.brmDie := rfl
@[simp] theorem State.signal_brm (s : State) (x : Signal) : (s.signal x).brm = s.brm := rfl
@[simp] theorem State.signal_ctxs (s : State) (x : Signal) : (s.signal x).ctxs = s.ctxs := rfl
@[simp] theorem State.signal_queues (s : State) (x : Signal) : (s.signal x).queues = s.queues := rfl
@[simp] theorem State.signal_descs (s : State) (x : Signal) : (s.signal x).descs = s.descs := rfl
@[simp] theorem State.signal_nextDesc (s : State) (x : Signal) : (s.signal x).nextDesc = s.nextDesc := rfl
@[simp] theorem State.signal_sigs (s : State) (x : Signal) : (s.signal x).sigs = s.sigs ++ [x] := rfl
@[simp] theorem State.signal_lastStart (s : State) (x : Signal) : (s.signal x).lastStart = s.lastStart := rfl
@[simp] theorem State.signal_starts (s : State) (x : Signal) : (s.signal x).starts = s.starts := rfl
@[simp] theorem State.signal_stages (s : State) (x : Signal) : (s.signal x).stages = s.stages := rfl
@[simp] theorem State.signal_sch (s : State) (x : Signal) : (s.signal x).sch = s.sch := rfl
@[simp] theorem State.signal_mem (s : State) (x : Signal) : (s.signal x).mem = s.mem := rfl
@[simp] theorem State.signal_fab (s : State) (x : Signal) : (s.signal x).fab = s.fab := rfl
@[simp] theorem State.signal_load (s : State) (x : Signal) : (s.signal x).load = s.load := rfl
@[simp] theorem State.signal_flt (s : State) (x : Signal) : (s.signal x).flt = s.flt := rfl
@[simp] theorem State.signal_sec (s : State) (x : Signal) : (s.signal x).sec = s.sec := rfl
@[simp] theorem State.signal_hrt (s : State) (x : Signal) : (s.signal x).hrt = s.hrt := rfl
@[simp] theorem State.signal_hif (s : State) (x : Signal) : (s.signal x).hif = s.hif := rfl
@[simp] theorem State.signal_pwr (s : State) (x : Signal) : (s.signal x).pwr = s.pwr := rfl
@[simp] theorem State.signal_remap (s : State) (x : Signal) : (s.signal x).remap = s.remap := rfl
@[simp] theorem State.signal_out (s : State) (x : Signal) : (s.signal x).out = s.out := rfl
@[simp] theorem State.signal_engines (s : State) (x : Signal) : (s.signal x).engines = s.engines := rfl

/-! emit -/

@[simp] theorem State.emit_pending (s : State) (o : Out) : (s.emit o).pending = s.pending := rfl
@[simp] theorem State.emit_free (s : State) (o : Out) : (s.emit o).free = s.free := rfl
@[simp] theorem State.emit_time (s : State) (o : Out) : (s.emit o).time = s.time := rfl
@[simp] theorem State.emit_tiles (s : State) (o : Out) : (s.emit o).tiles = s.tiles := rfl
@[simp] theorem State.emit_brmDie (s : State) (o : Out) : (s.emit o).brmDie = s.brmDie := rfl
@[simp] theorem State.emit_brm (s : State) (o : Out) : (s.emit o).brm = s.brm := rfl
@[simp] theorem State.emit_ctxs (s : State) (o : Out) : (s.emit o).ctxs = s.ctxs := rfl
@[simp] theorem State.emit_queues (s : State) (o : Out) : (s.emit o).queues = s.queues := rfl
@[simp] theorem State.emit_descs (s : State) (o : Out) : (s.emit o).descs = s.descs := rfl
@[simp] theorem State.emit_nextDesc (s : State) (o : Out) : (s.emit o).nextDesc = s.nextDesc := rfl
@[simp] theorem State.emit_sigs (s : State) (o : Out) : (s.emit o).sigs = s.sigs := rfl
@[simp] theorem State.emit_lastStart (s : State) (o : Out) : (s.emit o).lastStart = s.lastStart := rfl
@[simp] theorem State.emit_starts (s : State) (o : Out) : (s.emit o).starts = s.starts := rfl
@[simp] theorem State.emit_stages (s : State) (o : Out) : (s.emit o).stages = s.stages := rfl
@[simp] theorem State.emit_sch (s : State) (o : Out) : (s.emit o).sch = s.sch := rfl
@[simp] theorem State.emit_mem (s : State) (o : Out) : (s.emit o).mem = s.mem := rfl
@[simp] theorem State.emit_fab (s : State) (o : Out) : (s.emit o).fab = s.fab := rfl
@[simp] theorem State.emit_load (s : State) (o : Out) : (s.emit o).load = s.load := rfl
@[simp] theorem State.emit_flt (s : State) (o : Out) : (s.emit o).flt = s.flt := rfl
@[simp] theorem State.emit_sec (s : State) (o : Out) : (s.emit o).sec = s.sec := rfl
@[simp] theorem State.emit_hrt (s : State) (o : Out) : (s.emit o).hrt = s.hrt := rfl
@[simp] theorem State.emit_hif (s : State) (o : Out) : (s.emit o).hif = s.hif := rfl
@[simp] theorem State.emit_pwr (s : State) (o : Out) : (s.emit o).pwr = s.pwr := rfl
@[simp] theorem State.emit_remap (s : State) (o : Out) : (s.emit o).remap = s.remap := rfl
@[simp] theorem State.emit_out (s : State) (o : Out) : (s.emit o).out = s.out ++ [o] := rfl
@[simp] theorem State.emit_engines (s : State) (o : Out) : (s.emit o).engines = s.engines := rfl

/-! draw -/

@[simp] theorem State.draw_pending (s : State) : (s.draw.2).pending = s.pending := rfl
@[simp] theorem State.draw_free (s : State) : (s.draw.2).free = s.free + 1 := rfl
@[simp] theorem State.draw_time (s : State) : (s.draw.2).time = s.time := rfl
@[simp] theorem State.draw_tiles (s : State) : (s.draw.2).tiles = s.tiles := rfl
@[simp] theorem State.draw_brmDie (s : State) : (s.draw.2).brmDie = s.brmDie := rfl
@[simp] theorem State.draw_brm (s : State) : (s.draw.2).brm = s.brm := rfl
@[simp] theorem State.draw_ctxs (s : State) : (s.draw.2).ctxs = s.ctxs := rfl
@[simp] theorem State.draw_queues (s : State) : (s.draw.2).queues = s.queues := rfl
@[simp] theorem State.draw_descs (s : State) : (s.draw.2).descs = s.descs := rfl
@[simp] theorem State.draw_nextDesc (s : State) : (s.draw.2).nextDesc = s.nextDesc := rfl
@[simp] theorem State.draw_sigs (s : State) : (s.draw.2).sigs = s.sigs := rfl
@[simp] theorem State.draw_lastStart (s : State) : (s.draw.2).lastStart = s.lastStart := rfl
@[simp] theorem State.draw_starts (s : State) : (s.draw.2).starts = s.starts := rfl
@[simp] theorem State.draw_stages (s : State) : (s.draw.2).stages = s.stages := rfl
@[simp] theorem State.draw_sch (s : State) : (s.draw.2).sch = s.sch := rfl
@[simp] theorem State.draw_mem (s : State) : (s.draw.2).mem = s.mem := rfl
@[simp] theorem State.draw_fab (s : State) : (s.draw.2).fab = s.fab := rfl
@[simp] theorem State.draw_load (s : State) : (s.draw.2).load = s.load := rfl
@[simp] theorem State.draw_flt (s : State) : (s.draw.2).flt = s.flt := rfl
@[simp] theorem State.draw_sec (s : State) : (s.draw.2).sec = s.sec := rfl
@[simp] theorem State.draw_hrt (s : State) : (s.draw.2).hrt = s.hrt := rfl
@[simp] theorem State.draw_hif (s : State) : (s.draw.2).hif = s.hif := rfl
@[simp] theorem State.draw_pwr (s : State) : (s.draw.2).pwr = s.pwr := rfl
@[simp] theorem State.draw_remap (s : State) : (s.draw.2).remap = s.remap := rfl
@[simp] theorem State.draw_out (s : State) : (s.draw.2).out = s.out := rfl
@[simp] theorem State.draw_engines (s : State) : (s.draw.2).engines = s.engines := rfl

/-! modDie -/

@[simp] theorem State.modDie_pending (s : State) (d : Nat) (f : Die → Die) : (s.modDie d f).pending = s.pending := rfl
@[simp] theorem State.modDie_free (s : State) (d : Nat) (f : Die → Die) : (s.modDie d f).free = s.free := rfl
@[simp] theorem State.modDie_time (s : State) (d : Nat) (f : Die → Die) : (s.modDie d f).time = s.time := rfl
@[simp] theorem State.modDie_tiles (s : State) (d : Nat) (f : Die → Die) : (s.modDie d f).tiles = s.tiles := rfl
@[simp] theorem State.modDie_brmDie (s : State) (d : Nat) (f : Die → Die) : (s.modDie d f).brmDie = s.brmDie := rfl
@[simp] theorem State.modDie_brm (s : State) (d : Nat) (f : Die → Die) : (s.modDie d f).brm = s.brm := rfl
@[simp] theorem State.modDie_ctxs (s : State) (d : Nat) (f : Die → Die) : (s.modDie d f).ctxs = s.ctxs := rfl
@[simp] theorem State.modDie_queues (s : State) (d : Nat) (f : Die → Die) : (s.modDie d f).queues = s.queues := rfl
@[simp] theorem State.modDie_descs (s : State) (d : Nat) (f : Die → Die) : (s.modDie d f).descs = s.descs := rfl
@[simp] theorem State.modDie_nextDesc (s : State) (d : Nat) (f : Die → Die) : (s.modDie d f).nextDesc = s.nextDesc := rfl
@[simp] theorem State.modDie_sigs (s : State) (d : Nat) (f : Die → Die) : (s.modDie d f).sigs = s.sigs := rfl
@[simp] theorem State.modDie_lastStart (s : State) (d : Nat) (f : Die → Die) : (s.modDie d f).lastStart = s.lastStart := rfl
@[simp] theorem State.modDie_starts (s : State) (d : Nat) (f : Die → Die) : (s.modDie d f).starts = s.starts := rfl
@[simp] theorem State.modDie_stages (s : State) (d : Nat) (f : Die → Die) : (s.modDie d f).stages = s.stages := rfl
@[simp] theorem State.modDie_sch (s : State) (d : Nat) (f : Die → Die) : (s.modDie d f).sch = s.sch := rfl
@[simp] theorem State.modDie_mem (s : State) (d : Nat) (f : Die → Die) : (s.modDie d f).mem = s.mem := rfl
@[simp] theorem State.modDie_fab (s : State) (d : Nat) (f : Die → Die) : (s.modDie d f).fab = s.fab := rfl
@[simp] theorem State.modDie_load (s : State) (d : Nat) (f : Die → Die) : (s.modDie d f).load = s.load := rfl
@[simp] theorem State.modDie_flt (s : State) (d : Nat) (f : Die → Die) : (s.modDie d f).flt = s.flt := rfl
@[simp] theorem State.modDie_sec (s : State) (d : Nat) (f : Die → Die) : (s.modDie d f).sec = s.sec := rfl
@[simp] theorem State.modDie_hrt (s : State) (d : Nat) (f : Die → Die) : (s.modDie d f).hrt = s.hrt := rfl
@[simp] theorem State.modDie_hif (s : State) (d : Nat) (f : Die → Die) : (s.modDie d f).hif = s.hif := rfl
@[simp] theorem State.modDie_remap (s : State) (d : Nat) (f : Die → Die) : (s.modDie d f).remap = s.remap := rfl
@[simp] theorem State.modDie_out (s : State) (d : Nat) (f : Die → Die) : (s.modDie d f).out = s.out := rfl
@[simp] theorem State.modDie_engines (s : State) (d : Nat) (f : Die → Die) : (s.modDie d f).engines = s.engines := rfl

/-! setBrm -/

@[simp] theorem State.setBrm_pending (s : State) (p : Nat) (b : Brm) : (s.setBrm p b).pending = s.pending := rfl
@[simp] theorem State.setBrm_free (s : State) (p : Nat) (b : Brm) : (s.setBrm p b).free = s.free := rfl
@[simp] theorem State.setBrm_time (s : State) (p : Nat) (b : Brm) : (s.setBrm p b).time = s.time := rfl
@[simp] theorem State.setBrm_tiles (s : State) (p : Nat) (b : Brm) : (s.setBrm p b).tiles = s.tiles := rfl
@[simp] theorem State.setBrm_brmDie (s : State) (p : Nat) (b : Brm) : (s.setBrm p b).brmDie = s.brmDie := rfl
@[simp] theorem State.setBrm_ctxs (s : State) (p : Nat) (b : Brm) : (s.setBrm p b).ctxs = s.ctxs := rfl
@[simp] theorem State.setBrm_queues (s : State) (p : Nat) (b : Brm) : (s.setBrm p b).queues = s.queues := rfl
@[simp] theorem State.setBrm_descs (s : State) (p : Nat) (b : Brm) : (s.setBrm p b).descs = s.descs := rfl
@[simp] theorem State.setBrm_nextDesc (s : State) (p : Nat) (b : Brm) : (s.setBrm p b).nextDesc = s.nextDesc := rfl
@[simp] theorem State.setBrm_sigs (s : State) (p : Nat) (b : Brm) : (s.setBrm p b).sigs = s.sigs := rfl
@[simp] theorem State.setBrm_lastStart (s : State) (p : Nat) (b : Brm) : (s.setBrm p b).lastStart = s.lastStart := rfl
@[simp] theorem State.setBrm_starts (s : State) (p : Nat) (b : Brm) : (s.setBrm p b).starts = s.starts := rfl
@[simp] theorem State.setBrm_stages (s : State) (p : Nat) (b : Brm) : (s.setBrm p b).stages = s.stages := rfl
@[simp] theorem State.setBrm_sch (s : State) (p : Nat) (b : Brm) : (s.setBrm p b).sch = s.sch := rfl
@[simp] theorem State.setBrm_mem (s : State) (p : Nat) (b : Brm) : (s.setBrm p b).mem = s.mem := rfl
@[simp] theorem State.setBrm_fab (s : State) (p : Nat) (b : Brm) : (s.setBrm p b).fab = s.fab := rfl
@[simp] theorem State.setBrm_load (s : State) (p : Nat) (b : Brm) : (s.setBrm p b).load = s.load := rfl
@[simp] theorem State.setBrm_flt (s : State) (p : Nat) (b : Brm) : (s.setBrm p b).flt = s.flt := rfl
@[simp] theorem State.setBrm_sec (s : State) (p : Nat) (b : Brm) : (s.setBrm p b).sec = s.sec := rfl
@[simp] theorem State.setBrm_hrt (s : State) (p : Nat) (b : Brm) : (s.setBrm p b).hrt = s.hrt := rfl
@[simp] theorem State.setBrm_hif (s : State) (p : Nat) (b : Brm) : (s.setBrm p b).hif = s.hif := rfl
@[simp] theorem State.setBrm_pwr (s : State) (p : Nat) (b : Brm) : (s.setBrm p b).pwr = s.pwr := rfl
@[simp] theorem State.setBrm_remap (s : State) (p : Nat) (b : Brm) : (s.setBrm p b).remap = s.remap := rfl
@[simp] theorem State.setBrm_out (s : State) (p : Nat) (b : Brm) : (s.setBrm p b).out = s.out := rfl
@[simp] theorem State.setBrm_engines (s : State) (p : Nat) (b : Brm) : (s.setBrm p b).engines = s.engines := rfl

/-! setHealth -/

@[simp] theorem State.setHealth_pending (s : State) (p : Nat) (h : Health) : (s.setHealth p h).pending = s.pending := rfl
@[simp] theorem State.setHealth_free (s : State) (p : Nat) (h : Health) : (s.setHealth p h).free = s.free := rfl
@[simp] theorem State.setHealth_time (s : State) (p : Nat) (h : Health) : (s.setHealth p h).time = s.time := rfl
@[simp] theorem State.setHealth_tiles (s : State) (p : Nat) (h : Health) : (s.setHealth p h).tiles = s.tiles := rfl
@[simp] theorem State.setHealth_brmDie (s : State) (p : Nat) (h : Health) : (s.setHealth p h).brmDie = s.brmDie := rfl
@[simp] theorem State.setHealth_brm (s : State) (p : Nat) (h : Health) : (s.setHealth p h).brm = s.brm := rfl
@[simp] theorem State.setHealth_ctxs (s : State) (p : Nat) (h : Health) : (s.setHealth p h).ctxs = s.ctxs := rfl
@[simp] theorem State.setHealth_queues (s : State) (p : Nat) (h : Health) : (s.setHealth p h).queues = s.queues := rfl
@[simp] theorem State.setHealth_descs (s : State) (p : Nat) (h : Health) : (s.setHealth p h).descs = s.descs := rfl
@[simp] theorem State.setHealth_nextDesc (s : State) (p : Nat) (h : Health) : (s.setHealth p h).nextDesc = s.nextDesc := rfl
@[simp] theorem State.setHealth_sigs (s : State) (p : Nat) (h : Health) : (s.setHealth p h).sigs = s.sigs := rfl
@[simp] theorem State.setHealth_lastStart (s : State) (p : Nat) (h : Health) : (s.setHealth p h).lastStart = s.lastStart := rfl
@[simp] theorem State.setHealth_starts (s : State) (p : Nat) (h : Health) : (s.setHealth p h).starts = s.starts := rfl
@[simp] theorem State.setHealth_stages (s : State) (p : Nat) (h : Health) : (s.setHealth p h).stages = s.stages := rfl
@[simp] theorem State.setHealth_sch (s : State) (p : Nat) (h : Health) : (s.setHealth p h).sch = s.sch := rfl
@[simp] theorem State.setHealth_mem (s : State) (p : Nat) (h : Health) : (s.setHealth p h).mem = s.mem := rfl
@[simp] theorem State.setHealth_fab (s : State) (p : Nat) (h : Health) : (s.setHealth p h).fab = s.fab := rfl
@[simp] theorem State.setHealth_load (s : State) (p : Nat) (h : Health) : (s.setHealth p h).load = s.load := rfl
@[simp] theorem State.setHealth_sec (s : State) (p : Nat) (h : Health) : (s.setHealth p h).sec = s.sec := rfl
@[simp] theorem State.setHealth_hrt (s : State) (p : Nat) (h : Health) : (s.setHealth p h).hrt = s.hrt := rfl
@[simp] theorem State.setHealth_hif (s : State) (p : Nat) (h : Health) : (s.setHealth p h).hif = s.hif := rfl
@[simp] theorem State.setHealth_pwr (s : State) (p : Nat) (h : Health) : (s.setHealth p h).pwr = s.pwr := rfl
@[simp] theorem State.setHealth_remap (s : State) (p : Nat) (h : Health) : (s.setHealth p h).remap = s.remap := rfl
@[simp] theorem State.setHealth_out (s : State) (p : Nat) (h : Health) : (s.setHealth p h).out = s.out := rfl
@[simp] theorem State.setHealth_engines (s : State) (p : Nat) (h : Health) : (s.setHealth p h).engines = s.engines := rfl

/-! event -/

@[simp] theorem State.event_pending (s : State) (e : EvRec) : (s.event e).pending = s.pending := rfl
@[simp] theorem State.event_free (s : State) (e : EvRec) : (s.event e).free = s.free := rfl
@[simp] theorem State.event_time (s : State) (e : EvRec) : (s.event e).time = s.time := rfl
@[simp] theorem State.event_tiles (s : State) (e : EvRec) : (s.event e).tiles = s.tiles := rfl
@[simp] theorem State.event_brmDie (s : State) (e : EvRec) : (s.event e).brmDie = s.brmDie := rfl
@[simp] theorem State.event_brm (s : State) (e : EvRec) : (s.event e).brm = s.brm := rfl
@[simp] theorem State.event_ctxs (s : State) (e : EvRec) : (s.event e).ctxs = s.ctxs := rfl
@[simp] theorem State.event_queues (s : State) (e : EvRec) : (s.event e).queues = s.queues := rfl
@[simp] theorem State.event_descs (s : State) (e : EvRec) : (s.event e).descs = s.descs := rfl
@[simp] theorem State.event_nextDesc (s : State) (e : EvRec) : (s.event e).nextDesc = s.nextDesc := rfl
@[simp] theorem State.event_sigs (s : State) (e : EvRec) : (s.event e).sigs = s.sigs := rfl
@[simp] theorem State.event_lastStart (s : State) (e : EvRec) : (s.event e).lastStart = s.lastStart := rfl
@[simp] theorem State.event_starts (s : State) (e : EvRec) : (s.event e).starts = s.starts := rfl
@[simp] theorem State.event_stages (s : State) (e : EvRec) : (s.event e).stages = s.stages := rfl
@[simp] theorem State.event_sch (s : State) (e : EvRec) : (s.event e).sch = s.sch := rfl
@[simp] theorem State.event_mem (s : State) (e : EvRec) : (s.event e).mem = s.mem := rfl
@[simp] theorem State.event_fab (s : State) (e : EvRec) : (s.event e).fab = s.fab := rfl
@[simp] theorem State.event_load (s : State) (e : EvRec) : (s.event e).load = s.load := rfl
@[simp] theorem State.event_flt (s : State) (e : EvRec) : (s.event e).flt = s.flt := rfl
@[simp] theorem State.event_sec (s : State) (e : EvRec) : (s.event e).sec = s.sec := rfl
@[simp] theorem State.event_hrt (s : State) (e : EvRec) : (s.event e).hrt = s.hrt.submit s.sec.fine e s.now := rfl
@[simp] theorem State.event_hif (s : State) (e : EvRec) : (s.event e).hif = s.hif := rfl
@[simp] theorem State.event_pwr (s : State) (e : EvRec) : (s.event e).pwr = s.pwr := rfl
@[simp] theorem State.event_remap (s : State) (e : EvRec) : (s.event e).remap = s.remap := rfl
@[simp] theorem State.event_out (s : State) (e : EvRec) : (s.event e).out = s.out := rfl
@[simp] theorem State.event_engines (s : State) (e : EvRec) : (s.event e).engines = s.engines := rfl

/-! ev -/

@[simp] theorem State.ev_pending (s : State) (a b c d e : Nat) : (s.ev a b c d e).pending = s.pending := rfl
@[simp] theorem State.ev_free (s : State) (a b c d e : Nat) : (s.ev a b c d e).free = s.free := rfl
@[simp] theorem State.ev_time (s : State) (a b c d e : Nat) : (s.ev a b c d e).time = s.time := rfl
@[simp] theorem State.ev_tiles (s : State) (a b c d e : Nat) : (s.ev a b c d e).tiles = s.tiles := rfl
@[simp] theorem State.ev_brmDie (s : State) (a b c d e : Nat) : (s.ev a b c d e).brmDie = s.brmDie := rfl
@[simp] theorem State.ev_brm (s : State) (a b c d e : Nat) : (s.ev a b c d e).brm = s.brm := rfl
@[simp] theorem State.ev_ctxs (s : State) (a b c d e : Nat) : (s.ev a b c d e).ctxs = s.ctxs := rfl
@[simp] theorem State.ev_queues (s : State) (a b c d e : Nat) : (s.ev a b c d e).queues = s.queues := rfl
@[simp] theorem State.ev_descs (s : State) (a b c d e : Nat) : (s.ev a b c d e).descs = s.descs := rfl
@[simp] theorem State.ev_nextDesc (s : State) (a b c d e : Nat) : (s.ev a b c d e).nextDesc = s.nextDesc := rfl
@[simp] theorem State.ev_sigs (s : State) (a b c d e : Nat) : (s.ev a b c d e).sigs = s.sigs := rfl
@[simp] theorem State.ev_lastStart (s : State) (a b c d e : Nat) : (s.ev a b c d e).lastStart = s.lastStart := rfl
@[simp] theorem State.ev_starts (s : State) (a b c d e : Nat) : (s.ev a b c d e).starts = s.starts := rfl
@[simp] theorem State.ev_stages (s : State) (a b c d e : Nat) : (s.ev a b c d e).stages = s.stages := rfl
@[simp] theorem State.ev_sch (s : State) (a b c d e : Nat) : (s.ev a b c d e).sch = s.sch := rfl
@[simp] theorem State.ev_mem (s : State) (a b c d e : Nat) : (s.ev a b c d e).mem = s.mem := rfl
@[simp] theorem State.ev_fab (s : State) (a b c d e : Nat) : (s.ev a b c d e).fab = s.fab := rfl
@[simp] theorem State.ev_load (s : State) (a b c d e : Nat) : (s.ev a b c d e).load = s.load := rfl
@[simp] theorem State.ev_flt (s : State) (a b c d e : Nat) : (s.ev a b c d e).flt = s.flt := rfl
@[simp] theorem State.ev_sec (s : State) (a b c d e : Nat) : (s.ev a b c d e).sec = s.sec := rfl
@[simp] theorem State.ev_hif (s : State) (a b c d e : Nat) : (s.ev a b c d e).hif = s.hif := rfl
@[simp] theorem State.ev_pwr (s : State) (a b c d e : Nat) : (s.ev a b c d e).pwr = s.pwr := rfl
@[simp] theorem State.ev_remap (s : State) (a b c d e : Nat) : (s.ev a b c d e).remap = s.remap := rfl
@[simp] theorem State.ev_out (s : State) (a b c d e : Nat) : (s.ev a b c d e).out = s.out := rfl
@[simp] theorem State.ev_engines (s : State) (a b c d e : Nat) : (s.ev a b c d e).engines = s.engines := rfl

end Sys2Proof.Machine
end

