-- ==== Sys2Proof/Laws/Tile.lean ====
section
/-! SUPPORT. Operations on one tile: what the guard, the issue of an instruction and the run of a unit come to. -/
namespace Sys2Proof.Machine

/-- A well-formed command has its effect. -/
theorem guardWf_next {ok : Bool} {s t : State} (h : ok = true) : guardWf ok s t = .next t := by simp [guardWf, h]

/-- A command that is not well formed changes nothing. -/
theorem guardWf_stay {ok : Bool} {s t : State} (h : ok = false) : guardWf ok s t = .next s := by simp [guardWf, h]

/-- The guard answers a next state: the effect's, or the state as it was. -/
theorem guardWf_eq_next {ok : Bool} {s t u : State} : guardWf ok s t = .next u ↔ (if ok then t else s) = u := by
  simp [guardWf]

@[simp] theorem State.ptile_setPtile_self (s : State) (p : Nat) (t : Tile) : (s.setPtile p t).ptile p = t :=
  SMap.getD_setD_self s.tiles p t Tile.reset

theorem State.ptile_setPtile_ne (s : State) {p q : Nat} (t : Tile) (h : q ≠ p) : (s.setPtile p t).ptile q = s.ptile q :=
  SMap.getD_setD_ne s.tiles t Tile.reset h

/-- The note of a wait changes only when waits began and which have ended. -/
theorem State.noteWait_eq (s : State) (p l : Nat) (a b : Tile) :
    s.noteWait p l a b = { s with flt := { s.flt with
      waitAt := (s.noteWait p l a b).flt.waitAt, ended := (s.noteWait p l a b).flt.ended } } := by
  unfold State.noteWait; (repeat' split) <;> rfl

/-- A tile that waited for nothing and waits for nothing leaves no note. -/
theorem State.noteWait_none (s : State) (p l : Nat) {a b : Tile} (ha : a.wait = none) (hb : b.wait = none) :
    s.noteWait p l a b = s := by
  simp [State.noteWait, ha, hb]

/-- A unit that asks nothing of the block stores its tile and notes its wait. -/
theorem State.onTile_quiet {s : State} {l p : Nat} {f : Tile → TStep} (hp : s.phys l = some p)
    (hf : (f (s.ptile p)).2 = []) :
    s.onTile l f = (s.setPtile p (f (s.ptile p)).1).noteWait p l (s.ptile p) (f (s.ptile p)).1 := by
  simp [State.onTile, hp, hf]

/-- An unmapped tile has no units. -/
theorem State.onTile_unmapped {s : State} {l : Nat} {f : Tile → TStep} (hp : s.phys l = none) : s.onTile l f = s := by
  simp [State.onTile, hp]

/-- A tile that may issue and finds an instruction of the command's opcode runs it. -/
theorem State.issue_instr {s : State} {l p w len : Nat} {op : Nat → Bool} {f : State → Tile → Nat → Nat → State}
    (hp : s.phys l = some p) (hm : s.mayIssue l (s.ptile p) = true) (hi : (s.ptile p).fetch = .instr w len)
    (ho : op (nbits w 0 8) = true) : s.issue l op f = f s (s.ptile p) w len := by
  simp [State.issue, hp, hm, hi, ho]

end Sys2Proof.Machine
end

