-- ==== Sys2Proof/Tests/Slice0.lean ====
section
/-! SUPPORT. Tests: ill-formed commands are refused, and each statement's hypotheses can be met. -/
section
open Sys2Proof Sys2Proof.Machine
set_option maxRecDepth 20000
set_option linter.unusedVariables false

namespace Sys2Proof.Tests

/-- The block powered up, its link up, with one context in partition 0. -/
def wOn : State :=
  { State.reset with
    pwr := { Pwr.reset with dom := .on }
    hif := { Hif.reset with linkUp := true, busMaster := true, agreed := 1 }
    load := { Load.reset with frame := true, program := true, prects := [⟨0, 0, 0, 0, 0, 0, 0⟩] }
    ctxs := [(0, Ctx.fresh 0 none 0)] }

/-- One tile in use: logical and physical tile 0, held by context 0. -/
def wTile (t : Tile) : State := { wOn with tiles := [(0, { t with ctx := some 0 })] }

/-- A tile whose program stands before an instruction of `n` bytes. -/
def wAt (w n : Nat) (t : Tile) : State := wTile { t with spd := Mem.wrN [] 0 (leBytes n w), cpState := .running }

/-- Launch group 0 is tile 0 of die 0, and the step group of context 0. -/
def wStep (s : State) : State :=
  { s with load := { s.load with lrects := [⟨0, 0, 0, 0, 0, 0, 0⟩] }, ctxs := [(0, Ctx.fresh 0 (some 0) 0)] }

/-- 32 bytes of key. -/
def wKey (b : Byte) : List Byte := List.replicate 32 b

/-- A running LAUNCH of context 0 from queue 0. -/
def wLaunch (left : List Nat) : Desc :=
  ⟨.queue 0 0, ⟨0, 1, 1, 0, 0, 0, 0, 0⟩, .launch 0 0 [] left 0, .running, .ok, 0, false, none, false, none, none, none⟩

/-- A descriptor of 64 bytes: fields by offset, size and value, zeros elsewhere. -/
def wEntry (fs : List (Nat × Nat × Nat)) : List Byte :=
  fs.foldl (fun b f => putBytes b f.1 (leBytes f.2.1 f.2.2)) (List.replicate 64 0)

/-- MOVE_FILL of 32 bytes of zeros at local address 0, for context 0. -/
def wMove : List Byte := wEntry [(0, 4, 0x221), (0x24, 4, 32), (0x28, 4, 1)]

/-- A dispatch queue of context 0 with one entry, its ring in host memory. -/
def wQ : Queue := { Queue.reset with bound := true, base := 0x400000000000, rsz := 4, tail := 1, enable := true }

/-- The module TENANTED, queue 0 ready to be fetched from. -/
def wQueue : State := { wOn with queues := [(0, wQ)], sec := { Sec.reset with st := .tenanted, memKeys := true } }

/-- Device 1 of group 0, its port 0 UP towards device 2, both fabric keys held. -/
def wFab : State :=
  { wQueue with
    sec := { wQueue.sec with ofab := some (wKey 1), tfab := some (wKey 2) }
    fab := { Fab.reset with
      idValid := true, pos := 1, sysid := 7, primary := 0, dmax := 10
      ports := [(0, { Port.reset with en := true, state := .up, light := 31, peerDev := 2 })]
      locals := [(2, ⟨true, 0, false, 0⟩)]
      cgroups := [(0, ⟨0, 1, [2, 1]⟩)] } }

/-- Its port 0 in a state. -/
def wPort (f : Port → Port) : State := { wFab with fab := { wFab.fab with ports := [(0, f (wFab.fab.port 0))] } }

/-- A packet from device 2 to this device. -/
def wPkt (cls op : Nat) (seq : W32) (addr aux : Nat) (pay : List W32) : Packet := mkPacket cls op 2 1 0 0 seq addr aux pay

/-- The packet has been received on port 0. -/
def wRx (k : Packet) : State := wPort fun x => { x with rxPkts := [k] }

/-- A schedule table in effect: one entry of 5,000 ns at 0 on partition 0 for serving context 0, cycle 10,000. -/
def wSch (x : Ctx) (d : Desc) : State :=
  { wQueue with
    sch := { Sch.reset with bankA := Mem.wrN (Mem.wrN (Mem.wrN [] 0 (leBytes 4 10000)) 4 (leBytes 4 1)) 0x104 (leBytes 4 5000) }
    ctxs := [(0, { x with serve := true })]
    descs := [(0, d)] }

/-- COLL address of group 0, rank 0, tensor 5, format H16. -/
def wCollAddr : Nat := 5 + 2 * 2 ^ 40

/-- The Hearth runs; session 0 is the owner's, session 1 the tenant's. -/
def wSec (st : SecSt) : State :=
  { wQueue with
    hrt := { Hrt.reset with ready := true }
    sec := { wQueue.sec with
      st := st, owner := some [1], tkey := some [2], maint := some [3], ofab := some (wKey 4), tfab := some (wKey 5)
      sessions := [(0, ⟨some [1], 8, false⟩), (1, ⟨some [2], 9, false⟩)] } }

/-- A Gauntlet command with a body of `n` bytes in a session. -/
def wReq (cmd n sess : Nat) : GReq := ⟨BitVec.ofNat 32 (cmd + 0x100), List.replicate n 0, some sess⟩

/-- A packet sealed under its class's key and received meets every check that its header meets. -/
theorem wit_in {s : State} {p : Nat} {k : Packet} {key : List Byte} {cls op : Nat} (hk : key.length = 32)
    (hs : s.sealKey k.cls = some key) (hh : (s.fab.port p).rxPkts.head? = some (k.seal key))
    (h : portOk p = true ∧ k.hdr.length = 8 ∧ k.pay.length ≤ 255 ∧ (k.seal key).cls = cls ∧ (k.seal key).op = op ∧
      s.fab.route false (k.seal key) = .deliver ∧ (p = 3 → cls = 3 ∨ cls = 5) ∧
      ({ k with tag := (k.seal key).tag } : Packet).check = none ∧
      (cls = 3 ∨ cls = 5 ∨ (s.wrongEpoch { k with tag := (k.seal key).tag } = false ∧ s.srcFenced { k with tag := (k.seal key).tag } = false))) :
    PacketIn s p (k.seal key) { k with tag := (k.seal key).tag } cls op :=
  ⟨h.1, packetOk_seal key h.2.1 h.2.2.1, decide_eq_true hh, h.2.2.2.1, h.2.2.2.2.1, h.2.2.2.2.2.1, h.2.2.2.2.2.2.1,
    s.opened_seal k hk hs, h.2.2.2.2.2.2.2.1, h.2.2.2.2.2.2.2.2⟩

end Sys2Proof.Tests

open Sys2Proof.Tests

theorem test_wit_StepRunsFrontCommand : ({ State.reset with pending := [.cycleBoundary] } : State).pending = .cycleBoundary :: [] := by decide
theorem test_wit_AnvPassIsAcceptedOrFaults_1 :
  let s : State := wAt (0x10 + 0x11 * 2 ^ 8 + 2 ^ 16 + 2 ^ 23 + 2 ^ 28 + 2 ^ 48) 16 Tile.reset
  let l : Nat := 0
  let p : Nat := 0
  let w : Nat := 0x10 + 0x11 * 2 ^ 8 + 2 ^ 16 + 2 ^ 23 + 2 ^ 28 + 2 ^ 48
  let q : AnvPass := ⟨1, 1, 1, 0, 0, 0, 0, false, true, false, false, 0, .w16, .w16⟩
  (AtInstr s l p 0x10 w 16) ∧
    ((anvCheck (s.ptile p) (broadcastTile l) w).toOption = some q) ∧
    ((s.ptile p).anvFull = false) := by decide

theorem test_wit_AnvPassIsAcceptedOrFaults_2 :
  let s : State := wAt (0x10 + 2 ^ 58) 16 Tile.reset
  let l : Nat := 0
  let p : Nat := 0
  let w : Nat := 0x10 + 2 ^ 58
  let e : Status := .rsvdSet
  (AtInstr s l p 0x10 w 16) ∧
    ((match anvCheck (s.ptile p) (broadcastTile l) w with | .error x => some x | .ok _ => none) = some e) := by decide

theorem test_wit_AnvilLoadsAndIssues_1 :
  let s : State := wTile { Tile.reset with anvJobs := [⟨⟨1, 1, 1, 0, 0, 0, 0, false, true, false, false, 0, .w16, .w16⟩, 0, 0, false, false, [], 0, 0, 0, 0, 12, 1⟩] }
  let l : Nat := 0
  let p : Nat := 0
  let i : Nat := 0
  let j : AnvJob := ⟨⟨1, 1, 1, 0, 0, 0, 0, false, true, false, false, 0, .w16, .w16⟩, 0, 0, false, false, [], 0, 0, 0, 0, 12, 1⟩
  (l < 25600) ∧
    (s.phys l = some p) ∧
    ((s.ptile p).anvLoadDue = some (i, j)) ∧
    ((s.ptile p).spdUeIn j.pass.wAddr (imageBytes j.pass.wfmt) = 0) := by decide

theorem test_wit_AnvilLoadsAndIssues_2 :
  let s : State := wTile { Tile.reset with anvJobs := [⟨⟨1, 1, 1, 0, 0, 0, 0, false, true, false, false, 0, .w16, .w16⟩, 0, 0, true, false, [], 0, 0, 0, 0, 12, 1⟩], anvPending := some ⟨.w16, 1, 1, [], [0]⟩ }
  let l : Nat := 0
  let p : Nat := 0
  let i : Nat := 0
  let j : AnvJob := ⟨⟨1, 1, 1, 0, 0, 0, 0, false, true, false, false, 0, .w16, .w16⟩, 0, 0, true, false, [], 0, 0, 0, 0, 12, 1⟩
  let b : WBlock := ⟨.w16, 1, 1, [], [0]⟩
  (l < 25600) ∧
    (s.phys l = some p) ∧
    ((s.ptile p).spdUe = []) ∧
    ((s.ptile p).anvJobs.findIdx? (fun j => !j.issued) = some i) ∧
    ((s.ptile p).anvJobs[i]? = some j) ∧
    ((if j.pass.neww then (if j.loaded then (s.ptile p).anvPending else none) else (s.ptile p).anvActive) = some b) := by decide

theorem test_wit_AnvilLandsChecksAndCompletes_1 :
  let s : State := wTile { Tile.reset with anvJobs := [⟨⟨1, 1, 1, 0, 0, 0, 0, false, true, false, false, 0, .w16, .w16⟩, 0, 0, true, true, [⟨[0x3F800000], 0x3F800000, false⟩], 0, 0, 0, 0, 12, 1⟩] }
  let l : Nat := 0
  let p : Nat := 0
  let i : Nat := 0
  let r : Nat := 0
  let errs : List (Nat × W32) := []
  let j : AnvJob := ⟨⟨1, 1, 1, 0, 0, 0, 0, false, true, false, false, 0, .w16, .w16⟩, 0, 0, true, true, [⟨[0x3F800000], 0x3F800000, false⟩], 0, 0, 0, 0, 12, 1⟩
  (l < 25600) ∧
    ((errs.all fun x => decide (x.1 ≤ 16)) = true) ∧
    (s.phys l = some p) ∧
    ((s.ptile p).landDue = some (i, j, r)) ∧
    (j.pass.k ≠ 0) ∧
    ((s.ptile p).accUe = []) ∧
    ((injectErr (j.rows.getD j.landed ⟨[], 0, true⟩) errs).ue = false) ∧
    (abftCompare j.tol.toNat (injectErr (j.rows.getD j.landed ⟨[], 0, true⟩) errs).p (injectErr (j.rows.getD j.landed ⟨[], 0, true⟩) errs).c = some false) := by decide

theorem test_wit_AnvilLandsChecksAndCompletes_1_2 :
  let s : State := wTile { Tile.reset with anvJobs := [⟨⟨1, 1, 1, 0, 0, 0, 0, false, true, false, false, 0, .w16, .w16⟩, 0, 0, true, true, [⟨[0x3F800000], 0x3F800000, false⟩], 0, 0, 0, 0, 12, 1⟩] }
  let l : Nat := 0
  let p : Nat := 0
  let i : Nat := 0
  let r : Nat := 0
  let errs : List (Nat × W32) := [(16, 0)]
  let j : AnvJob := ⟨⟨1, 1, 1, 0, 0, 0, 0, false, true, false, false, 0, .w16, .w16⟩, 0, 0, true, true, [⟨[0x3F800000], 0x3F800000, false⟩], 0, 0, 0, 0, 12, 1⟩
  (l < 25600) ∧
    ((errs.all fun x => decide (x.1 ≤ 16)) = true) ∧
    (s.phys l = some p) ∧
    ((s.ptile p).landDue = some (i, j, r)) ∧
    (j.pass.k ≠ 0) ∧
    ((s.ptile p).accUe = []) ∧
    ((injectErr (j.rows.getD j.landed ⟨[], 0, true⟩) errs).ue = false) ∧
    (abftCompare j.tol.toNat (injectErr (j.rows.getD j.landed ⟨[], 0, true⟩) errs).p (injectErr (j.rows.getD j.landed ⟨[], 0, true⟩) errs).c = some false) := by decide

theorem test_wit_AnvilLandsChecksAndCompletes_2 :
  let s : State := wTile { Tile.reset with anvJobs := [⟨⟨1, 1, 1, 0, 0, 0, 0, false, true, false, false, 0, .w16, .w16⟩, 0, 0, true, true, [⟨[0x7F800000], 0x3F800000, false⟩], 0, 0, 0, 0, 12, 1⟩] }
  let l : Nat := 0
  let p : Nat := 0
  let i : Nat := 0
  let r : Nat := 0
  let errs : List (Nat × W32) := []
  let j : AnvJob := ⟨⟨1, 1, 1, 0, 0, 0, 0, false, true, false, false, 0, .w16, .w16⟩, 0, 0, true, true, [⟨[0x7F800000], 0x3F800000, false⟩], 0, 0, 0, 0, 12, 1⟩
  (l < 25600) ∧
    ((errs.all fun x => decide (x.1 ≤ 16)) = true) ∧
    (s.phys l = some p) ∧
    ((s.ptile p).landDue = some (i, j, r)) ∧
    (j.pass.k ≠ 0) ∧
    ((s.ptile p).accUe = []) ∧
    ((injectErr (j.rows.getD j.landed ⟨[], 0, true⟩) errs).ue = false) ∧
    (abftCompare j.tol.toNat (injectErr (j.rows.getD j.landed ⟨[], 0, true⟩) errs).p (injectErr (j.rows.getD j.landed ⟨[], 0, true⟩) errs).c = none) := by decide

theorem test_wit_AnvilLandsChecksAndCompletes_3 :
  let s : State := wTile { Tile.reset with anvJobs := [⟨⟨1, 1, 0, 0, 0, 0, 0, false, true, false, false, 0, .w16, .w16⟩, 0, 0, true, true, [⟨[0], 0x3F800000, false⟩], 0, 0, 0, 0, 12, 1⟩] }
  let l : Nat := 0
  let p : Nat := 0
  let i : Nat := 0
  let r : Nat := 0
  let errs : List (Nat × W32) := []
  let j : AnvJob := ⟨⟨1, 1, 0, 0, 0, 0, 0, false, true, false, false, 0, .w16, .w16⟩, 0, 0, true, true, [⟨[0], 0x3F800000, false⟩], 0, 0, 0, 0, 12, 1⟩
  (l < 25600) ∧
    ((errs.all fun x => decide (x.1 ≤ 16)) = true) ∧
    (s.phys l = some p) ∧
    ((s.ptile p).landDue = some (i, j, r)) ∧
    (j.pass.k = 0) := by decide

theorem test_wit_AnvilLandsChecksAndCompletes_4 :
  let s : State := wTile { Tile.reset with anvJobs := [⟨⟨1, 1, 1, 0, 0, 0, 0, false, true, false, false, 0, .w16, .w16⟩, 0, 0, true, true, [], 1, 0, 0, 0, 12, 1⟩] }
  let l : Nat := 0
  let p : Nat := 0
  let j : AnvJob := ⟨⟨1, 1, 1, 0, 0, 0, 0, false, true, false, false, 0, .w16, .w16⟩, 0, 0, true, true, [], 1, 0, 0, 0, 12, 1⟩
  let js : List AnvJob := []
  (l < 25600) ∧
    (s.phys l = some p) ∧
    ((s.ptile p).anvJobs = j :: js) ∧
    (j.issued = true) ∧
    (j.due = 0) ∧
    (j.mism = 0) := by decide

theorem test_wit_AnvilLandsChecksAndCompletes_5 :
  let s : State := wTile { Tile.reset with anvJobs := [⟨⟨1, 1, 1, 0, 0, 0, 0, false, true, false, false, 0, .w16, .w16⟩, 0, 0, true, true, [⟨[0x40000000], 0x3F800000, false⟩], 0, 0, 0, 0, 12, 1⟩] }
  let l : Nat := 0
  let p : Nat := 0
  let i : Nat := 0
  let r : Nat := 0
  let errs : List (Nat × W32) := []
  let j : AnvJob := ⟨⟨1, 1, 1, 0, 0, 0, 0, false, true, false, false, 0, .w16, .w16⟩, 0, 0, true, true, [⟨[0x40000000], 0x3F800000, false⟩], 0, 0, 0, 0, 12, 1⟩
  (l < 25600) ∧
    ((errs.all fun x => decide (x.1 ≤ 16)) = true) ∧
    (s.phys l = some p) ∧
    ((s.ptile p).landDue = some (i, j, r)) ∧
    (j.pass.k ≠ 0) ∧
    ((s.ptile p).accUe = []) ∧
    ((injectErr (j.rows.getD j.landed ⟨[], 0, true⟩) errs).ue = false) ∧
    (j.pass.acc = false) ∧
    (j.act ≠ 2) ∧
    (abftCompare j.tol.toNat (injectErr (j.rows.getD j.landed ⟨[], 0, true⟩) errs).p (injectErr (j.rows.getD j.landed ⟨[], 0, true⟩) errs).c = some true) := by decide

theorem test_wit_AnvilLandsChecksAndCompletes_5_2 :
  let s : State := wTile { Tile.reset with anvJobs := [⟨⟨1, 1, 1, 0, 0, 0, 0, false, true, false, false, 0, .w16, .w16⟩, 0, 0, true, true, [⟨[0x40000000], 0x3F800000, false⟩], 0, 0, 0, 0, 12, 0⟩] }
  let l : Nat := 0
  let p : Nat := 0
  let i : Nat := 0
  let r : Nat := 0
  let errs : List (Nat × W32) := []
  let j : AnvJob := ⟨⟨1, 1, 1, 0, 0, 0, 0, false, true, false, false, 0, .w16, .w16⟩, 0, 0, true, true, [⟨[0x40000000], 0x3F800000, false⟩], 0, 0, 0, 0, 12, 0⟩
  (l < 25600) ∧
    ((errs.all fun x => decide (x.1 ≤ 16)) = true) ∧
    (s.phys l = some p) ∧
    ((s.ptile p).landDue = some (i, j, r)) ∧
    (j.pass.k ≠ 0) ∧
    ((s.ptile p).accUe = []) ∧
    ((injectErr (j.rows.getD j.landed ⟨[], 0, true⟩) errs).ue = false) ∧
    (j.pass.acc = false) ∧
    (j.act ≠ 2) ∧
    (abftCompare j.tol.toNat (injectErr (j.rows.getD j.landed ⟨[], 0, true⟩) errs).p (injectErr (j.rows.getD j.landed ⟨[], 0, true⟩) errs).c = some true) := by decide

theorem test_wit_AnvilLandsChecksAndCompletes_6 :
  let s : State := wTile { Tile.reset with cpState := .running, anvJobs := [⟨⟨1, 1, 1, 0, 0, 0, 0, false, true, false, false, 0, .w16, .w16⟩, 0, 0, true, true, [⟨[0x40000000], 0x3F800000, false⟩], 0, 0, 0, 0, 12, 2⟩] }
  let l : Nat := 0
  let p : Nat := 0
  let i : Nat := 0
  let r : Nat := 0
  let errs : List (Nat × W32) := []
  let j : AnvJob := ⟨⟨1, 1, 1, 0, 0, 0, 0, false, true, false, false, 0, .w16, .w16⟩, 0, 0, true, true, [⟨[0x40000000], 0x3F800000, false⟩], 0, 0, 0, 0, 12, 2⟩
  (l < 25600) ∧
    ((errs.all fun x => decide (x.1 ≤ 16)) = true) ∧
    (s.phys l = some p) ∧
    ((s.ptile p).landDue = some (i, j, r)) ∧
    (j.pass.k ≠ 0) ∧
    ((s.ptile p).accUe = []) ∧
    ((injectErr (j.rows.getD j.landed ⟨[], 0, true⟩) errs).ue = false) ∧
    (j.pass.acc = false) ∧
    (j.act = 2) ∧
    ((s.ptile p).cpState = .running) ∧
    (abftCompare j.tol.toNat (injectErr (j.rows.getD j.landed ⟨[], 0, true⟩) errs).p (injectErr (j.rows.getD j.landed ⟨[], 0, true⟩) errs).c = some true) := by decide

theorem test_wit_VectorInstructionsAreAccepted_1 :
  let s : State := wAt (0x20 + 2 * 2 ^ 8 + 4 * 2 ^ 27 + 16 * 2 ^ 62 + 2 * 2 ^ 122 + 15 * 2 ^ 128) 32 Tile.reset
  let l : Nat := 0
  let p : Nat := 0
  let w : Nat := 0x20 + 2 * 2 ^ 8 + 4 * 2 ^ 27 + 16 * 2 ^ 62 + 2 * 2 ^ 122 + 15 * 2 ^ 128
  let q : VecOp := ⟨0, false, false, .acc, .f32, 0, 0, .none, .f32, 0, .acc, .f32, 16, 0, 4, 15, 0, false, 0, false, false, 0, 0⟩
  (AtInstr s l p 0x20 w 32) ∧
    ((vecMapCheck w).toOption = some q) ∧
    ((s.ptile p).vecFull = false) ∧
    (q.srst = false) := by decide

theorem test_wit_VectorInstructionsAreAccepted_2 :
  let s : State := wAt (0x22 + 2 * 2 ^ 8 + 4 * 2 ^ 27 + 15 * 2 ^ 128) 32 Tile.reset
  let l : Nat := 0
  let p : Nat := 0
  let w : Nat := 0x22 + 2 * 2 ^ 8 + 4 * 2 ^ 27 + 15 * 2 ^ 128
  let q : VecOp := ⟨0, true, false, .acc, .f32, 0, 0, .none, .f32, 0, .spd, .w16, 0, 0, 4, 15, 0, false, 0, false, false, 0, 0⟩
  (AtInstr s l p 0x22 w 32) ∧
    ((vecSrstCheck w).toOption = some q) ∧
    ((s.ptile p).vecFull = false) ∧
    (q.srst = true) := by decide

theorem test_wit_VectorInstructionsAreAccepted_3 :
  let s : State := wAt (0x21 + 5 * 2 ^ 14) 16 { Tile.reset with slots := [(0, { Slot.reset with max := 0x3F800000, valid := true })] }
  let l : Nat := 0
  let p : Nat := 0
  let w : Nat := 0x21 + 5 * 2 ^ 14
  let q : VecOp := ⟨0, false, true, .none, .f32, 0, 0, .none, .f32, 0, .acc, .f32, 5, 0, 1, 1, 0, false, 0, false, false, 0, 0⟩
  (AtInstr s l p 0x21 w 16) ∧
    ((vecSmvCheck w).toOption = some q) ∧
    ((s.ptile p).smvEmpty q = false) ∧
    ((s.ptile p).vecFull = false) ∧
    (q.srst = false) := by decide

theorem test_wit_VectorGroupsVotesAndDeposits_1 :
  let s : State := wTile { Tile.reset with acc := [(0, 0x3F800000)], vecJobs := [⟨⟨0, false, false, .acc, .f32, 0, 0, .none, .f32, 0, .acc, .f32, 16, 0, 4, 15, 0, false, 0, false, true, 0, 0⟩, 0, 0, 0, none, some true, none, SumAcc.empty, none, false, 0⟩] }
  let l : Nat := 0
  let p : Nat := 0
  let k : Nat := 0
  let c : Nat := 0
  let j : VecJob := ⟨⟨0, false, false, .acc, .f32, 0, 0, .none, .f32, 0, .acc, .f32, 16, 0, 4, 15, 0, false, 0, false, true, 0, 0⟩, 0, 0, 0, none, some true, none, SumAcc.empty, none, false, 0⟩
  let x : Ctx := Ctx.fresh 0 none 0
  (l < 25600) ∧
    (s.phys l = some p) ∧
    ((s.ptile p).ctx = some c) ∧
    (s.ctx? c = some x) ∧
    ((s.ptile p).spdUe = []) ∧
    ((s.ptile p).accUe = []) ∧
    ((s.ptile p).vecNext = some k) ∧
    ((s.ptile p).vecJobs[k]? = some j) ∧
    (j.vote.isSome = true) ∧
    ((s.ptile p).groupFree j = true) ∧
    (j.op.smv = false) ∧
    (j.op.grad = true) := by decide

theorem test_wit_VectorGroupsVotesAndDeposits_2 :
  let s : State := wTile { Tile.reset with acc := [(0, 0x3F800000)], vecJobs := [⟨⟨0, false, false, .acc, .f32, 0, 0, .none, .f32, 0, .acc, .f32, 16, 0, 4, 15, 0, false, 0, false, false, 0, 0⟩, 0, 0, 0, none, some true, none, SumAcc.empty, none, false, 0⟩] }
  let l : Nat := 0
  let p : Nat := 0
  let k : Nat := 0
  let c : Nat := 0
  let j : VecJob := ⟨⟨0, false, false, .acc, .f32, 0, 0, .none, .f32, 0, .acc, .f32, 16, 0, 4, 15, 0, false, 0, false, false, 0, 0⟩, 0, 0, 0, none, some true, none, SumAcc.empty, none, false, 0⟩
  let x : Ctx := Ctx.fresh 0 none 0
  (l < 25600) ∧
    (s.phys l = some p) ∧
    ((s.ptile p).ctx = some c) ∧
    (s.ctx? c = some x) ∧
    ((s.ptile p).spdUe = []) ∧
    ((s.ptile p).accUe = []) ∧
    ((s.ptile p).vecNext = some k) ∧
    ((s.ptile p).vecJobs[k]? = some j) ∧
    (j.vote.isSome = true) ∧
    ((s.ptile p).groupFree j = true) ∧
    (j.op.smv = false) ∧
    (j.op.grad = false) := by decide

theorem test_wit_VectorGroupsVotesAndDeposits_2_2 :
  let s : State := wTile { Tile.reset with acc := [(0, 0x3F800000)], vecJobs := [⟨⟨0, false, false, .acc, .f32, 0, 0, .scalar, .f32, 0, .acc, .f32, 16, 0, 4, 15, 0, false, 0, false, false, 0, 0⟩, 0, 0, 0, none, some true, none, SumAcc.empty, none, false, 0⟩] }
  let l : Nat := 0
  let p : Nat := 0
  let k : Nat := 0
  let c : Nat := 0
  let j : VecJob := ⟨⟨0, false, false, .acc, .f32, 0, 0, .scalar, .f32, 0, .acc, .f32, 16, 0, 4, 15, 0, false, 0, false, false, 0, 0⟩, 0, 0, 0, none, some true, none, SumAcc.empty, none, false, 0⟩
  let x : Ctx := Ctx.fresh 0 none 0
  (l < 25600) ∧
    (s.phys l = some p) ∧
    ((s.ptile p).ctx = some c) ∧
    (s.ctx? c = some x) ∧
    ((s.ptile p).spdUe = []) ∧
    ((s.ptile p).accUe = []) ∧
    ((s.ptile p).vecNext = some k) ∧
    ((s.ptile p).vecJobs[k]? = some j) ∧
    (j.vote.isSome = true) ∧
    ((s.ptile p).groupFree j = true) ∧
    (j.op.smv = false) ∧
    (j.op.grad = false) := by decide

theorem test_wit_VectorGroupsVotesAndDeposits_3 :
  let s : State := wTile { Tile.reset with slots := [(0, { Slot.reset with max := 0x3F800000, valid := true })], vecJobs := [⟨⟨0, false, true, .none, .f32, 0, 0, .none, .f32, 0, .acc, .f32, 5, 0, 1, 1, 0, false, 0, false, false, 0, 0⟩, 0, 0, 0, none, some true, none, SumAcc.empty, none, true, 0⟩] }
  let l : Nat := 0
  let p : Nat := 0
  let k : Nat := 0
  let j : VecJob := ⟨⟨0, false, true, .none, .f32, 0, 0, .none, .f32, 0, .acc, .f32, 5, 0, 1, 1, 0, false, 0, false, false, 0, 0⟩, 0, 0, 0, none, some true, none, SumAcc.empty, none, true, 0⟩
  (l < 25600) ∧
    (s.phys l = some p) ∧
    ((s.ptile p).vecNext = some k) ∧
    ((s.ptile p).vecJobs[k]? = some j) ∧
    (j.vote.isSome = true) ∧
    (j.op.smv = true) ∧
    ((s.ptile p).groupFree j = true) ∧
    ((s.ptile p).depositBefore j.op.slot j.seq = false) := by decide

theorem test_wit_VectorGroupsVotesAndDeposits_4 :
  let s : State := { wTile { Tile.reset with vecJobs := [⟨⟨0, true, false, .acc, .f32, 0, 0, .none, .f32, 0, .spd, .w16, 0, 0, 4, 15, 0, false, 0, false, false, 0, 0⟩, 0, 0, 0, none, none, none, SumAcc.empty, none, false, 0⟩] } with ctxs := [(0, { Ctx.fresh 0 none 0 with vote := true, voted := true, lastResult := 1 })] }
  let l : Nat := 0
  let p : Nat := 0
  let k : Nat := 0
  let c : Nat := 0
  let j : VecJob := ⟨⟨0, true, false, .acc, .f32, 0, 0, .none, .f32, 0, .spd, .w16, 0, 0, 4, 15, 0, false, 0, false, false, 0, 0⟩, 0, 0, 0, none, none, none, SumAcc.empty, none, false, 0⟩
  let x : Ctx := { Ctx.fresh 0 none 0 with vote := true, voted := true, lastResult := 1 }
  (l < 25600) ∧
    (s.phys l = some p) ∧
    ((s.ptile p).ctx = some c) ∧
    (s.ctx? c = some x) ∧
    (x.voted = true) ∧
    ((s.ptile p).vecJobs.findIdx? (fun j => j.vote.isNone) = some k) ∧
    ((s.ptile p).vecJobs[k]? = some j) ∧
    (((s.ptile p).vecJobs.take k).all (·.issued) = true) ∧
    ((if j.op.count = 0 then decide (k = 0) else (s.ptile p).groupFree j) = true) := by decide

theorem test_wit_VectorGroupsVotesAndDeposits_5 :
  let s : State := wTile { Tile.reset with vecJobs := [⟨{ (⟨0, false, false, .acc, .f32, 0, 0, .none, .f32, 0, .acc, .f32, 16, 0, 4, 15, 0, false, 0, false, false, 0, 0⟩ : VecOp) with sumen := true }, 0, 0, 1, none, some true, none, SumAcc.empty, none, false, 0⟩] }
  let l : Nat := 0
  let p : Nat := 0
  let k : Nat := 0
  let j : VecJob := ⟨{ (⟨0, false, false, .acc, .f32, 0, 0, .none, .f32, 0, .acc, .f32, 16, 0, 4, 15, 0, false, 0, false, false, 0, 0⟩ : VecOp) with sumen := true }, 0, 0, 1, none, some true, none, SumAcc.empty, none, false, 0⟩
  (l < 25600) ∧
    (s.phys l = some p) ∧
    ((s.ptile p).vecJobs.findIdx? (fun j => j.op.sumen && !j.deposited) = some k) ∧
    ((s.ptile p).vecJobs[k]? = some j) ∧
    (j.issued = true) ∧
    (j.vote.isSome = true) := by decide

theorem test_wit_VectorGroupsVotesAndDeposits_6 :
  let s : State := wTile { Tile.reset with vecJobs := [⟨⟨0, false, false, .acc, .f32, 0, 0, .none, .f32, 0, .acc, .f32, 16, 0, 4, 15, 0, false, 0, false, false, 0, 0⟩, 0, 0, 1, none, some true, none, SumAcc.empty, none, false, 0⟩] }
  let l : Nat := 0
  let p : Nat := 0
  let j : VecJob := ⟨⟨0, false, false, .acc, .f32, 0, 0, .none, .f32, 0, .acc, .f32, 16, 0, 4, 15, 0, false, 0, false, false, 0, 0⟩, 0, 0, 1, none, some true, none, SumAcc.empty, none, false, 0⟩
  let js : List VecJob := []
  (l < 25600) ∧
    (s.phys l = some p) ∧
    ((s.ptile p).vecJobs = j :: js) ∧
    (j.vote = some true) ∧
    (j.issued = true) ∧
    ((!j.op.sumen || j.deposited) = true) ∧
    (j.lowFault = none) := by decide

theorem test_wit_IndexRegistersAreSetAndAdded_1 :
  let s : State := wAt (0x04 + 3 * 2 ^ 8 + 77 * 2 ^ 32) 16 (Tile.reset)
  let l : Nat := 0
  let p : Nat := 0
  let w : Nat := 0x04 + 3 * 2 ^ 8 + 77 * 2 ^ 32
  (AtInstr s l p 0x04 w 16) ∧
    (onlyFields w [(0, 8), (8, 3), (32, 32)] = true) := by decide

theorem test_wit_IndexRegistersAreSetAndAdded_2 :
  let s : State := wAt (0x05 + 3 * 2 ^ 8 + 0xFFFFFFFF * 2 ^ 32) 16 ({ Tile.reset with x := [(3, 1)] })
  let l : Nat := 0
  let p : Nat := 0
  let w : Nat := 0x05 + 3 * 2 ^ 8 + 0xFFFFFFFF * 2 ^ 32
  (AtInstr s l p 0x05 w 16) ∧
    (onlyFields w [(0, 8), (8, 3), (11, 3), (14, 1), (32, 32)] = true) ∧
    ((nbit w 14 = true → nbits w 32 32 = 0)) ∧
    ((nbit w 14 = false → nbits w 11 3 = 0)) := by decide

theorem test_wit_IndexRegistersAreSetAndAdded_2_2 :
  let s : State := wAt (0x05 + 3 * 2 ^ 8 + 3 * 2 ^ 11 + 2 ^ 14) 16 ({ Tile.reset with x := [(3, 5)] })
  let l : Nat := 0
  let p : Nat := 0
  let w : Nat := 0x05 + 3 * 2 ^ 8 + 3 * 2 ^ 11 + 2 ^ 14
  (AtInstr s l p 0x05 w 16) ∧
    (onlyFields w [(0, 8), (8, 3), (11, 3), (14, 1), (32, 32)] = true) ∧
    ((nbit w 14 = true → nbits w 32 32 = 0)) ∧
    ((nbit w 14 = false → nbits w 11 3 = 0)) := by decide

theorem test_wit_LoopsCountDown_1 :
  let s : State := wAt (0x06 + 0x40 * 2 ^ 8 + 2 * 2 ^ 26) 16 (Tile.reset)
  let l : Nat := 0
  let p : Nat := 0
  let w : Nat := 0x06 + 0x40 * 2 ^ 8 + 2 * 2 ^ 26
  (AtInstr s l p 0x06 w 16) ∧
    (onlyFields w [(0, 8), (8, 18), (26, 3)] = true) ∧
    (nbits w 8 18 % 16 = 0) ∧
    ((s.ptile p).xr (nbits w 26 3) = 0) := by decide

theorem test_wit_LoopsCountDown_2 :
  let s : State := wAt (0x06 + 0x40 * 2 ^ 8 + 2 * 2 ^ 26) 16 ({ Tile.reset with x := [(2, 1)] })
  let l : Nat := 0
  let p : Nat := 0
  let w : Nat := 0x06 + 0x40 * 2 ^ 8 + 2 * 2 ^ 26
  (AtInstr s l p 0x06 w 16) ∧
    (onlyFields w [(0, 8), (8, 18), (26, 3)] = true) ∧
    (nbits w 8 18 % 16 = 0) ∧
    ((s.ptile p).xr (nbits w 26 3) ≠ 0) := by decide

theorem test_wit_LoopsCountDown_2_2 :
  let s : State := wAt (0x06 + 0x40 * 2 ^ 8 + 2 * 2 ^ 26) 16 ({ Tile.reset with x := [(2, 7)] })
  let l : Nat := 0
  let p : Nat := 0
  let w : Nat := 0x06 + 0x40 * 2 ^ 8 + 2 * 2 ^ 26
  (AtInstr s l p 0x06 w 16) ∧
    (onlyFields w [(0, 8), (8, 18), (26, 3)] = true) ∧
    (nbits w 8 18 % 16 = 0) ∧
    ((s.ptile p).xr (nbits w 26 3) ≠ 0) := by decide

theorem test_wit_BranchesOfTheControlCore_1 :
  let s : State := wAt (0) 16 (Tile.reset)
  let l : Nat := 0
  let p : Nat := 0
  let w : Nat := 0
  (AtInstr s l p 0x00 w 16) ∧
    (ctlBareOk w = true) := by decide

theorem test_wit_BranchesOfTheControlCore_2 :
  let s : State := wAt (0x02 + 0x40 * 2 ^ 8 + 3 * 2 ^ 26 + 1 * 2 ^ 29 + 9 * 2 ^ 32) 16 ({ Tile.reset with x := [(3, 9)] })
  let l : Nat := 0
  let p : Nat := 0
  let w : Nat := 0x02 + 0x40 * 2 ^ 8 + 3 * 2 ^ 26 + 1 * 2 ^ 29 + 9 * 2 ^ 32
  (AtInstr s l p 0x02 w 16) ∧
    (onlyFields w [(0, 8), (8, 18), (26, 3), (29, 3), (32, 32)] = true) ∧
    (nbits w 29 3 ≠ 7) ∧
    ((nbits w 29 3 = 0 → nbits w 26 3 = 0 ∧ nbits w 32 32 = 0)) ∧
    (nbits w 8 18 % 16 = 0) := by decide

theorem test_wit_BranchesOfTheControlCore_2_2 :
  let s : State := wAt (0x02 + 0x40 * 2 ^ 8 + 3 * 2 ^ 26 + 5 * 2 ^ 29 + 9 * 2 ^ 32) 16 ({ Tile.reset with x := [(3, 0xFFFFFFFF)] })
  let l : Nat := 0
  let p : Nat := 0
  let w : Nat := 0x02 + 0x40 * 2 ^ 8 + 3 * 2 ^ 26 + 5 * 2 ^ 29 + 9 * 2 ^ 32
  (AtInstr s l p 0x02 w 16) ∧
    (onlyFields w [(0, 8), (8, 18), (26, 3), (29, 3), (32, 32)] = true) ∧
    (nbits w 29 3 ≠ 7) ∧
    ((nbits w 29 3 = 0 → nbits w 26 3 = 0 ∧ nbits w 32 32 = 0)) ∧
    (nbits w 8 18 % 16 = 0) := by decide

theorem test_wit_BranchesOfTheControlCore_3 :
  let s : State := wAt (0x03 + 0x40 * 2 ^ 8 + 1 * 2 ^ 26 + 0 * 2 ^ 29 + 4 * 2 ^ 32 + 0x3F000000 * 2 ^ 64) 16 ({ Tile.reset with slots := [(1, { Slot.reset with max := 0x3F800000, valid := true })] })
  let l : Nat := 0
  let p : Nat := 0
  let w : Nat := 0x03 + 0x40 * 2 ^ 8 + 1 * 2 ^ 26 + 0 * 2 ^ 29 + 4 * 2 ^ 32 + 0x3F000000 * 2 ^ 64
  (AtInstr s l p 0x03 w 16) ∧
    (onlyFields w [(0, 8), (8, 18), (26, 3), (29, 3), (32, 3), (64, 32)] = true) ∧
    (nbits w 29 3 ≠ 7) ∧
    (nbits w 32 3 < 6) ∧
    (nbits w 8 18 % 16 = 0) ∧
    ((s.ptile p).depositDue (nbits w 26 3) = false) ∧
    (((s.ptile p).slot (nbits w 26 3)).valid = true) ∧
    (((s.ptile p).slot (nbits w 26 3)).fault = false) := by decide

theorem test_wit_BranchesOfTheControlCore_3_2 :
  let s : State := wAt (0x03 + 0x40 * 2 ^ 8 + 1 * 2 ^ 26 + 4 * 2 ^ 29 + 0 * 2 ^ 32 + 3 * 2 ^ 64) 16 ({ Tile.reset with slots := [(1, { Slot.reset with nnz := 3, valid := true })] })
  let l : Nat := 0
  let p : Nat := 0
  let w : Nat := 0x03 + 0x40 * 2 ^ 8 + 1 * 2 ^ 26 + 4 * 2 ^ 29 + 0 * 2 ^ 32 + 3 * 2 ^ 64
  (AtInstr s l p 0x03 w 16) ∧
    (onlyFields w [(0, 8), (8, 18), (26, 3), (29, 3), (32, 3), (64, 32)] = true) ∧
    (nbits w 29 3 ≠ 7) ∧
    (nbits w 32 3 < 6) ∧
    (nbits w 8 18 % 16 = 0) ∧
    ((s.ptile p).depositDue (nbits w 26 3) = false) ∧
    (((s.ptile p).slot (nbits w 26 3)).valid = true) ∧
    (((s.ptile p).slot (nbits w 26 3)).fault = false) := by decide

theorem test_wit_BranchesOfTheControlCore_4 :
  let s : State := wAt (0x03 + 0x40 * 2 ^ 8 + 1 * 2 ^ 26 + 2 * 2 ^ 32 + 2 ^ 35 + 2 * 2 ^ 36 + 1 * 2 ^ 39) 16 ({ Tile.reset with slots := [(1, { Slot.reset with max := 0xBF800000, valid := true }), (2, { Slot.reset with min := 0x3F800000, valid := true })] })
  let l : Nat := 0
  let p : Nat := 0
  let w : Nat := 0x03 + 0x40 * 2 ^ 8 + 1 * 2 ^ 26 + 2 * 2 ^ 32 + 2 ^ 35 + 2 * 2 ^ 36 + 1 * 2 ^ 39
  (AtInstr s l p 0x03 w 16) ∧
    (onlyFields w [(0, 8), (8, 18), (26, 3), (29, 3), (32, 3), (35, 1), (36, 3), (39, 3)] = true) ∧
    (nbit w 35 = true) ∧
    (nbits w 29 3 ≠ 7) ∧
    (nbits w 39 3 ≠ 7) ∧
    (nbits w 32 3 < 6) ∧
    (nbits w 8 18 % 16 = 0) ∧
    ((s.ptile p).depositDue (nbits w 26 3) = false) ∧
    ((s.ptile p).depositDue (nbits w 36 3) = false) ∧
    (((s.ptile p).slot (nbits w 26 3)).valid = true) ∧
    (((s.ptile p).slot (nbits w 36 3)).valid = true) ∧
    (((s.ptile p).slot (nbits w 26 3)).fault = false) ∧
    (((s.ptile p).slot (nbits w 36 3)).fault = false) := by decide

theorem test_wit_ControlCorePatchesTimeAndWaits_1 :
  let s : State := wAt (0x07) 16 (Tile.reset)
  let l : Nat := 0
  let p : Nat := 0
  let w : Nat := 0x07
  (AtInstr s l p 0x07 w 16) ∧
    (onlyFields w [(0, 8), (8, 17), (25, 17), (42, 17)] = true) ∧
    (nbits w 8 17 = 0) ∧
    (nbits w 25 17 = 0) ∧
    (nbits w 42 17 = 0) := by decide

theorem test_wit_ControlCorePatchesTimeAndWaits_2 :
  let s : State := wAt (0x07 + 2 ^ 8 + 3 * 2 ^ 9 + 8 * 2 ^ 12 + 4 * 2 ^ 20) 16 ({ Tile.reset with x := [(3, 2)] })
  let l : Nat := 0
  let p : Nat := 0
  let w : Nat := 0x07 + 2 ^ 8 + 3 * 2 ^ 9 + 8 * 2 ^ 12 + 4 * 2 ^ 20
  let o : Nat := 0
  let n : Nat := 1
  let x : Nat := 0
  (AtInstr s l p 0x07 w 16) ∧
    (onlyFields w [(0, 8), (8, 17), (25, 17), (42, 17)] = true) ∧
    ((∀ b ∈ [8, 25, 42], nbit w b = true ∨ nbits w b 17 = 0)) ∧
    ((∃ b ∈ [8, 25, 42], nbit w b = true)) ∧
    (o = ((s.ptile p).spd.rd ((s.ptile p).pc + 16)).toNat) ∧
    (o ≠ 7) ∧
    (n = (opcWords o).getD 1) ∧
    ((s.ptile p).pc + 32 ≤ spdSize) ∧
    (x = (s.ptile p).rdLe ((s.ptile p).pc + 16) (16 * n)) ∧
    ((∀ e ∈ pfxSlots w, e.2.1 ≠ 0 ∧ 8 ≤ e.1 ∧ e.1 + e.2.1 ≤ 128 * n ∧ nbits x e.1 e.2.1 + ((s.ptile p).xr e.2.2).toNat < 2 ^ e.2.1)) ∧
    (pfxOverlap (pfxSlots w) = false) := by decide

theorem test_wit_ControlCorePatchesTimeAndWaits_2_2 :
  let s : State := wAt (0x07 + 2 ^ 8 + 3 * 2 ^ 9 + 8 * 2 ^ 12 + 4 * 2 ^ 20 + 2 ^ 42 + 1 * 2 ^ 43 + 64 * 2 ^ 46 + 16 * 2 ^ 54) 16 ({ Tile.reset with x := [(3, 2), (1, 9)] })
  let l : Nat := 0
  let p : Nat := 0
  let w : Nat := 0x07 + 2 ^ 8 + 3 * 2 ^ 9 + 8 * 2 ^ 12 + 4 * 2 ^ 20 + 2 ^ 42 + 1 * 2 ^ 43 + 64 * 2 ^ 46 + 16 * 2 ^ 54
  let o : Nat := 0
  let n : Nat := 1
  let x : Nat := 0
  (AtInstr s l p 0x07 w 16) ∧
    (onlyFields w [(0, 8), (8, 17), (25, 17), (42, 17)] = true) ∧
    ((∀ b ∈ [8, 25, 42], nbit w b = true ∨ nbits w b 17 = 0)) ∧
    ((∃ b ∈ [8, 25, 42], nbit w b = true)) ∧
    (o = ((s.ptile p).spd.rd ((s.ptile p).pc + 16)).toNat) ∧
    (o ≠ 7) ∧
    (n = (opcWords o).getD 1) ∧
    ((s.ptile p).pc + 32 ≤ spdSize) ∧
    (x = (s.ptile p).rdLe ((s.ptile p).pc + 16) (16 * n)) ∧
    ((∀ e ∈ pfxSlots w, e.2.1 ≠ 0 ∧ 8 ≤ e.1 ∧ e.1 + e.2.1 ≤ 128 * n ∧ nbits x e.1 e.2.1 + ((s.ptile p).xr e.2.2).toNat < 2 ^ e.2.1)) ∧
    (pfxOverlap (pfxSlots w) = false) := by decide

theorem test_wit_ControlCorePatchesTimeAndWaits_3 :
  let s : State := wAt (0x0B + 2 * 2 ^ 8) 16 (Tile.reset)
  let l : Nat := 0
  let p : Nat := 0
  let w : Nat := 0x0B + 2 * 2 ^ 8
  (AtInstr s l p 0x0B w 16) ∧
    ((timeCheck w).toOption = some (nbits w 8 3)) ∧
    (s.now + 8 < 2 ^ 64) := by decide

theorem test_wit_ControlCorePatchesTimeAndWaits_4 :
  let s : State := wAt (0x01) 16 (Tile.reset)
  let l : Nat := 0
  let p : Nat := 0
  let w : Nat := 0x01
  (AtInstr s l p 0x01 w 16) ∧
    (ctlBareOk w = true) := by decide

theorem test_wit_ControlCorePatchesTimeAndWaits_5 :
  let s : State := wAt (0x09 + 5 * 2 ^ 8 + 2 * 2 ^ 16) 16 ({ Tile.reset with sems := [(5, 3)] })
  let l : Nat := 0
  let p : Nat := 0
  let w : Nat := 0x09 + 5 * 2 ^ 8 + 2 * 2 ^ 16
  (AtInstr s l p 0x09 w 16) ∧
    (onlyFields w [(0, 8), (8, 7), (16, 16)] = true) ∧
    (nbits w 16 16 ≤ ((s.ptile p).sem (nbits w 8 7)).toNat) := by decide

theorem test_wit_ControlCorePatchesTimeAndWaits_6 :
  let s : State := wAt (0x09 + 5 * 2 ^ 8 + 2 * 2 ^ 16) 16 ({ Tile.reset with sems := [(5, 1)] })
  let l : Nat := 0
  let p : Nat := 0
  let w : Nat := 0x09 + 5 * 2 ^ 8 + 2 * 2 ^ 16
  (AtInstr s l p 0x09 w 16) ∧
    (onlyFields w [(0, 8), (8, 7), (16, 16)] = true) ∧
    (((s.ptile p).sem (nbits w 8 7)).toNat < nbits w 16 16) := by decide

theorem test_wit_ControlCorePatchesTimeAndWaits_7 :
  let s : State := wStep (wAt 0x0A 16 Tile.reset)
  let l : Nat := 0
  let p : Nat := 0
  let w : Nat := 0x0A
  (AtInstr s l p 0x0A w 16) ∧
    (ctlBareOk w = true) ∧
    (s.inStep ((s.ptile p).ctx.getD 0) l = true) := by decide

theorem test_wit_ControlCorePatchesTimeAndWaits_8 :
  let s : State := { wTile { Tile.reset with cpState := .waiting, wait := some .fin, launch := some 4 } with descs := [(4, wLaunch [0])] }
  let l : Nat := 0
  let p : Nat := 0
  let id : Nat := 4
  let e : Nat := 0
  let g : Nat := 0
  let n : Nat := 0
  let c : Nat := 0
  let args : List W32 := []
  let left : List Nat := [0]
  let d : Desc := wLaunch [0]
  (l < 25600) ∧
    (s.phys l = some p) ∧
    ((s.ptile p).cpState = .waiting) ∧
    ((s.ptile p).wait = some .fin) ∧
    ((s.ptile p).unitsIdle = true) ∧
    (s.execCount l = 0) ∧
    ((s.ptile p).launch = some id) ∧
    ((s.ptile p).ctx = some c) ∧
    (s.desc? id = some d) ∧
    (d.body = .launch e g args left n) := by decide

theorem test_wit_ReservedEncodingsAreRejected_1 :
  let s : State := wAt 0x7F 16 Tile.reset
  let l : Nat := 0
  let p : Nat := 0
  let o : Nat := 0x7F
  let w : Nat := 0x7F
  (AtInstr s l p o w 16) ∧
    (opcWords o = none) := by decide

theorem test_wit_ReservedEncodingsAreRejected_2 :
  let s : State := wQueue
  let v : State := wQueue
  let q : Nat := 0
  let host : Fetched := .bytes (wEntry [(0, 4, 0x91)])
  let bs : List Byte := wEntry [(0, 4, 0x91)]
  let st : Status := .rsvdSet
  (EntryIn s q host v bs) ∧
    (s.rqMay q = true) ∧
    (s.stageQueue q = false) ∧
    ((knownOp (descCls bs) (descOp bs) = false ∨ descCls bs = 4)) ∧
    (v.checkDesc (v.accepts q) (v.queue q).ctx bs = some st) := by decide

theorem test_wit_ReservedEncodingsAreRejected_2_2 :
  let s : State := wQueue
  let v : State := wQueue
  let q : Nat := 0
  let host : Fetched := .bytes (wEntry [(0, 4, 0x141)])
  let bs : List Byte := wEntry [(0, 4, 0x141)]
  let st : Status := .range
  (EntryIn s q host v bs) ∧
    (s.rqMay q = true) ∧
    (s.stageQueue q = false) ∧
    ((knownOp (descCls bs) (descOp bs) = false ∨ descCls bs = 4)) ∧
    (v.checkDesc (v.accepts q) (v.queue q).ctx bs = some st) := by decide

theorem test_wit_SignalsReachTheirSemaphore_1 :
  let s : State := wAt (0x08 + 5 * 2 ^ 8 + 3 * 2 ^ 32) 16 (Tile.reset)
  let l : Nat := 0
  let p : Nat := 0
  let w : Nat := 0x08 + 5 * 2 ^ 8 + 3 * 2 ^ 32
  let n : Nat := 3
  let tl : Nat := 0
  let sem : Nat := 5
  let rem : Bool := false
  (AtInstr s l p 0x08 w 16) ∧
    ((semsigCheck w).toOption = some (n, tl, rem, sem)) ∧
    ((rem = true → s.tileGiven ((s.ptile p).ctx.getD 0) tl = true)) := by decide

theorem test_wit_SignalsReachTheirSemaphore_1_2 :
  let s : State := wAt (0x08 + 5 * 2 ^ 8) 16 (Tile.reset)
  let l : Nat := 0
  let p : Nat := 0
  let w : Nat := 0x08 + 5 * 2 ^ 8
  let n : Nat := 0
  let tl : Nat := 0
  let sem : Nat := 5
  let rem : Bool := false
  (AtInstr s l p 0x08 w 16) ∧
    ((semsigCheck w).toOption = some (n, tl, rem, sem)) ∧
    ((rem = true → s.tileGiven ((s.ptile p).ctx.getD 0) tl = true)) := by decide

theorem test_wit_SignalsReachTheirSemaphore_2 :
  let s : State := { wTile { Tile.reset with sems := [(5, 1)] } with sigs := [⟨0, 5, 2, none, none, none, 0, none⟩] }
  let i : Nat := 0
  let p : Nat := 0
  let g : Signal := ⟨0, 5, 2, none, none, none, 0, none⟩
  (s.sigs[i]? = some g) ∧
    (s.phys g.tile = some p) ∧
    ((s.ptile p).ctx = some g.ctx) ∧
    (s.isExitSem g.ctx g.tile g.sem = false) ∧
    (((s.ptile p).sem g.sem).toNat + g.count ≤ 65535) ∧
    ((match (s.ptile p).wait with
      | some (.sem k n) => decide (k = g.sem) && decide (n ≤ ((s.ptile p).sem g.sem).toNat + g.count) && s.mayIssue g.tile (s.ptile p)
      | _ => false) = false) := by decide

theorem test_wit_SignalsReachTheirSemaphore_3 :
  let s : State := { wTile { Tile.reset with sems := [(5, 1)], cpState := .waiting, wait := some (.sem 5 3) } with sigs := [⟨0, 5, 2, none, none, none, 0, none⟩] }
  let i : Nat := 0
  let p : Nat := 0
  let n : Nat := 3
  let g : Signal := ⟨0, 5, 2, none, none, none, 0, none⟩
  (s.sigs[i]? = some g) ∧
    (s.phys g.tile = some p) ∧
    ((s.ptile p).ctx = some g.ctx) ∧
    (s.isExitSem g.ctx g.tile g.sem = false) ∧
    (((s.ptile p).sem g.sem).toNat + g.count ≤ 65535) ∧
    ((s.ptile p).wait = some (.sem g.sem n)) ∧
    (n ≤ ((s.ptile p).sem g.sem).toNat + g.count) ∧
    (s.mayIssue g.tile (s.ptile p) = true) := by decide

theorem test_wit_StepCompletionMovesTheStepOn :
  let s : State := wStep (wTile { Tile.reset with cpState := .waiting, wait := some .step, pc := 32 })
  let c : Nat := 0
  let x : Ctx := Ctx.fresh 0 (some 0) 0
  (c < 1024) ∧
    (s.ctx? c = some x) ∧
    (x.flt = .run) ∧
    (s.stepless c = false) ∧
    (((s.stepTiles c).all fun l => (s.tile l).ctx = some c && (s.tile l).wait = some .step && (s.tile l).unitsIdle && s.execCount l = 0) = true) := by decide

theorem test_wit_TilesReachQueuesAndTongs_1 :
  let s : State := { wAt (0x0C + 3 * 2 ^ 8) 16 Tile.reset with queues := [(3, ⟨true, 0, true, true, 0, 0, 0, 1, 0, 0, 0, 0x400000000000, 0, 4, false, true, .ok, false, [], none, none⟩)] }
  let v : State := { wAt (0x0C + 3 * 2 ^ 8) 16 Tile.reset with queues := [(3, ⟨true, 0, true, true, 0, 0, 0, 1, 0, 0, 0, 0x400000000000, 0, 4, false, true, .ok, false, [], none, none⟩)] }
  let l : Nat := 0
  let p : Nat := 0
  let w : Nat := 0x0C + 3 * 2 ^ 8
  let q : Nat := 3
  let host : Fetched := .bytes (wEntry [(0, 4, 0x141), (0x14, 4, 7), (0x18, 4, 9)])
  let bs : List Byte := wEntry [(0, 4, 0x141), (0x14, 4, 7), (0x18, 4, 9)]
  (AtInstr s l p 0x0C w 16) ∧
    (entryBytesOk host = true) ∧
    ((qpopCheck w).toOption = some q) ∧
    ((s.queue q).bound = true) ∧
    ((s.queue q).tileKind = true) ∧
    ((s.queue q).tile = l) ∧
    ((s.ptile p).ctx = some (s.queue q).ctx) ∧
    ((s.queue q).enable = true) ∧
    ((s.queue q).fetch ≠ (s.queue q).tail) ∧
    (s.readEntry q host = (v, .got bs)) ∧
    (((s.queue q).tileProd = true ∨ v.checkDesc (fun cls _ => cls = 4) (s.queue q).ctx bs = none)) ∧
    (v.ordWaits q bs = false) := by decide

theorem test_wit_TilesReachQueuesAndTongs_1_2 :
  let s : State := (fun (s : State) => { s with queues := [(3, ⟨true, 0, true, true, 0, 0, 0, 1, 0, 0, 0, 0x020000000000, 0, 4, false, true, .ok, false, [], none, none⟩)], sec := { s.sec with st := .tenanted, memKeys := true }, mem := { s.mem with objs := [(5, ⟨0, 2, 0, false, false, false, false, 0x100000, 1⟩)], pages := [(pageKey 5 0, ⟨some (.t2 7), none, 9, [], []⟩)] } }) (wAt (0x0C + 3 * 2 ^ 8) 16 Tile.reset)
  let v : State := (State.readEntry ((fun (s : State) => { s with queues := [(3, ⟨true, 0, true, true, 0, 0, 0, 1, 0, 0, 0, 0x020000000000, 0, 4, false, true, .ok, false, [], none, none⟩)], sec := { s.sec with st := .tenanted, memKeys := true }, mem := { s.mem with objs := [(5, ⟨0, 2, 0, false, false, false, false, 0x100000, 1⟩)], pages := [(pageKey 5 0, ⟨some (.t2 7), none, 9, [], []⟩)] } }) (wAt (0x0C + 3 * 2 ^ 8) 16 Tile.reset)) 3 (.pages .ok)).1
  let l : Nat := 0
  let p : Nat := 0
  let w : Nat := 0x0C + 3 * 2 ^ 8
  let q : Nat := 3
  let host : Fetched := .pages .ok
  let bs : List Byte := List.replicate 64 0
  (AtInstr s l p 0x0C w 16) ∧
    (entryBytesOk host = true) ∧
    ((qpopCheck w).toOption = some q) ∧
    ((s.queue q).bound = true) ∧
    ((s.queue q).tileKind = true) ∧
    ((s.queue q).tile = l) ∧
    ((s.ptile p).ctx = some (s.queue q).ctx) ∧
    ((s.queue q).enable = true) ∧
    ((s.queue q).fetch ≠ (s.queue q).tail) ∧
    (s.readEntry q host = (v, .got bs)) ∧
    (((s.queue q).tileProd = true ∨ v.checkDesc (fun cls _ => cls = 4) (s.queue q).ctx bs = none)) ∧
    (v.ordWaits q bs = false) := by decide

theorem test_wit_TilesReachQueuesAndTongs_2 :
  let s : State := { wAt (0x31 + 3 * 2 ^ 8) 16 { Tile.reset with x := [(1, 5)] } with queues := [(3, ⟨true, 0, true, true, 0, 0, 0, 1, 0, 0, 0, 0x400000000000, 0, 4, false, true, .ok, false, [], none, none⟩)] }
  let l : Nat := 0
  let p : Nat := 0
  let w : Nat := 0x31 + 3 * 2 ^ 8
  let q : Nat := 3
  (AtInstr s l p 0x31 w 16) ∧
    ((pushCheck w).toOption = some (q, none)) ∧
    (s.execCount l < 8) ∧
    (s.pushRefused q ((s.ptile p).ctx.getD 0) = none) ∧
    ((s.queue q).full = false) ∧
    (localRange ((s.queue q).entryAddr (s.queue q).tail) = .t3) ∧
    (s.t3Denied = false) ∧
    (s.hif.linkUp = true) := by decide

theorem test_wit_TilesReachQueuesAndTongs_3 :
  let s : State := (fun (s : State) => { s with queues := [(3, ⟨true, 0, true, true, 0, 0, 0, 1, 0, 0, 0, 0x020000000000, 0, 4, false, true, .ok, false, [], none, none⟩)], sec := { s.sec with st := .tenanted, memKeys := true }, mem := { s.mem with objs := [(5, ⟨0, 2, 0, false, false, false, false, 0x100000, 1⟩)], pages := [(pageKey 5 0, ⟨some (.t2 7), none, 9, [], []⟩)] } }) (wAt (0x31 + 3 * 2 ^ 8) 16 Tile.reset)
  let v : State := (State.appendEntry ((fun (s : State) => { s with queues := [(3, ⟨true, 0, true, true, 0, 0, 0, 1, 0, 0, 0, 0x020000000000, 0, 4, false, true, .ok, false, [], none, none⟩)], sec := { s.sec with st := .tenanted, memKeys := true }, mem := { s.mem with objs := [(5, ⟨0, 2, 0, false, false, false, false, 0x100000, 1⟩)], pages := [(pageKey 5 0, ⟨some (.t2 7), none, 9, [], []⟩)] } }) (wAt (0x31 + 3 * 2 ^ 8) 16 Tile.reset)) .job 3 (pushBytes 0 (List.replicate 8 0))).1
  let l : Nat := 0
  let p : Nat := 0
  let w : Nat := 0x31 + 3 * 2 ^ 8
  let q : Nat := 3
  (AtInstr s l p 0x31 w 16) ∧
    ((pushCheck w).toOption.map (fun a => (a.1, a.2.filter fun d => d ≠ s.selfDev)) = some (q, none)) ∧
    (s.execCount l < 8) ∧
    (s.pushRefused q ((s.ptile p).ctx.getD 0) = none) ∧
    ((s.queue q).full = false) ∧
    (s.appendEntry (s.tileCls l) q (pushBytes ((s.ptile p).ctx.getD 0) ((List.range 8).map (s.ptile p).xr)) = (v, .done)) := by decide

theorem test_wit_TilesReachQueuesAndTongs_4 :
  let s : State := wAt (0x31 + 3 * 2 ^ 8 + 7 * 2 ^ 32 + 2 ^ 48) 16 Tile.reset
  let v : State := (State.request (wAt (0x31 + 3 * 2 ^ 8 + 7 * 2 ^ 32 + 2 ^ 48) 16 Tile.reset) .job (.push 0 0) 7 0 3 3 0 (List.replicate 10 0) 0).1
  let l : Nat := 0
  let p : Nat := 0
  let w : Nat := 0x31 + 3 * 2 ^ 8 + 7 * 2 ^ 32 + 2 ^ 48
  let q : Nat := 3
  let d : Nat := 7
  let n : Nat := 0
  let w8 : W32 := 0
  let w9 : W32 := 0
  let f : Fab := (State.pushWords (wAt (0x31 + 3 * 2 ^ 8 + 7 * 2 ^ 32 + 2 ^ 48) 16 Tile.reset) 0 0).elim Fab.reset (·.2.2)
  (AtInstr s l p 0x31 w 16) ∧
    ((pushCheck w).toOption = some (q, some d)) ∧
    (d ≠ s.selfDev) ∧
    (s.execCount l < 8) ∧
    (s.fab.isFenced ((s.ptile p).ctx.getD 0) d = false) ∧
    (s.pushWords ((s.ptile p).ctx.getD 0) l = some (w8, w9, f)) ∧
    (s.request (s.tileCls l) (.push l (s.ptile p).pc) d ((s.ptile p).ctx.getD 0) 3 q 0 ((List.range 8).map (s.ptile p).xr ++ [w8, w9]) s.now = (v, some n)) := by decide

theorem test_wit_TilesReachQueuesAndTongs_5 :
  let s : State := wAt (0x31 + 3 * 2 ^ 8 + 7 * 2 ^ 32 + 2 ^ 48) 16 Tile.reset
  let l : Nat := 0
  let p : Nat := 0
  let w : Nat := 0x31 + 3 * 2 ^ 8 + 7 * 2 ^ 32 + 2 ^ 48
  let q : Nat := 3
  let d : Nat := 7
  let c : Nat := 0
  (AtInstr s l p 0x31 w 16) ∧
    ((pushCheck w).toOption = some (q, some d)) ∧
    (d ≠ s.selfDev) ∧
    ((s.ptile p).ctx = some c) ∧
    (s.execCount l < 8) ∧
    (s.fab.isFenced c d = false) ∧
    (s.stepless c = true) ∧
    (s.fab.txns.length < 4096) := by decide

theorem test_wit_TilesReachQueuesAndTongs_6 :
  let s : State := wAt (0x30 + 64 * 2 ^ 8 + 3 * 2 ^ 30 + 2 ^ 33) 16 { Tile.reset with x := [(3, 0x20)] } |> fun s => s.setPtile 0 { s.ptile 0 with spd := Mem.wrN (s.ptile 0).spd 64 wMove }
  let v : State := (State.spdRead (wAt (0x30 + 64 * 2 ^ 8 + 3 * 2 ^ 30 + 2 ^ 33) 16 { Tile.reset with x := [(3, 0x20)] } |> fun s => s.setPtile 0 { s.ptile 0 with spd := Mem.wrN (s.ptile 0).spd 64 wMove }) 0 64 64 []).1
  let l : Nat := 0
  let p : Nat := 0
  let w : Nat := 0x30 + 64 * 2 ^ 8 + 3 * 2 ^ 30 + 2 ^ 33
  let d : Nat := 64
  let sx : Option Nat := none
  let dx : Option Nat := some 3
  let raw : List Byte := wMove
  let bs : List Byte := putBytes wMove 0x1C (leBytes 8 0x20)
  let hw : List StoreErr := []
  (AtInstr s l p 0x30 w 16) ∧
    ((execCheck w).toOption = some (d, sx, dx)) ∧
    (s.execCount l < 8) ∧
    (s.spdRead l d 64 hw = (v, .got raw [])) ∧
    ((patchDesc raw (sx.map fun r => ((s.ptile p).xr r).toNat) (dx.map fun r => ((s.ptile p).xr r).toNat)).toOption = some bs) ∧
    (v.checkDesc execAccepts ((s.ptile p).ctx.getD 0) bs = none) ∧
    ((descCls bs = 5 → v.checkColl bs = none)) := by decide

theorem test_wit_TilesReachQueuesAndTongs_7 :
  let s : State := wAt (0x30 + 64 * 2 ^ 8) 16 { Tile.reset with spd := [] } |> fun s => s.setPtile 0 { s.ptile 0 with spd := Mem.wrN (s.ptile 0).spd 64 wMove }
  let l : Nat := 0
  let p : Nat := 0
  let w : Nat := 0x30 + 64 * 2 ^ 8
  let d : Nat := 64
  let c : Nat := 0
  let bs : List Byte := wMove
  (AtInstr s l p 0x30 w 16) ∧
    ((execCheck w).toOption = some (d, none, none)) ∧
    ((s.ptile p).ctx = some c) ∧
    (s.execCount l < 8) ∧
    ((s.ptile p).spdUe = []) ∧
    ((s.ptile p).wait = none) ∧
    ((s.ptile p).spd.rdN d 64 = bs) ∧
    (descCls bs = 2) ∧
    (s.checkDesc execAccepts c bs = none) ∧
    ((MoveBody.ofBytes (descOp bs) (bs.drop 0x14)).noop = false) := by decide

theorem test_wit_DoorbellsAreTakenOrRefused_1 :
  let s : State := wQueue
  let q : Nat := 0
  let tail : W32 := 5
  let tee : Bool := false
  (q < 262144) ∧
    (s.barShut tee = false) ∧
    (RegItem.queue.hostWrite s.sec.st = true) ∧
    ((s.queue q).bound = true) ∧
    (s.loadCtx (s.queue q).ctx = false) ∧
    (s.hif.agreed ≠ 0) ∧
    ((s.queue q).enable = true) ∧
    ((s.queue q).tileProd = false) ∧
    (((s.queue q).tail - (s.queue q).head).toNat < (tail - (s.queue q).head).toNat) ∧
    ((tail - (s.queue q).head).toNat ≤ 2 ^ (s.queue q).rsz) := by decide

theorem test_wit_DoorbellsAreTakenOrRefused_2 :
  let s : State := wQueue
  let q : Nat := 0
  let tail : W32 := 1
  let tee : Bool := false
  (q < 262144) ∧
    (s.barShut tee = false) ∧
    (RegItem.queue.hostWrite s.sec.st = true) ∧
    ((s.queue q).bound = true) ∧
    (s.loadCtx (s.queue q).ctx = false) ∧
    (s.hif.agreed ≠ 0) ∧
    ((s.queue q).enable = true) ∧
    ((s.queue q).tileProd = false) ∧
    (tail - (s.queue q).head = (s.queue q).tail - (s.queue q).head) := by decide

theorem test_wit_DoorbellsAreTakenOrRefused_3 :
  let s : State := { wQueue with hif := { wQueue.hif with agreed := 0 } }
  let q : Nat := 0
  let tail : W32 := 5
  let tee : Bool := false
  let st : Status := .version
  (q < 262144) ∧
    (s.barShut tee = false) ∧
    (RegItem.queue.hostWrite s.sec.st = true) ∧
    (((s.queue q).bound && s.loadCtx (s.queue q).ctx || decide (s.hif.agreed = 0) || !(s.queue q).bound || !(s.queue q).enable || (s.queue q).tileProd || decide ((tail - (s.queue q).head).toNat < ((s.queue q).tail - (s.queue q).head).toNat) || decide (2 ^ (s.queue q).rsz < (tail - (s.queue q).head).toNat) && decide (((s.queue q).tail - (s.queue q).head).toNat < (tail - (s.queue q).head).toNat)) = true) ∧
    (st = (if (s.queue q).bound && s.loadCtx (s.queue q).ctx then .busy else if s.hif.agreed = 0 then .version else if !(s.queue q).bound || !(s.queue q).enable || (s.queue q).tileProd then .denied else .range)) := by decide

theorem test_wit_DoorbellsAreTakenOrRefused_3_2 :
  let s : State := wQueue
  let q : Nat := 0
  let tail : W32 := 0
  let tee : Bool := false
  let st : Status := .range
  (q < 262144) ∧
    (s.barShut tee = false) ∧
    (RegItem.queue.hostWrite s.sec.st = true) ∧
    (((s.queue q).bound && s.loadCtx (s.queue q).ctx || decide (s.hif.agreed = 0) || !(s.queue q).bound || !(s.queue q).enable || (s.queue q).tileProd || decide ((tail - (s.queue q).head).toNat < ((s.queue q).tail - (s.queue q).head).toNat) || decide (2 ^ (s.queue q).rsz < (tail - (s.queue q).head).toNat) && decide (((s.queue q).tail - (s.queue q).head).toNat < (tail - (s.queue q).head).toNat)) = true) ∧
    (st = (if (s.queue q).bound && s.loadCtx (s.queue q).ctx then .busy else if s.hif.agreed = 0 then .version else if !(s.queue q).bound || !(s.queue q).enable || (s.queue q).tileProd then .denied else .range)) := by decide

theorem test_wit_DoorbellsAreTakenOrRefused_3_3 :
  let s : State := wQueue
  let q : Nat := 1
  let tail : W32 := 5
  let tee : Bool := false
  let st : Status := .denied
  (q < 262144) ∧
    (s.barShut tee = false) ∧
    (RegItem.queue.hostWrite s.sec.st = true) ∧
    (((s.queue q).bound && s.loadCtx (s.queue q).ctx || decide (s.hif.agreed = 0) || !(s.queue q).bound || !(s.queue q).enable || (s.queue q).tileProd || decide ((tail - (s.queue q).head).toNat < ((s.queue q).tail - (s.queue q).head).toNat) || decide (2 ^ (s.queue q).rsz < (tail - (s.queue q).head).toNat) && decide (((s.queue q).tail - (s.queue q).head).toNat < (tail - (s.queue q).head).toNat)) = true) ∧
    (st = (if (s.queue q).bound && s.loadCtx (s.queue q).ctx then .busy else if s.hif.agreed = 0 then .version else if !(s.queue q).bound || !(s.queue q).enable || (s.queue q).tileProd then .denied else .range)) := by decide

theorem test_wit_QueuesAreEnabledAndDisabled_1 :
  let s : State := { wQueue with queues := [(0, { wQ with enable := false })] }
  let q : Nat := 0
  let irqen : Bool := true
  let tee : Bool := false
  (q < 262144) ∧
    (s.barShut tee = false) ∧
    (RegItem.queue.hostWrite s.sec.st = true) ∧
    ((s.queue q).bound = true) ∧
    (s.loadCtx (s.queue q).ctx = false) ∧
    ((s.queue q).tileProd = false) ∧
    ((s.queue q).ringOk = true) ∧
    ((s.queue q).enable = false) := by decide

theorem test_wit_QueuesAreEnabledAndDisabled_2 :
  let s : State := wQueue
  let q : Nat := 0
  let irqen : Bool := true
  let tee : Bool := false
  (q < 262144) ∧
    (s.barShut tee = false) ∧
    (RegItem.queue.hostWrite s.sec.st = true) ∧
    ((s.queue q).bound = true) ∧
    (s.loadCtx (s.queue q).ctx = false) ∧
    ((s.queue q).tileProd = false) ∧
    ((s.queue q).ringOk = true) ∧
    ((s.queue q).enable = true) := by decide

theorem test_wit_QueuesAreEnabledAndDisabled_3 :
  let s : State := wQueue
  let q : Nat := 0
  let irqen : Bool := false
  let tee : Bool := false
  (q < 262144) ∧
    (s.barShut tee = false) ∧
    (RegItem.queue.hostWrite s.sec.st = true) ∧
    ((s.queue q).bound = true) ∧
    (s.loadCtx (s.queue q).ctx = false) ∧
    ((s.queue q).tileProd = false) := by decide

theorem test_wit_MoveEntriesAreStarted_1 :
  let s : State := wQueue
  let v : State := wQueue
  let q : Nat := 0
  let host : Fetched := .bytes (wEntry [(0, 4, 1)])
  let bs : List Byte := wEntry [(0, 4, 1)]
  (AtEntry s q host v bs 0 0) := by decide

theorem test_wit_MoveEntriesAreStarted_1_2 :
  let s : State := (fun (s : State) => { s with mem := s.mem.setPage (pageKey 9 0) ((s.mem.page (pageKey 9 0)).write 0 (wEntry [(0, 4, 1)])) }) ((fun (s : State) => { s with queues := [(0, { wQ with base := 0x020000000000 })], mem := { s.mem with objs := s.mem.objs ++ [(9, ⟨0, 2, 0, false, false, false, false, 0x100000, 1⟩)], pages := s.mem.pages ++ [(pageKey 9 0, ⟨some (.t2 7), none, 9, [], []⟩)] } }) (wQueue))
  let v : State := (State.readEntry ((fun (s : State) => { s with mem := s.mem.setPage (pageKey 9 0) ((s.mem.page (pageKey 9 0)).write 0 (wEntry [(0, 4, 1)])) }) ((fun (s : State) => { s with queues := [(0, { wQ with base := 0x020000000000 })], mem := { s.mem with objs := s.mem.objs ++ [(9, ⟨0, 2, 0, false, false, false, false, 0x100000, 1⟩)], pages := s.mem.pages ++ [(pageKey 9 0, ⟨some (.t2 7), none, 9, [], []⟩)] } }) (wQueue))) 0 (.pages .ok)).1
  let q : Nat := 0
  let host : Fetched := .pages .ok
  let bs : List Byte := wEntry [(0, 4, 1)]
  (AtEntry s q host v bs 0 0) := by decide

theorem test_wit_MoveEntriesAreStarted_2 :
  let s : State := wQueue
  let v : State := wQueue
  let q : Nat := 0
  let host : Fetched := .bytes (wEntry [(0, 4, 0x121), (0x1C, 8, 0x100), (0x24, 4, 32), (0x28, 4, 1)])
  let bs : List Byte := wEntry [(0, 4, 0x121), (0x1C, 8, 0x100), (0x24, 4, 32), (0x28, 4, 1)]
  (AtEntry s q host v bs 2 1) := by decide

theorem test_wit_MoveEntriesAreStarted_3 :
  let s : State := wQueue
  let v : State := wQueue
  let q : Nat := 0
  let host : Fetched := .bytes (wEntry [(0, 4, 0x221), (0x24, 4, 32), (0x28, 4, 1)])
  let bs : List Byte := wEntry [(0, 4, 0x221), (0x24, 4, 32), (0x28, 4, 1)]
  (AtEntry s q host v bs 2 2) := by decide

theorem test_wit_MoveEntriesAreStarted_4 :
  let s : State := wQueue
  let v : State := wQueue
  let q : Nat := 0
  let host : Fetched := .bytes (wEntry [(0, 4, 0x321), (0x24, 4, 32), (0x28, 4, 0x2000001), (0x2C, 4, 32)])
  let bs : List Byte := wEntry [(0, 4, 0x321), (0x24, 4, 32), (0x28, 4, 0x2000001), (0x2C, 4, 32)]
  (AtEntry s q host v bs 2 3) := by decide

theorem test_wit_MoveEntriesAreStarted_5 :
  let s : State := wQueue
  let v : State := wQueue
  let q : Nat := 0
  let host : Fetched := .bytes (wEntry [(0, 4, 0x421), (0x1C, 8, 0x100), (0x24, 4, 32), (0x28, 4, 1), (0x34, 4, 1)])
  let bs : List Byte := wEntry [(0, 4, 0x421), (0x1C, 8, 0x100), (0x24, 4, 32), (0x28, 4, 1), (0x34, 4, 1)]
  (AtEntry s q host v bs 2 4) := by decide

theorem test_wit_SyncAndLaunchEntriesAreStarted_1 :
  let s : State := wStep wQueue
  let v : State := wStep wQueue
  let q : Nat := 0
  let host : Fetched := .bytes (wEntry [(0, 4, 0x111), (0x14, 4, 0x40)])
  let bs : List Byte := wEntry [(0, 4, 0x111), (0x14, 4, 0x40)]
  (AtEntry s q host v bs 1 1) := by decide

theorem test_wit_SyncAndLaunchEntriesAreStarted_1_2 :
  let s : State := (fun (s : State) => { s with mem := s.mem.setPage (pageKey 9 0) ((s.mem.page (pageKey 9 0)).write 0 (wEntry [(0, 4, 0x111), (0x14, 4, 0x40)])) }) ((fun (s : State) => { s with queues := [(0, { wQ with base := 0x020000000000 })], mem := { s.mem with objs := s.mem.objs ++ [(9, ⟨0, 2, 0, false, false, false, false, 0x100000, 1⟩)], pages := s.mem.pages ++ [(pageKey 9 0, ⟨some (.t2 7), none, 9, [], []⟩)] } }) (wStep wQueue))
  let v : State := (State.readEntry ((fun (s : State) => { s with mem := s.mem.setPage (pageKey 9 0) ((s.mem.page (pageKey 9 0)).write 0 (wEntry [(0, 4, 0x111), (0x14, 4, 0x40)])) }) ((fun (s : State) => { s with queues := [(0, { wQ with base := 0x020000000000 })], mem := { s.mem with objs := s.mem.objs ++ [(9, ⟨0, 2, 0, false, false, false, false, 0x100000, 1⟩)], pages := s.mem.pages ++ [(pageKey 9 0, ⟨some (.t2 7), none, 9, [], []⟩)] } }) (wStep wQueue))) 0 (.pages .ok)).1
  let q : Nat := 0
  let host : Fetched := .pages .ok
  let bs : List Byte := wEntry [(0, 4, 0x111), (0x14, 4, 0x40)]
  (AtEntry s q host v bs 1 1) := by decide

theorem test_wit_SyncAndLaunchEntriesAreStarted_2 :
  let s : State := wQueue
  let v : State := wQueue
  let q : Nat := 0
  let host : Fetched := .bytes (wEntry [(0, 4, 0x131)])
  let bs : List Byte := wEntry [(0, 4, 0x131)]
  (AtEntry s q host v bs 3 1) := by decide

theorem test_wit_SyncAndLaunchEntriesAreStarted_3 :
  let s : State := wQueue
  let v : State := wQueue
  let q : Nat := 0
  let host : Fetched := .bytes (wEntry [(0, 4, 0x231)])
  let bs : List Byte := wEntry [(0, 4, 0x231)]
  (AtEntry s q host v bs 3 2) := by decide

theorem test_wit_SyncAndLaunchEntriesAreStarted_3_2 :
  let s : State := wQueue
  let v : State := wQueue
  let q : Nat := 0
  let host : Fetched := .bytes (wEntry [(0, 4, 0x231), (0x14, 4, 900)])
  let bs : List Byte := wEntry [(0, 4, 0x231), (0x14, 4, 900)]
  (AtEntry s q host v bs 3 2) := by decide

theorem test_wit_SyncAndLaunchEntriesAreStarted_4 :
  let s : State := wQueue
  let v : State := wQueue
  let q : Nat := 0
  let host : Fetched := .bytes (wEntry [(0, 4, 0x331), (0x14, 4, 900)])
  let bs : List Byte := wEntry [(0, 4, 0x331), (0x14, 4, 900)]
  (AtEntry s q host v bs 3 3) ∧
    (v.stepRuns (v.queue q).ctx = false) := by decide

theorem test_wit_SyncAndLaunchEntriesAreStarted_5 :
  let s : State := { wStep wQueue with tiles := [(0, { Tile.reset with ctx := some 0, cpState := .running })] }
  let v : State := { wStep wQueue with tiles := [(0, { Tile.reset with ctx := some 0, cpState := .running })] }
  let q : Nat := 0
  let host : Fetched := .bytes (wEntry [(0, 4, 0x331), (0x14, 4, 900)])
  let bs : List Byte := wEntry [(0, 4, 0x331), (0x14, 4, 900)]
  (AtEntry s q host v bs 3 3) ∧
    (v.stepRuns (v.queue q).ctx = true) := by decide

theorem test_wit_MemctlEntriesAreStarted_1 :
  let s : State := wQueue
  let v : State := wQueue
  let q : Nat := 0
  let host : Fetched := .bytes (wEntry [(0, 4, 0x161), (0x14, 4, 5), (0x18, 4, 1), (0x1C, 8, 0x020000000000), (0x24, 4, 2)])
  let bs : List Byte := wEntry [(0, 4, 0x161), (0x14, 4, 5), (0x18, 4, 1), (0x1C, 8, 0x020000000000), (0x24, 4, 2)]
  (AtEntry s q host v bs 6 1) ∧
    (memctlClass5 v bs = none) ∧
    ((MemctlBody.ofBytes bs).pin = false) := by decide

theorem test_wit_MemctlEntriesAreStarted_1_2 :
  let s : State := (fun (s : State) => { s with mem := s.mem.setPage (pageKey 9 0) ((s.mem.page (pageKey 9 0)).write 0 (wEntry [(0, 4, 0x161), (0x14, 4, 5), (0x18, 4, 1), (0x1C, 8, 0x020000200000), (0x24, 4, 2)])) }) ((fun (s : State) => { s with queues := [(0, { wQ with base := 0x020000000000 })], mem := { s.mem with objs := s.mem.objs ++ [(9, ⟨0, 2, 0, false, false, false, false, 0x100000, 1⟩)], pages := s.mem.pages ++ [(pageKey 9 0, ⟨some (.t2 7), none, 9, [], []⟩)] } }) (wQueue))
  let v : State := (State.readEntry ((fun (s : State) => { s with mem := s.mem.setPage (pageKey 9 0) ((s.mem.page (pageKey 9 0)).write 0 (wEntry [(0, 4, 0x161), (0x14, 4, 5), (0x18, 4, 1), (0x1C, 8, 0x020000200000), (0x24, 4, 2)])) }) ((fun (s : State) => { s with queues := [(0, { wQ with base := 0x020000000000 })], mem := { s.mem with objs := s.mem.objs ++ [(9, ⟨0, 2, 0, false, false, false, false, 0x100000, 1⟩)], pages := s.mem.pages ++ [(pageKey 9 0, ⟨some (.t2 7), none, 9, [], []⟩)] } }) (wQueue))) 0 (.pages .ok)).1
  let q : Nat := 0
  let host : Fetched := .pages .ok
  let bs : List Byte := wEntry [(0, 4, 0x161), (0x14, 4, 5), (0x18, 4, 1), (0x1C, 8, 0x020000200000), (0x24, 4, 2)]
  (AtEntry s q host v bs 6 1) ∧
    (memctlClass5 v bs = none) ∧
    ((MemctlBody.ofBytes bs).pin = false) := by decide

theorem test_wit_MemctlEntriesAreStarted_2 :
  let s : State := wQueue
  let v : State := wQueue
  let q : Nat := 0
  let host : Fetched := .bytes (wEntry [(0, 4, 0x161), (0x14, 4, 5), (0x18, 4, 2), (0x1C, 8, 0x020000000000), (0x24, 4, 0x22)])
  let bs : List Byte := wEntry [(0, 4, 0x161), (0x14, 4, 5), (0x18, 4, 2), (0x1C, 8, 0x020000000000), (0x24, 4, 0x22)]
  let w : State := (State.bringIn ({ wQueue.taken 0 with mem := { wQueue.mem with objs := [(5, ⟨0, 2, 0, false, false, true, false, 0x100000, 2⟩)] } }) .job [pageKey 5 0, pageKey 5 1]).1
  let ws : List Nat := (State.bringIn ({ wQueue.taken 0 with mem := { wQueue.mem with objs := [(5, ⟨0, 2, 0, false, false, true, false, 0x100000, 2⟩)] } }) .job [pageKey 5 0, pageKey 5 1]).2
  (AtEntry s q host v bs 6 1) ∧
    (memctlClass5 v bs = none) ∧
    ((MemctlBody.ofBytes bs).pin = true) ∧
    ((MemctlBody.ofBytes bs).pages ≠ 0) ∧
    (({ v.taken q with mem := { v.mem with objs := SMap.set v.mem.objs (MemctlBody.ofBytes bs).handle ⟨(DescHdr.ofBytes bs).ctx, (MemctlBody.ofBytes bs).home, (MemctlBody.ofBytes bs).aff, (MemctlBody.ofBytes bs).spill = 1, false, true, false, (MemctlBody.ofBytes bs).base / pageSize, (MemctlBody.ofBytes bs).pages⟩ } } : State).bringIn ((v.taken q).srcCls (DescHdr.ofBytes bs).ctx (.queue q (v.queue q).fetch)) ((List.range (MemctlBody.ofBytes bs).pages).map (pageKey (MemctlBody.ofBytes bs).handle)) = (w, ws)) := by decide

theorem test_wit_MemctlEntriesAreStarted_3 :
  let s : State := { wQueue with mem := { wQueue.mem with objs := [(5, ⟨0, 2, 0, false, false, false, false, 0x100000, 1⟩)] } }
  let v : State := { wQueue with mem := { wQueue.mem with objs := [(5, ⟨0, 2, 0, false, false, false, false, 0x100000, 1⟩)] } }
  let q : Nat := 0
  let host : Fetched := .bytes (wEntry [(0, 4, 0x261), (0x14, 4, 5)])
  let bs : List Byte := wEntry [(0, 4, 0x261), (0x14, 4, 5)]
  (AtEntry s q host v bs 6 2) ∧
    (memctlClass5 v bs = none) := by decide

theorem test_wit_MemctlEntriesAreStarted_4 :
  let s : State := { wQueue with mem := { wQueue.mem with objs := [(5, ⟨0, 2, 0, false, false, true, false, 0x100000, 1⟩)] } }
  let v : State := { wQueue with mem := { wQueue.mem with objs := [(5, ⟨0, 2, 0, false, false, true, false, 0x100000, 1⟩)] } }
  let q : Nat := 0
  let host : Fetched := .bytes (wEntry [(0, 4, 0x461), (0x14, 4, 5)])
  let bs : List Byte := wEntry [(0, 4, 0x461), (0x14, 4, 5)]
  (AtEntry s q host v bs 6 4) ∧
    (memctlClass5 v bs = none) := by decide

theorem test_wit_MemctlEntriesAreStarted_5 :
  let s : State := wQueue
  let v : State := wQueue
  let q : Nat := 0
  let host : Fetched := .bytes (wEntry [(0, 4, 0x861), (0x18, 4, 1), (0x34, 8, 0x400000200000)])
  let bs : List Byte := wEntry [(0, 4, 0x861), (0x18, 4, 1), (0x34, 8, 0x400000200000)]
  let w : State := ({ wQueue.taken 0 with mem := { wQueue.mem with pool := [(1, 1)] } } : State).memStep fun m d z => m.serve d z
  (AtEntry s q host v bs 6 8) ∧
    (memctlClass5 v bs = none) ∧
    (w = (({ v.taken q with mem := { v.mem with pool := v.mem.pool ++ [(t3Addr (MemctlBody.ofBytes bs).addr / pageSize, (MemctlBody.ofBytes bs).pages)] } } : State).memStep fun m d z => m.serve d z)) := by decide

theorem test_wit_MemctlEntriesAreStarted_6 :
  let s : State := { wQueue with mem := { wQueue.mem with objs := [(5, ⟨0, 2, 0, false, false, false, false, 0x100000, 1⟩)], pages := [(pageKey 5 0, ⟨some (.t2 7), none, 9, [], []⟩)] } }
  let v : State := { wQueue with mem := { wQueue.mem with objs := [(5, ⟨0, 2, 0, false, false, false, false, 0x100000, 1⟩)], pages := [(pageKey 5 0, ⟨some (.t2 7), none, 9, [], []⟩)] } }
  let q : Nat := 0
  let host : Fetched := .bytes (wEntry [(0, 4, 0x361), (0x14, 4, 5)])
  let bs : List Byte := wEntry [(0, 4, 0x361), (0x14, 4, 5)]
  let o : Obj := ⟨0, 2, 0, false, false, false, false, 0x100000, 1⟩
  let w : State := ({ (State.taken ({ wQueue with mem := { wQueue.mem with objs := [(5, ⟨0, 2, 0, false, false, false, false, 0x100000, 1⟩)], pages := [(pageKey 5 0, ⟨some (.t2 7), none, 9, [], []⟩)] } }) 0).modObj 5 fun o => { o with pinning := true } with mem := ((State.taken ({ wQueue with mem := { wQueue.mem with objs := [(5, ⟨0, 2, 0, false, false, false, false, 0x100000, 1⟩)], pages := [(pageKey 5 0, ⟨some (.t2 7), none, 9, [], []⟩)] } }) 0).modObj 5 fun o => { o with pinning := true }).mem.setPage (pageKey 5 0) ⟨some (.t2 7), none, 0, [], []⟩ } : State)
  let ws : List Nat := []
  (AtEntry s q host v bs 6 3) ∧
    (memctlClass5 v bs = none) ∧
    (SMap.get? v.mem.objs (MemctlBody.ofBytes bs).handle = some o) ∧
    (((v.taken q).modObj (MemctlBody.ofBytes bs).handle fun o => { o with pinning := true }).bringIn ((v.taken q).srcCls (DescHdr.ofBytes bs).ctx (.queue q (v.queue q).fetch)) ((List.range o.pages).map (pageKey (MemctlBody.ofBytes bs).handle)) = (w, ws)) := by decide

theorem test_wit_MemctlEntriesAreStarted_7 :
  let s : State := { wQueue with mem := { wQueue.mem with objs := [(5, ⟨0, 2, 0, false, false, false, false, 0x100000, 1⟩)], pages := [(pageKey 5 0, ⟨some (.t2 7), none, 9, [], []⟩)] } }
  let v : State := { wQueue with mem := { wQueue.mem with objs := [(5, ⟨0, 2, 0, false, false, false, false, 0x100000, 1⟩)], pages := [(pageKey 5 0, ⟨some (.t2 7), none, 9, [], []⟩)] } }
  let q : Nat := 0
  let host : Fetched := .bytes (wEntry [(0, 4, 0x561), (0x14, 4, 5), (0x18, 4, 1), (0x1C, 8, 0x020000000000)])
  let bs : List Byte := wEntry [(0, 4, 0x561), (0x14, 4, 5), (0x18, 4, 1), (0x1C, 8, 0x020000000000)]
  let w : State := ({ State.taken ({ wQueue with mem := { wQueue.mem with objs := [(5, ⟨0, 2, 0, false, false, false, false, 0x100000, 1⟩)], pages := [(pageKey 5 0, ⟨some (.t2 7), none, 9, [], []⟩)] } }) 0 with mem := (State.taken ({ wQueue with mem := { wQueue.mem with objs := [(5, ⟨0, 2, 0, false, false, false, false, 0x100000, 1⟩)], pages := [(pageKey 5 0, ⟨some (.t2 7), none, 9, [], []⟩)] } }) 0).mem.setPage (pageKey 5 0) ⟨some (.t2 7), none, 0, [], []⟩ } : State)
  let ws : List Nat := []
  (AtEntry s q host v bs 6 5) ∧
    (memctlClass5 v bs = none) ∧
    ((v.taken q).bringIn ((v.taken q).srcCls (DescHdr.ofBytes bs).ctx (.queue q (v.queue q).fetch)) ((MemctlBody.ofBytes bs).keys v.mem) = (w, ws)) := by decide

theorem test_wit_MemctlEntriesAreStarted_8 : State.mem ({ wQueue with mem := { wQueue.mem with objs := [(5, ⟨0, 2, 0, false, false, false, false, 0x100000, 1⟩)], pages := [(pageKey 5 0, ⟨some (.t2 7), none, 9, [], []⟩)] } }) |>.resident (pageKey 5 0) := by decide
theorem test_wit_MemctlEntriesAreStarted_9 :
  let s : State := { wQueue with mem := { wQueue.mem with objs := [(5, ⟨0, 2, 0, false, false, false, false, 0x100000, 1⟩)], pages := [(pageKey 5 0, ⟨some (.t2 7), none, 9, [], []⟩)] } }
  let v : State := { wQueue with mem := { wQueue.mem with objs := [(5, ⟨0, 2, 0, false, false, false, false, 0x100000, 1⟩)], pages := [(pageKey 5 0, ⟨some (.t2 7), none, 9, [], []⟩)] } }
  let q : Nat := 0
  let host : Fetched := .bytes (wEntry [(0, 4, 0x661), (0x14, 4, 5), (0x18, 4, 1), (0x1C, 8, 0x020000000000)])
  let bs : List Byte := wEntry [(0, 4, 0x661), (0x14, 4, 5), (0x18, 4, 1), (0x1C, 8, 0x020000000000)]
  let w : State := (State.demotePages (State.taken ({ wQueue with mem := { wQueue.mem with objs := [(5, ⟨0, 2, 0, false, false, false, false, 0x100000, 1⟩)], pages := [(pageKey 5 0, ⟨some (.t2 7), none, 9, [], []⟩)] } }) 0) .job [pageKey 5 0]).1
  let ks : List Nat := (State.demotePages (State.taken ({ wQueue with mem := { wQueue.mem with objs := [(5, ⟨0, 2, 0, false, false, false, false, 0x100000, 1⟩)], pages := [(pageKey 5 0, ⟨some (.t2 7), none, 9, [], []⟩)] } }) 0) .job [pageKey 5 0]).2
  (AtEntry s q host v bs 6 6) ∧
    (memctlClass5 v bs = none) ∧
    ((v.taken q).demotePages ((v.taken q).srcCls (DescHdr.ofBytes bs).ctx (.queue q (v.queue q).fetch)) ((MemctlBody.ofBytes bs).keys v.mem) = (w, ks)) := by decide

theorem test_wit_MemctlEntriesAreStarted_10 :
  let s : State := { wQueue with mem := { wQueue.mem with objs := [(5, ⟨0, 2, 0, false, false, false, false, 0x100000, 1⟩)] } }
  let v : State := { wQueue with mem := { wQueue.mem with objs := [(5, ⟨0, 2, 0, false, false, false, false, 0x100000, 1⟩)] } }
  let q : Nat := 0
  let host : Fetched := .bytes (wEntry [(0, 4, 0x761), (0x14, 4, 5), (0x34, 8, 0x400000000000)])
  let bs : List Byte := wEntry [(0, 4, 0x761), (0x14, 4, 5), (0x34, 8, 0x400000000000)]
  let o : Obj := ⟨0, 2, 0, false, false, false, false, 0x100000, 1⟩
  (AtEntry s q host v bs 6 7) ∧
    (memctlClass5 v bs = none) ∧
    (SMap.get? v.mem.objs (MemctlBody.ofBytes bs).handle = some o) := by decide

theorem test_wit_WaitingLaunchStarts_1 :
  let s : State := { wStep wQueue with descs := [(0, ⟨.queue 0 0, ⟨0, 1, 1, 0, 0, 0, 0, 0⟩, .launch 0x40 0 [7, 9] [0] 0, .waiting, .ok, 0, false, none, false, none, none, none⟩)] }
  let a : State := { wStep wQueue with descs := [(0, ⟨.queue 0 0, ⟨0, 1, 1, 0, 0, 0, 0, 0⟩, .launch 0x40 0 [7, 9] [0] 0, .waiting, .ok, 0, false, none, false, none, none, none⟩)] }
  let id : Nat := 0
  let g : Nat := 0
  let e : Nat := 0x40
  let d : Desc := ⟨.queue 0 0, ⟨0, 1, 1, 0, 0, 0, 0, 0⟩, .launch 0x40 0 [7, 9] [0] 0, .waiting, .ok, 0, false, none, false, none, none, none⟩
  let args : List W32 := [7, 9]
  (s.desc? id = some d) ∧
    (d.launchOf = some (g, e, args)) ∧
    (s.mayLaunch d = true) ∧
    (((s.lgrpTiles g).all fun l => (s.phys l).isSome && s.dieRuns (logDie l) && s.tileFree l && !s.reserved d.hdr.ctx l) = true) ∧
    (a = (if s.ctxIs d.hdr.ctx (fun x => x.serve && !x.bstep && !s.slotPart x.part) then s.admitStep d.hdr.ctx none else s)) := by decide

theorem test_wit_WaitingLaunchStarts_1_2 :
  let s : State := ({ wStep wQueue with descs := [(0, ⟨.queue 0 0, ⟨0, 1, 1, 0, 0, 0, 0, 0⟩, .launch 0x40 0 [7, 9] [0] 0, .waiting, .ok, 0, false, none, false, none, none, none⟩)], ctxs := [(0, { (Ctx.fresh 0 (some 0) 0) with serve := true })] } : State)
  let a : State := (({ wStep wQueue with descs := [(0, ⟨.queue 0 0, ⟨0, 1, 1, 0, 0, 0, 0, 0⟩, .launch 0x40 0 [7, 9] [0] 0, .waiting, .ok, 0, false, none, false, none, none, none⟩)], ctxs := [(0, { (Ctx.fresh 0 (some 0) 0) with serve := true })] } : State)).admitStep 0 none
  let id : Nat := 0
  let g : Nat := 0
  let e : Nat := 0x40
  let d : Desc := ⟨.queue 0 0, ⟨0, 1, 1, 0, 0, 0, 0, 0⟩, .launch 0x40 0 [7, 9] [0] 0, .waiting, .ok, 0, false, none, false, none, none, none⟩
  let args : List W32 := [7, 9]
  (s.desc? id = some d) ∧
    (d.launchOf = some (g, e, args)) ∧
    (s.mayLaunch d = true) ∧
    (((s.lgrpTiles g).all fun l => (s.phys l).isSome && s.dieRuns (logDie l) && s.tileFree l && !s.reserved d.hdr.ctx l) = true) ∧
    (a = (if s.ctxIs d.hdr.ctx (fun x => x.serve && !x.bstep && !s.slotPart x.part) then s.admitStep d.hdr.ctx none else s)) := by decide

theorem test_wit_WaitingLaunchStarts_2 : let d : Desc := ⟨.queue 0 0, ⟨0, 1, 1, 0, 0, 0, 0, 0⟩, .launch 0x40 0 [7, 9] [0] 0, .waiting, .ok, 0, false, none, false, none, none, none⟩
    ({ wStep wQueue with descs := [(0, d)] } : State).desc? 0 = some d ∧ d.launchOf = some (0, 0x40, [7, 9]) ∧ (∀ l ∈ (wStep wQueue).lgrpTiles 0, (wStep wQueue).phys l ≠ some 9) := by decide
theorem test_wit_StageArbiterStartsTheReadyRole_1 :
  let s : State := { wStep wQueue with stages := [(3, ⟨some 0, none, none, none, none, none, none, 1, 0, 0, 0, none, 0, 0, 0, 0, 0, 0, 0, 0xFFFF, 0xFFFF, 0⟩)], queues := [(0, wQ)] }
  let v : State := { wStep wQueue with stages := [(3, ⟨some 0, none, none, none, none, none, none, 1, 0, 0, 0, none, 0, 0, 0, 0, 0, 0, 0, 0xFFFF, 0xFFFF, 0⟩)], queues := [(0, wQ)] }
  let n : Nat := 3
  let role : Nat := 1
  let q : Nat := 0
  let g : Stage := ⟨some 0, none, none, none, none, none, none, 1, 0, 0, 0, none, 0, 0, 0, 0, 0, 0, 0, 0xFFFF, 0xFFFF, 0⟩
  let host : Fetched := .bytes (wEntry [(0, 4, 0x111), (0x14, 4, 0x40)])
  let bs : List Byte := wEntry [(0, 4, 0x111), (0x14, 4, 0x40)]
  (n < 256) ∧
    (SMap.get? s.stages n = some g) ∧
    (g.run = none) ∧
    ((s.fab.ctx g.ctx).fenced = false) ∧
    (EntryIn s q host v bs) ∧
    (s.readyRole g = some (role, q)) ∧
    (role ≠ 4) ∧
    (v.stageCheck g q bs = none) := by decide

theorem test_wit_StageArbiterStartsTheReadyRole_2 :
  let s : State := { wStep wQueue with stages := [(3, { (⟨some 0, none, none, none, none, none, none, 1, 0, 0, 0, none, 0, 0, 0, 0, 0, 0, 0, 0xFFFF, 0xFFFF, 0⟩ : Stage) with qf := none, qu := some 0, gu := some (0, 5) })], tiles := [(0, { Tile.reset with ctx := some 0, sems := [(5, 2)] })] }
  let v : State := { wStep wQueue with stages := [(3, { (⟨some 0, none, none, none, none, none, none, 1, 0, 0, 0, none, 0, 0, 0, 0, 0, 0, 0, 0xFFFF, 0xFFFF, 0⟩ : Stage) with qf := none, qu := some 0, gu := some (0, 5) })], tiles := [(0, { Tile.reset with ctx := some 0, sems := [(5, 2)] })] }
  let n : Nat := 3
  let role : Nat := 4
  let q : Nat := 0
  let t : Nat := 0
  let k : Nat := 5
  let g : Stage := { (⟨some 0, none, none, none, none, none, none, 1, 0, 0, 0, none, 0, 0, 0, 0, 0, 0, 0, 0xFFFF, 0xFFFF, 0⟩ : Stage) with qf := none, qu := some 0, gu := some (0, 5) }
  let host : Fetched := .bytes (wEntry [(0, 4, 0x111), (0x14, 4, 0x40)])
  let bs : List Byte := wEntry [(0, 4, 0x111), (0x14, 4, 0x40)]
  (n < 256) ∧
    (SMap.get? s.stages n = some g) ∧
    (g.run = none) ∧
    ((s.fab.ctx g.ctx).fenced = false) ∧
    (EntryIn s q host v bs) ∧
    (s.readyRole g = some (role, q)) ∧
    (role = 4) ∧
    (g.gu = some (t, k)) ∧
    (s.gateLeft n g 4 = true) ∧
    ((v.takeGate g 4).stageCheck g q bs = none) := by decide

theorem test_wit_StageArbiterStartsTheReadyRole_3 :
  let s : State := { wStep wQueue with stages := [(3, { (⟨some 0, none, none, none, none, none, none, 1, 0, 0, 0, none, 0, 0, 0, 0, 0, 0, 0, 0xFFFF, 0xFFFF, 0⟩ : Stage) with qf := none, qu := some 0 })] }
  let v : State := { wStep wQueue with stages := [(3, { (⟨some 0, none, none, none, none, none, none, 1, 0, 0, 0, none, 0, 0, 0, 0, 0, 0, 0, 0xFFFF, 0xFFFF, 0⟩ : Stage) with qf := none, qu := some 0 })] }
  let n : Nat := 3
  let role : Nat := 4
  let q : Nat := 0
  let g : Stage := { (⟨some 0, none, none, none, none, none, none, 1, 0, 0, 0, none, 0, 0, 0, 0, 0, 0, 0, 0xFFFF, 0xFFFF, 0⟩ : Stage) with qf := none, qu := some 0 }
  let host : Fetched := .bytes (wEntry [(0, 4, 0x111), (0x14, 4, 0x40)])
  let bs : List Byte := wEntry [(0, 4, 0x111), (0x14, 4, 0x40)]
  (n < 256) ∧
    (SMap.get? s.stages n = some g) ∧
    (g.run = none) ∧
    ((s.fab.ctx g.ctx).fenced = false) ∧
    (EntryIn s q host v bs) ∧
    (s.readyRole g = some (role, q)) ∧
    (role = 4) ∧
    (g.gu = none) ∧
    (v.stageCheck g q bs = none) := by decide

theorem test_wit_TongsEngineMovesPieceByPiece_1 :
  let s : State := { wOn with descs := [(4, ⟨.queue 0 0, ⟨0, 1, 2, 0, 0, 0, 0, 0⟩, .move ⟨1, 2, 2, 0x100, 0x200, 32, 1, 0, 0, 0, 0⟩ ⟨0, 0, 1, 0, 0, [(0, ⟨0, 0, 0, 32, 0, .have_ [1, 2] []⟩)], 1, false, 0, false⟩, .running, .ok, 0, false, none, false, none, none, none⟩)] }
  let id : Nat := 4
  let d : Desc := ⟨.queue 0 0, ⟨0, 1, 2, 0, 0, 0, 0, 0⟩, .move ⟨1, 2, 2, 0x100, 0x200, 32, 1, 0, 0, 0, 0⟩ ⟨0, 0, 1, 0, 0, [(0, ⟨0, 0, 0, 32, 0, .have_ [1, 2] []⟩)], 1, false, 0, false⟩, .running, .ok, 0, false, none, false, none, none, none⟩
  let e : Nat × Nat := (0, 0)
  let c : TCls := .job
  let b : MoveBody := ⟨1, 2, 2, 0x100, 0x200, 32, 1, 0, 0, 0, 0⟩
  let r : MoveRun := ⟨0, 0, 1, 0, 0, [(0, ⟨0, 0, 0, 32, 0, .have_ [1, 2] []⟩)], 1, false, 0, false⟩
  let k : Nat := 0
  let x : Piece := ⟨0, 0, 0, 32, 0, .have_ [1, 2] []⟩
  let bs : List Byte := [1, 2]
  let bad : List Nat := []
  (s.desc? id = some d) ∧
    (d.engine? = some e) ∧
    (s.engineGrant e = some (id, c)) ∧
    (d.body = .move b r) ∧
    ((r.pieces.find? fun y => match y.2.st with | .have_ _ _ => true | _ => false) = some (k, x)) ∧
    (x.st = .have_ bs bad) := by decide

theorem test_wit_TongsEngineMovesPieceByPiece_2 :
  let s : State := { wOn with descs := [(4, ⟨.queue 0 0, ⟨0, 1, 2, 0, 0, 0, 0, 0⟩, .move ⟨1, 2, 2, 0x100, 0x200, 32, 1, 0, 0, 0, 0⟩ ⟨0, 0, 1, 0, 0, [(0, ⟨0, 0, 0, 32, 0, .have_ [1, 2] []⟩)], 1, false, 0, false⟩, .running, .ok, 0, false, none, false, none, none, none⟩)] }
  let id : Nat := 4
  let d : Desc := ⟨.queue 0 0, ⟨0, 1, 2, 0, 0, 0, 0, 0⟩, .move ⟨1, 2, 2, 0x100, 0x200, 32, 1, 0, 0, 0, 0⟩ ⟨0, 0, 1, 0, 0, [(0, ⟨0, 0, 0, 32, 0, .have_ [1, 2] []⟩)], 1, false, 0, false⟩, .running, .ok, 0, false, none, false, none, none, none⟩
  let e : Nat × Nat := (0, 0)
  let c : TCls := .job
  let b : MoveBody := ⟨1, 2, 2, 0x100, 0x200, 32, 1, 0, 0, 0, 0⟩
  let r : MoveRun := ⟨0, 0, 1, 0, 0, [(0, ⟨0, 0, 0, 32, 0, .have_ [1, 2] []⟩)], 1, false, 0, false⟩
  let k : Nat := 0
  let x : Piece := ⟨0, 0, 0, 32, 0, .have_ [1, 2] []⟩
  let bs : List Byte := [1, 2]
  let bad : List Nat := []
  (s.desc? id = some d) ∧
    (d.engine? = some e) ∧
    (s.engineGrant e = some (id, c)) ∧
    (d.body = .move b r) ∧
    ((r.pieces.find? fun y => match y.2.st with | .have_ _ _ => true | _ => false) = some (k, x)) ∧
    (x.st = .have_ bs bad) ∧
    ((match s.loc b.dsp (b.dstAt x.row x.off) with | .tile _ _ => true | .win y => (s.mem.find false d.hdr.ctx y).any s.mem.resident | .t3 _ => !s.t3Denied | .remote _ _ => false) = true) := by decide

theorem test_wit_TongsEngineMovesPieceByPiece_3 :
  let s : State := { wOn with descs := [(4, ⟨.queue 0 0, ⟨0, 1, 2, 0, 0, 0, 0, 0⟩, .move ⟨1, 2, 2, 0x100, 0x200, 32, 1, 0, 0, 0, 0⟩ ⟨0, 0, 0, 0, 0, [], 0, false, 0, false⟩, .running, .ok, 0, false, none, false, none, none, none⟩)] }
  let id : Nat := 4
  let d : Desc := ⟨.queue 0 0, ⟨0, 1, 2, 0, 0, 0, 0, 0⟩, .move ⟨1, 2, 2, 0x100, 0x200, 32, 1, 0, 0, 0, 0⟩ ⟨0, 0, 0, 0, 0, [], 0, false, 0, false⟩, .running, .ok, 0, false, none, false, none, none, none⟩
  let e : Nat × Nat := (0, 0)
  let c : TCls := .job
  let b : MoveBody := ⟨1, 2, 2, 0x100, 0x200, 32, 1, 0, 0, 0, 0⟩
  let r : MoveRun := ⟨0, 0, 0, 0, 0, [], 0, false, 0, false⟩
  let a : Nat := 0x100
  let ch : Chunk := ⟨0, 0, 0, 32, some 0x100⟩
  (s.desc? id = some d) ∧
    (d.engine? = some e) ∧
    (s.engineGrant e = some (id, c)) ∧
    (d.body = .move b r) ∧
    ((r.pieces.find? fun x => match x.2.st with | .have_ _ _ => true | _ => false) = none) ∧
    (s.portPiece d b r = none) ∧
    (r.stop = false) ∧
    (b.chunk r.row r.off r.plane = some ch) ∧
    (ch.src = some a) ∧
    ((match s.loc b.ssp a with | .tile _ _ => true | .win y => (s.mem.find false d.hdr.ctx y).any s.mem.resident | .t3 _ => false | .remote _ _ => false) = true) := by decide

theorem test_wit_TongsEngineMovesPieceByPiece_4 :
  let s : State := { wOn with descs := [(4, ⟨.queue 0 0, ⟨0, 1, 2, 0, 0, 0, 0, 0⟩, .move ⟨2, 0, 2, 0, 0x200, 32, 1, 0, 0, 0x04030201, 0⟩ ⟨0, 0, 0, 0, 0, [], 0, false, 0, false⟩, .running, .ok, 0, false, none, false, none, none, none⟩)] }
  let id : Nat := 4
  let d : Desc := ⟨.queue 0 0, ⟨0, 1, 2, 0, 0, 0, 0, 0⟩, .move ⟨2, 0, 2, 0, 0x200, 32, 1, 0, 0, 0x04030201, 0⟩ ⟨0, 0, 0, 0, 0, [], 0, false, 0, false⟩, .running, .ok, 0, false, none, false, none, none, none⟩
  let e : Nat × Nat := (0, 0)
  let c : TCls := .job
  let b : MoveBody := ⟨2, 0, 2, 0, 0x200, 32, 1, 0, 0, 0x04030201, 0⟩
  let r : MoveRun := ⟨0, 0, 0, 0, 0, [], 0, false, 0, false⟩
  let ch : Chunk := ⟨0, 0, 0, 32, none⟩
  (s.desc? id = some d) ∧
    (d.engine? = some e) ∧
    (s.engineGrant e = some (id, c)) ∧
    (d.body = .move b r) ∧
    ((r.pieces.find? fun x => match x.2.st with | .have_ _ _ => true | _ => false) = none) ∧
    (s.portPiece d b r = none) ∧
    (r.stop = false) ∧
    (b.chunk r.row r.off r.plane = some ch) ∧
    (ch.src = none) ∧
    ((match s.loc b.dsp (b.dstAt ch.row ch.off) with | .tile _ _ => true | .win y => (s.mem.find false d.hdr.ctx y).any s.mem.resident | .t3 _ => !s.t3Denied | .remote _ _ => false) = true) := by decide

theorem test_wit_TongsEngineMovesPieceByPiece_5 :
  let s : State := { wOn with descs := [(4, ⟨.queue 0 0, ⟨0, 1, 2, 0, 0, 0, 0, 0⟩, .move ⟨1, 2, 2, 0x100, 0x200, 32, 1, 0, 0, 0, 0⟩ ⟨0, 0, 0, 0, 0, [], 0, false, 0, false⟩, .running, .ok, 0, false, none, false, none, none, none⟩)] }
  let id : Nat := 4
  let d : Desc := ⟨.queue 0 0, ⟨0, 1, 2, 0, 0, 0, 0, 0⟩, .move ⟨1, 2, 2, 0x100, 0x200, 32, 1, 0, 0, 0, 0⟩ ⟨0, 0, 0, 0, 0, [], 0, false, 0, false⟩, .running, .ok, 0, false, none, false, none, none, none⟩
  let e : Nat × Nat := (0, 0)
  let c : TCls := .job
  let b : MoveBody := ⟨1, 2, 2, 0x100, 0x200, 32, 1, 0, 0, 0, 0⟩
  let r : MoveRun := ⟨0, 0, 0, 0, 0, [], 0, false, 0, false⟩
  let a : Nat := 0x100
  let ch : Chunk := ⟨0, 0, 0, 32, some 0x100⟩
  (s.desc? id = some d) ∧
    (d.engine? = some e) ∧
    (s.engineGrant e = some (id, c)) ∧
    (d.body = .move b r) ∧
    ((r.pieces.find? fun x => match x.2.st with | .have_ _ _ => true | _ => false) = none) ∧
    (s.portPiece d b r = none) ∧
    (r.stop = false) ∧
    (b.chunk r.row r.off r.plane = some ch) ∧
    (ch.src = some a) := by decide

theorem test_wit_TongsEngineMovesPieceByPiece_6 :
  let s : State := { wFab with descs := [(4, ⟨.queue 0 0, ⟨0, 4, 5, 0, 0, 0, 0, 0⟩, .coll ⟨.allgather, 0, 0, 0, 0, 0x020000000000, 0x020000001000, 8, 2, 0, 0, 5, 900, 0x020000002000⟩ ⟨0, 0, 0, [], false, none, []⟩, .running, .ok, 0, false, none, false, none, none, none⟩)], mem := { wFab.mem with objs := [(5, ⟨0, 2, 0, false, false, false, false, 0x100000, 1⟩)], pages := [(pageKey 5 0, ⟨some (.t2 7), none, 9, [], []⟩)] }, fab := { wFab.fab with insts := [] } }
  let id : Nat := 4
  let d : Desc := ⟨.queue 0 0, ⟨0, 4, 5, 0, 0, 0, 0, 0⟩, .coll ⟨.allgather, 0, 0, 0, 0, 0x020000000000, 0x020000001000, 8, 2, 0, 0, 5, 900, 0x020000002000⟩ ⟨0, 0, 0, [], false, none, []⟩, .running, .ok, 0, false, none, false, none, none, none⟩
  let e : Nat × Nat := (0, 0)
  let c : TCls := .job
  let b : CollBody := ⟨.allgather, 0, 0, 0, 0, 0x020000000000, 0x020000001000, 8, 2, 0, 0, 5, 900, 0x020000002000⟩
  let r : CollRun := ⟨0, 0, 0, [], false, none, []⟩
  let sp : Nat := 0
  let a : Nat := 0x020000002000
  let n : Nat := 8
  let wr : Bool := false
  (s.desc? id = some d) ∧
    (d.engine? = some e) ∧
    (s.engineGrant e = some (id, c)) ∧
    (d.body = .coll b r) ∧
    (d.st = .running) ∧
    (s.collNext id d = some (sp, a, n, wr)) ∧
    ((match s.loc sp a with | .tile _ _ => true | .win y => (s.mem.find false d.hdr.ctx y).any s.mem.resident | .t3 _ => wr && !s.t3Denied | .remote _ _ => false) = true) := by decide

theorem test_wit_TongsEngineMovesPieceByPiece_7 :
  let s : State := { wFab with descs := [(4, ⟨.queue 0 0, ⟨0, 4, 5, 0, 0, 0, 0, 0⟩, .coll ⟨.allgather, 0, 0, 0, 0, 0x020000000000, 0x020000001000, 8, 2, 0, 0, 5, 900, 0x020000002000⟩ ⟨0, 0, 0, [], false, none, []⟩, .running, .ok, 0, false, none, false, none, none, none⟩)], mem := { wFab.mem with objs := [(5, ⟨0, 2, 0, false, false, false, false, 0x100000, 1⟩)], pages := [(pageKey 5 0, ⟨some (.t2 7), none, 9, [], []⟩)] }, fab := { wFab.fab with insts := [⟨⟨0, 0, 5, 0⟩, some 4, some ⟨.allgather, 0, 0, 0, 0, 0x020000000000, 0x020000001000, 8, 2, 0, 0, 5, 900, 0x020000002000⟩, .run, .job, 0, [(4, 0), (4, 0)], [], false, [], [⟨0, [(0, 8)], [], [], 5⟩], 0, false, none, [], .ok, false, [], 0, [], [], [], [], false, false, none⟩] } }
  let id : Nat := 4
  let d : Desc := ⟨.queue 0 0, ⟨0, 4, 5, 0, 0, 0, 0, 0⟩, .coll ⟨.allgather, 0, 0, 0, 0, 0x020000000000, 0x020000001000, 8, 2, 0, 0, 5, 900, 0x020000002000⟩ ⟨0, 0, 0, [], false, none, []⟩, .running, .ok, 0, false, none, false, none, none, none⟩
  let e : Nat × Nat := (0, 0)
  let c : TCls := .job
  let b : CollBody := ⟨.allgather, 0, 0, 0, 0, 0x020000000000, 0x020000001000, 8, 2, 0, 0, 5, 900, 0x020000002000⟩
  let r : CollRun := ⟨0, 0, 0, [], false, none, []⟩
  (s.desc? id = some d) ∧
    (d.engine? = some e) ∧
    (s.engineGrant e = some (id, c)) ∧
    (d.body = .coll b r) ∧
    (d.st = .running) ∧
    (s.collNext id d = none) := by decide

theorem test_wit_TongsEngineMovesPieceByPiece_8 :
  let s : State := { wOn with descs := [(4, ⟨.queue 0 0, ⟨0, 1, 2, 0, 0, 0, 0, 0⟩, .move ⟨1, 2, 2, 0x100, 0x200, 32, 1, 0, 0, 0, 0⟩ ⟨0, 0, 1, 0, 0, [(0, ⟨0, 0, 0, 32, 0, .reading (.local none)⟩)], 1, false, 0, false⟩, .running, .ok, 0, false, none, false, none, none, none⟩)], tiles := [(0, { Tile.reset with spd := [(0x100, 9)] })] }
  let v : State := { wOn with descs := [(4, ⟨.queue 0 0, ⟨0, 1, 2, 0, 0, 0, 0, 0⟩, .move ⟨1, 2, 2, 0x100, 0x200, 32, 1, 0, 0, 0, 0⟩ ⟨0, 0, 1, 0, 0, [(0, ⟨0, 0, 0, 32, 0, .reading (.local none)⟩)], 1, false, 0, false⟩, .running, .ok, 0, false, none, false, none, none, none⟩)], tiles := [(0, { Tile.reset with spd := [(0x100, 9)] })] }
  let id : Nat := 4
  let k : Nat := 0
  let a : Nat := 0x100
  let w : Option Nat := none
  let d : Desc := ⟨.queue 0 0, ⟨0, 1, 2, 0, 0, 0, 0, 0⟩, .move ⟨1, 2, 2, 0x100, 0x200, 32, 1, 0, 0, 0, 0⟩ ⟨0, 0, 1, 0, 0, [(0, ⟨0, 0, 0, 32, 0, .reading (.local none)⟩)], 1, false, 0, false⟩, .running, .ok, 0, false, none, false, none, none, none⟩
  let b : MoveBody := ⟨1, 2, 2, 0x100, 0x200, 32, 1, 0, 0, 0, 0⟩
  let r : MoveRun := ⟨0, 0, 1, 0, 0, [(0, ⟨0, 0, 0, 32, 0, .reading (.local none)⟩)], 1, false, 0, false⟩
  let x : Piece := ⟨0, 0, 0, 32, 0, .reading (.local none)⟩
  let res : OpRes := .ok
  let hw : List StoreErr := []
  let bs : List Byte := 9 :: List.replicate 31 0
  (s.desc? id = some d) ∧
    (d.body = .move b r) ∧
    (d.st = .running) ∧
    (s.downDies.contains r.die = false) ∧
    (SMap.get? r.pieces k = some x) ∧
    (x.st = .reading (.local w)) ∧
    (s.waitOver w = true) ∧
    (s.waitRes w = .ok) ∧
    (r.stop = false) ∧
    (b.srcAt x.row x.off x.plane = some a) ∧
    ((res = .spd hw ∨ res = .ok ∧ hw = [])) ∧
    ((match s.loc b.ssp a with
      | .tile l y => (s.dropWait? w).spdRead l y x.n hw
      | .win y => (s.dropWait? w).winRead ⟨true, true, (s.dropWait? w).classOf d⟩ d.hdr.ctx y x.n
      | _ => (s.dropWait? w, .fail .range)) = (v, .got bs [])) ∧
    (v.desc? id = some d) := by decide

theorem test_wit_TongsEngineMovesPieceByPiece_9 :
  let s : State := { wOn with descs := [(4, ⟨.queue 0 0, ⟨0, 1, 2, 0, 0, 0, 0, 0⟩, .move ⟨1, 2, 2, 0x100, 0x200, 32, 1, 0, 0, 0, 0⟩ ⟨0, 0, 1, 0, 0, [(0, ⟨0, 0, 0, 32, 0, .writing [1, 2] [] (.local none)⟩)], 1, false, 0, false⟩, .running, .ok, 0, false, none, false, none, none, none⟩)] }
  let v : State := (State.spdWrite { wOn with descs := [(4, ⟨.queue 0 0, ⟨0, 1, 2, 0, 0, 0, 0, 0⟩, .move ⟨1, 2, 2, 0x100, 0x200, 32, 1, 0, 0, 0, 0⟩ ⟨0, 0, 1, 0, 0, [(0, ⟨0, 0, 0, 32, 0, .writing [1, 2] [] (.local none)⟩)], 1, false, 0, false⟩, .running, .ok, 0, false, none, false, none, none, none⟩)] } 0 0x200 [1, 2] []).1
  let id : Nat := 4
  let k : Nat := 0
  let w : Option Nat := none
  let d : Desc := ⟨.queue 0 0, ⟨0, 1, 2, 0, 0, 0, 0, 0⟩, .move ⟨1, 2, 2, 0x100, 0x200, 32, 1, 0, 0, 0, 0⟩ ⟨0, 0, 1, 0, 0, [(0, ⟨0, 0, 0, 32, 0, .writing [1, 2] [] (.local none)⟩)], 1, false, 0, false⟩, .running, .ok, 0, false, none, false, none, none, none⟩
  let b : MoveBody := ⟨1, 2, 2, 0x100, 0x200, 32, 1, 0, 0, 0, 0⟩
  let r : MoveRun := ⟨0, 0, 1, 0, 0, [(0, ⟨0, 0, 0, 32, 0, .writing [1, 2] [] (.local none)⟩)], 1, false, 0, false⟩
  let x : Piece := ⟨0, 0, 0, 32, 0, .writing [1, 2] [] (.local none)⟩
  let bs : List Byte := [1, 2]
  let bad : List Nat := []
  (s.desc? id = some d) ∧
    (d.body = .move b r) ∧
    (d.st = .running) ∧
    (s.downDies.contains r.die = false) ∧
    (SMap.get? r.pieces k = some x) ∧
    (x.st = .writing bs bad (.local w)) ∧
    (bad.Nodup) ∧
    (s.waitOver w = true) ∧
    (s.waitRes w = .ok) ∧
    ((if b.op = 3 then (s.dropWait? w).skewWrite b x bs bad
      else match s.loc b.dsp (b.dstAt x.row x.off) with
      | .tile l y => (s.dropWait? w).spdWrite l y bs bad
      | .win y => if b.op = 4 then (s.dropWait? w).accWrite id ((s.dropWait? w).classOf d) d.hdr.ctx y b bs bad else (s.dropWait? w).winWrite ⟨true, true, (s.dropWait? w).classOf d⟩ d.hdr.ctx y bs bad
      | .t3 y => if s.t3Denied then (s.dropWait? w, .fail .denied) else ((s.dropWait? w).t3Out (.t3Write (t3Addr y) bs !bad.isEmpty), .done)
      | .remote _ _ => (s.dropWait? w, .fail .range)) = (v, .done)) ∧
    (v.desc? id = some d) := by decide

theorem test_wit_TongsEngineMovesPieceByPiece_10 :
  let s : State := { wOn with descs := [(4, ⟨.queue 0 0, ⟨0, 1, 2, 0, 0, 0, 0, 0⟩, .move ⟨1, 2, 2, 0x100, 0x200, 32, 1, 0, 0, 0, 0⟩ ⟨0, 0, 1, 0, 0, [(0, ⟨0, 0, 0, 32, 0, .writing [1, 2] [] (.local none)⟩)], 1, false, 0, false⟩, .running, .ok, 0, false, none, false, none, none, none⟩)] }
  let id : Nat := 4
  let k : Nat := 0
  let p : Nat := 0
  let w : Option Nat := none
  let d : Desc := ⟨.queue 0 0, ⟨0, 1, 2, 0, 0, 0, 0, 0⟩, .move ⟨1, 2, 2, 0x100, 0x200, 32, 1, 0, 0, 0, 0⟩ ⟨0, 0, 1, 0, 0, [(0, ⟨0, 0, 0, 32, 0, .writing [1, 2] [] (.local none)⟩)], 1, false, 0, false⟩, .running, .ok, 0, false, none, false, none, none, none⟩
  let b : MoveBody := ⟨1, 2, 2, 0x100, 0x200, 32, 1, 0, 0, 0, 0⟩
  let r : MoveRun := ⟨0, 0, 1, 0, 0, [(0, ⟨0, 0, 0, 32, 0, .writing [1, 2] [] (.local none)⟩)], 1, false, 0, false⟩
  let x : Piece := ⟨0, 0, 0, 32, 0, .writing [1, 2] [] (.local none)⟩
  let bs : List Byte := [1, 2]
  (s.desc? id = some d) ∧
    (d.body = .move b r) ∧
    (d.st = .running) ∧
    (s.downDies.contains r.die = false) ∧
    (SMap.get? r.pieces k = some x) ∧
    (x.st = .writing bs [] (.local w)) ∧
    (s.waitOver w = true) ∧
    (s.waitRes w = .ok) ∧
    (b.op = 1) ∧
    (b.dsp = spTile) ∧
    (s.phys (addrTile (b.dstAt x.row x.off)) = some p) := by decide

theorem test_wit_TongsEngineMovesPieceByPiece_11 :
  let s : State := { wFab with descs := [(4, ⟨.queue 0 0, ⟨0, 4, 5, 0, 0, 0, 0, 0⟩, .coll ⟨.allgather, 0, 0, 0, 0, 0x020000000000, 0x020000001000, 8, 2, 0, 0, 5, 900, 0x020000002000⟩ ⟨0, 0, 0, [], false, some ⟨.local none, 0, 0x020000002000⟩, []⟩, .running, .ok, 0, false, none, false, none, none, none⟩)], mem := { wFab.mem with objs := [(5, ⟨0, 2, 0, false, false, false, false, 0x100000, 1⟩)], pages := [(pageKey 5 0, ⟨some (.t2 7), none, 9, [], []⟩)] }, fab := { wFab.fab with insts := [] } }
  let v : State := (State.collLoad ({ wFab with descs := [(4, ⟨.queue 0 0, ⟨0, 4, 5, 0, 0, 0, 0, 0⟩, .coll ⟨.allgather, 0, 0, 0, 0, 0x020000000000, 0x020000001000, 8, 2, 0, 0, 5, 900, 0x020000002000⟩ ⟨0, 0, 0, [], false, some ⟨.local none, 0, 0x020000002000⟩, []⟩, .running, .ok, 0, false, none, false, none, none, none⟩)], mem := { wFab.mem with objs := [(5, ⟨0, 2, 0, false, false, false, false, 0x100000, 1⟩)], pages := [(pageKey 5 0, ⟨some (.t2 7), none, 9, [], []⟩)] }, fab := { wFab.fab with insts := [] } }) ⟨true, true, .job⟩ 0 0 0x020000002000 8 0 .ok).1
  let id : Nat := 4
  let k : Nat := 0
  let sp : Nat := 0
  let a : Nat := 0x020000002000
  let n : Nat := 8
  let w : Option Nat := none
  let d : Desc := ⟨.queue 0 0, ⟨0, 4, 5, 0, 0, 0, 0, 0⟩, .coll ⟨.allgather, 0, 0, 0, 0, 0x020000000000, 0x020000001000, 8, 2, 0, 0, 5, 900, 0x020000002000⟩ ⟨0, 0, 0, [], false, some ⟨.local none, 0, 0x020000002000⟩, []⟩, .running, .ok, 0, false, none, false, none, none, none⟩
  let b : CollBody := ⟨.allgather, 0, 0, 0, 0, 0x020000000000, 0x020000001000, 8, 2, 0, 0, 5, 900, 0x020000002000⟩
  let r : CollRun := ⟨0, 0, 0, [], false, some ⟨.local none, 0, 0x020000002000⟩, []⟩
  let bs : List Byte := List.replicate 8 0
  (s.desc? id = some d) ∧
    (d.body = .coll b r) ∧
    (d.st = .running) ∧
    (s.downDies.contains r.die = false) ∧
    (r.op = some ⟨.local w, sp, a⟩) ∧
    (s.waitOver w = true) ∧
    (s.waitRes w = .ok) ∧
    ((s.dropWait? w).collNext id d = some (sp, a, n, false)) ∧
    ((s.dropWait? w).collLoad ⟨true, true, (s.dropWait? w).classOf d⟩ d.hdr.ctx sp a n r.die .ok = (v, .got bs [])) := by decide

theorem test_wit_TongsEngineMovesPieceByPiece_12 :
  let s : State := { wFab with descs := [(4, ⟨.queue 0 0, ⟨0, 4, 5, 0, 0, 0, 0, 0⟩, .coll ⟨.allgather, 0, 0, 0, 0, 0x020000000000, 0x020000001000, 8, 2, 0, 0, 5, 900, 0x020000002000⟩ ⟨0, 0, 0, [], false, some ⟨.local none, 0, 0x020000001000⟩, []⟩, .running, .ok, 0, false, none, false, none, none, none⟩)], mem := { wFab.mem with objs := [(5, ⟨0, 2, 0, false, false, false, false, 0x100000, 1⟩)], pages := [(pageKey 5 0, ⟨some (.t2 7), none, 9, [], []⟩)] }, fab := { wFab.fab with insts := [⟨⟨0, 0, 5, 0⟩, some 4, some ⟨.allgather, 0, 0, 0, 0, 0x020000000000, 0x020000001000, 8, 2, 0, 0, 5, 900, 0x020000002000⟩, .write, .job, 0, [(4, 0), (4, 0)], [], false, [], [], 0, false, none, [(0, 0x020000001000, [(1, false), (2, false)])], .ok, false, [], 0, [], [], [], [], false, false, none⟩] } }
  let id : Nat := 4
  let k : Nat := 0
  let sp : Nat := 0
  let a : Nat := 0x020000001000
  let n : Nat := 2
  let w : Option Nat := none
  let d : Desc := ⟨.queue 0 0, ⟨0, 4, 5, 0, 0, 0, 0, 0⟩, .coll ⟨.allgather, 0, 0, 0, 0, 0x020000000000, 0x020000001000, 8, 2, 0, 0, 5, 900, 0x020000002000⟩ ⟨0, 0, 0, [], false, some ⟨.local none, 0, 0x020000001000⟩, []⟩, .running, .ok, 0, false, none, false, none, none, none⟩
  let b : CollBody := ⟨.allgather, 0, 0, 0, 0, 0x020000000000, 0x020000001000, 8, 2, 0, 0, 5, 900, 0x020000002000⟩
  let r : CollRun := ⟨0, 0, 0, [], false, some ⟨.local none, 0, 0x020000001000⟩, []⟩
  let res : OpRes := .ok
  (s.desc? id = some d) ∧
    (d.body = .coll b r) ∧
    (d.st = .running) ∧
    (s.downDies.contains r.die = false) ∧
    (r.op = some ⟨.local w, sp, a⟩) ∧
    (s.waitOver w = true) ∧
    (s.waitRes w = .ok) ∧
    ((s.dropWait? w).collNext id d = some (sp, a, n, true)) := by decide

theorem test_wit_CompletionAdvancesTheQueue_1 :
  let s : State := { wQueue with descs := [(4, ⟨.queue 0 0, ⟨0, 1, 2, 0, 0, 0, 0, 0⟩, .move ⟨1, 2, 2, 0x100, 0x200, 32, 1, 0, 0, 0, 0⟩ ⟨0, 0, 0, 0, 0, [], 0, false, 0, false⟩, .finished, .ok, 0, false, none, false, none, none, none⟩)], queues := [(0, { wQ with fetch := 1 })] }
  let id : Nat := 4
  let q : Nat := 0
  let i : W32 := 0
  let d : Desc := ⟨.queue 0 0, ⟨0, 1, 2, 0, 0, 0, 0, 0⟩, .move ⟨1, 2, 2, 0x100, 0x200, 32, 1, 0, 0, 0, 0⟩ ⟨0, 0, 0, 0, 0, [], 0, false, 0, false⟩, .finished, .ok, 0, false, none, false, none, none, none⟩
  (s.desc? id = some d) ∧
    (d.st = .finished) ∧
    (d.src = .queue q i) ∧
    ((match d.body with | .none => true | .move b _ => !b.accStat | _ => false) = true) ∧
    (d.crecWait = none) ∧
    (d.stage = none) ∧
    (d.skip = none) ∧
    (d.hdr.semsig = false) ∧
    (d.hdr.crec = false) ∧
    (d.hdr.irq = false) ∧
    (s.isRq q = false) := by decide

theorem test_wit_CompletionAdvancesTheQueue_2 :
  let s : State := { wQueue with descs := [(4, ⟨.queue 0 0, ⟨7, 2, 3, 0, 0, 5, 3, 0x400000000000⟩, .none, .finished, .ok, 0, false, none, false, none, none, none⟩)], queues := [(0, { wQ with fetch := 1 })] }
  let id : Nat := 4
  let q : Nat := 0
  let i : W32 := 0
  let d : Desc := ⟨.queue 0 0, ⟨7, 2, 3, 0, 0, 5, 3, 0x400000000000⟩, .none, .finished, .ok, 0, false, none, false, none, none, none⟩
  let st : Status := .ok
  (s.desc? id = some d) ∧
    (d.st = .finished) ∧
    (d.src = .queue q i) ∧
    ((match d.body with | .none => true | .move b _ => !b.accStat | _ => false) = true) ∧
    (d.crecWait = none) ∧
    (d.stage = none) ∧
    (d.skip = none) ∧
    (s.isRq q = false) ∧
    ((d.hdr.crec = true → localRange d.hdr.cplAddr = .t3 ∧ s.t3Denied = false)) ∧
    (st = (if d.hdr.semsig && (s.phys d.hdr.cplTile).isNone then d.status.worse .degraded else d.status)) := by decide

theorem test_wit_CompletionAdvancesTheQueue_3 :
  let s : State := { wStep wQueue with descs := [(4, { wLaunch [] with st := .finished })], queues := [(0, { wQ with fetch := 1 })] }
  let w : State := { wStep wQueue with descs := [(4, { wLaunch [] with st := .finished })], queues := [(0, { wQ with fetch := 1 })] }
  let w1 : State := { wStep wQueue with descs := [(4, { wLaunch [] with st := .finished })], queues := [(0, { wQ with fetch := 1 })] }
  let w2 : State := { wStep wQueue with descs := [(4, { wLaunch [] with st := .finished })], queues := [(0, { wQ with fetch := 1 })] }
  let w3 : State := { wStep wQueue with descs := [(4, { wLaunch [] with st := .finished })], queues := [(0, { wQ with fetch := 1 })] }
  let id : Nat := 4
  let d : Desc := { wLaunch [] with st := .finished }
  let x : Bool × Nat := (false, 0)
  (s.settleMemctl id = w) ∧
    (w.desc? id = some d) ∧
    (d.st = .finished) ∧
    (w.waitOver d.crecWait = true) ∧
    ((w.waitRes d.crecWait = .ok ∨ w.waitRes d.crecWait = .abandoned)) ∧
    (((w.dropWait? d.crecWait).modDesc id fun d => { d with crecWait := none }).countStat id = (w1, none)) ∧
    (w1.voteRecord false d = (w2, none)) ∧
    (x = (match d.src with | .exec l _ => (true, l) | .queue q _ => (false, q))) ∧
    ((if d.hdr.crec then w2.recordTry false (w2.classOf d) d.hdr.ctx d.hdr.cplAddr (crecBytes d.hdr (w2.finalStatus d) x.1 x.2 d.detail.toNat w2.now) else (w2, none)) = (w3, none)) := by decide

theorem test_wit_CompletionAdvancesTheQueue_4 :
  let s : State := { wOn with descs := [(4, ⟨.queue 0 0, ⟨0, 2, 3, 0, 0, 0, 0, 0⟩, .atTime 0, .running, .ok, 0, false, none, false, none, none, none⟩)] }
  let id : Nat := 4
  let t : Nat := 0
  let d : Desc := ⟨.queue 0 0, ⟨0, 2, 3, 0, 0, 0, 0, 0⟩, .atTime 0, .running, .ok, 0, false, none, false, none, none, none⟩
  (s.desc? id = some d) ∧
    (d.body = .atTime t) ∧
    (d.st = .running) ∧
    (t ≤ s.now) ∧
    (s.earlier t = false) := by decide

theorem test_wit_PageMovementsLand_1 :
  let s : State := { wOn with mem := { wOn.mem with objs := [(5, ⟨0, 2, 0, false, false, false, false, 0x100000, 1⟩)], pages := [(pageKey 5 0, ⟨none, some ⟨.zfill, .t2 7, 0⟩, 9, [(3, 7)], [5]⟩)], waits := [(0, ⟨pageKey 5 0, .job, 0, true, none⟩)] } }
  let w : State := { wOn with mem := { wOn.mem with objs := [(5, ⟨0, 2, 0, false, false, false, false, 0x100000, 1⟩)], pages := [(pageKey 5 0, ⟨none, some ⟨.zfill, .t2 7, 0⟩, 9, [(3, 7)], [5]⟩)], waits := [(0, ⟨pageKey 5 0, .job, 0, true, none⟩)] } }
  let k : Nat := pageKey 5 0
  let v : PageMove := ⟨.zfill, .t2 7, 0⟩
  let e : PageErr := ⟨0, [], [], none⟩
  let ws : List Nat := []
  (s.computeOn = true) ∧
    ((s.mem.page k).move = some v) ∧
    ((v.kind = .fill ∨ v.kind = .zfill)) ∧
    (s.moveUp k (s.hif.linkUp || s.t3Denied) = true) ∧
    ((s.fromBacking k = true → s.t3Denied = false)) ∧
    (s.moveErrs k e = (w, ws)) := by decide

theorem test_wit_PageMovementsLand_1_2 :
  let s : State := { wOn with mem := { wOn.mem with objs := [(5, ⟨0, 2, 0, false, false, false, false, 0x100000, 1⟩)], pages := [(pageKey 5 0, ⟨some (.t1 4), some ⟨.fill, .t2 7, 3⟩, 9, [(3, 7)], [5]⟩)] } }
  let w : State := (State.moveErrs ({ wOn with mem := { wOn.mem with objs := [(5, ⟨0, 2, 0, false, false, false, false, 0x100000, 1⟩)], pages := [(pageKey 5 0, ⟨some (.t1 4), some ⟨.fill, .t2 7, 3⟩, 9, [(3, 7)], [5]⟩)] } }) (pageKey 5 0) ⟨1, [3], [], none⟩).1
  let k : Nat := pageKey 5 0
  let v : PageMove := ⟨.fill, .t2 7, 3⟩
  let e : PageErr := ⟨1, [3], [], none⟩
  let ws : List Nat := []
  (s.computeOn = true) ∧
    ((s.mem.page k).move = some v) ∧
    ((v.kind = .fill ∨ v.kind = .zfill)) ∧
    (s.moveUp k (s.hif.linkUp || s.t3Denied) = true) ∧
    ((s.fromBacking k = true → s.t3Denied = false)) ∧
    (s.moveErrs k e = (w, ws)) := by decide

theorem test_wit_PageMovementsLand_2 :
  let s : State := { wOn with mem := { wOn.mem with objs := [(5, ⟨0, 2, 0, false, false, false, false, 0x100000, 1⟩)], pages := [(pageKey 5 0, ⟨none, some ⟨.zfill, .t2 7, 0⟩, 9, [(3, 7)], [5]⟩)], waits := [(0, ⟨pageKey 5 0, .job, 0, true, none⟩)] } }
  let k : Nat := pageKey 5 0
  let v : PageMove := ⟨.zfill, .t2 7, 0⟩
  let o : Obj := ⟨0, 2, 0, false, false, false, false, 0x100000, 1⟩
  (s.computeOn = true) ∧
    (s.mem.demands = []) ∧
    (s.fab.served = []) ∧
    (s.hif.bar4 = []) ∧
    (SMap.wf s.mem.waits = true) ∧
    (s.mem.retiring = []) ∧
    ((s.mem.page k).move = some v) ∧
    ((v.kind = .fill ∨ v.kind = .zfill)) ∧
    (s.mem.objOf k = some o) ∧
    (v.dst.tier = o.home) ∧
    (s.fromBacking k = false) ∧
    (s.moveUp k (s.hif.linkUp || s.t3Denied) = true) := by decide

theorem test_wit_PageMovementsLand_2_2 :
  let s : State := { wOn with mem := { wOn.mem with objs := [(5, ⟨0, 2, 0, false, false, false, false, 0x100000, 1⟩)], pages := [(pageKey 5 0, ⟨some (.t1 4), some ⟨.fill, .t2 7, 3⟩, 9, [(3, 7)], [5]⟩)] } }
  let k : Nat := pageKey 5 0
  let v : PageMove := ⟨.fill, .t2 7, 3⟩
  let o : Obj := ⟨0, 2, 0, false, false, false, false, 0x100000, 1⟩
  (s.computeOn = true) ∧
    (s.mem.demands = []) ∧
    (s.fab.served = []) ∧
    (s.hif.bar4 = []) ∧
    (SMap.wf s.mem.waits = true) ∧
    (s.mem.retiring = []) ∧
    ((s.mem.page k).move = some v) ∧
    ((v.kind = .fill ∨ v.kind = .zfill)) ∧
    (s.mem.objOf k = some o) ∧
    (v.dst.tier = o.home) ∧
    (s.fromBacking k = false) ∧
    (s.moveUp k (s.hif.linkUp || s.t3Denied) = true) := by decide

theorem test_wit_PageMovementsLand_3 :
  let s : State := { wOn with mem := { wOn.mem with objs := [(5, ⟨0, 1, 0, false, false, false, false, 0x100000, 1⟩)], pages := [(pageKey 5 0, ⟨some (.t1 4), some ⟨.evict, .t2 7, 11⟩, 9, [(3, 7)], [5]⟩)] } }
  let w : State := { wOn with mem := { wOn.mem with objs := [(5, ⟨0, 1, 0, false, false, false, false, 0x100000, 1⟩)], pages := [(pageKey 5 0, ⟨some (.t1 4), some ⟨.evict, .t2 7, 11⟩, 9, [(3, 7)], [5]⟩)] } }
  let k : Nat := pageKey 5 0
  let v : PageMove := ⟨.evict, .t2 7, 11⟩
  let l : Place := .t1 4
  let o : Obj := ⟨0, 1, 0, false, false, false, false, 0x100000, 1⟩
  let e : PageErr := ⟨0, [], [], none⟩
  let ws : List Nat := []
  (s.computeOn = true) ∧
    ((s.mem.page k).move = some v) ∧
    (v.kind = .evict) ∧
    ((s.mem.page k).loc = some l) ∧
    (v.dst.tier ≠ 3) ∧
    (s.mem.objOf k = some o) ∧
    (s.moveUp k s.t3Up = true) ∧
    (s.moveErrs k e = (w, ws)) := by decide

theorem test_wit_PageMovementsLand_4 :
  let s : State := { wQueue with mem := { wQueue.mem with objs := [(5, ⟨0, 2, 0, false, false, false, false, 0x100000, 1⟩)], pages := [(pageKey 5 0, ⟨some (.t2 4), some ⟨.evict, .bk 3, 11⟩, 9, [(3, 7)], [5]⟩)], pool := [(0, 4)] } }
  let w : State := { wQueue with mem := { wQueue.mem with objs := [(5, ⟨0, 2, 0, false, false, false, false, 0x100000, 1⟩)], pages := [(pageKey 5 0, ⟨some (.t2 4), some ⟨.evict, .bk 3, 11⟩, 9, [(3, 7)], [5]⟩)], pool := [(0, 4)] } }
  let k : Nat := pageKey 5 0
  let b : Nat := 3
  let v : PageMove := ⟨.evict, .bk 3, 11⟩
  let l : Place := .t2 4
  let o : Obj := ⟨0, 2, 0, false, false, false, false, 0x100000, 1⟩
  let e : PageErr := ⟨0, [], [], none⟩
  let ws : List Nat := []
  (s.computeOn = true) ∧
    ((s.mem.page k).move = some v) ∧
    (v.kind = .evict) ∧
    ((s.mem.page k).loc = some l) ∧
    (v.dst = .bk b) ∧
    (s.mem.objOf k = some o) ∧
    (s.moveUp k s.t3Up = true) ∧
    (s.moveErrs k e = (w, ws)) := by decide

theorem test_wit_PageMovementsLand_5 :
  let s : State := { wOn with mem := { wOn.mem with objs := [(5, ⟨0, 1, 0, false, false, false, false, 0x100000, 1⟩)], pages := [(pageKey 5 0, ⟨some (.t1 4), some ⟨.evict, .t2 7, 11⟩, 9, [(3, 7)], [5]⟩)] } }
  let k : Nat := pageKey 5 0
  let v : PageMove := ⟨.evict, .t2 7, 11⟩
  let l : Place := .t1 4
  let o : Obj := ⟨0, 1, 0, false, false, false, false, 0x100000, 1⟩
  (s.computeOn = true) ∧
    (s.mem.demands = []) ∧
    (s.fab.served = []) ∧
    (s.hif.bar4 = []) ∧
    (s.mem.retiring = []) ∧
    ((s.mem.page k).move = some v) ∧
    (v.kind = .evict) ∧
    ((s.mem.page k).loc = some l) ∧
    (s.mem.objOf k = some o) ∧
    ((s.mem.waits.any fun w => w.2.key = k && w.2.res.isNone) = false) ∧
    (s.moveUp k s.t3Up = true) := by decide

theorem test_wit_PageMovementsLand_6 :
  let s : State := { wOn with mem := { wOn.mem with objs := [(5, ⟨0, 2, 0, false, false, false, false, 0x100000, 1⟩)], pages := [(pageKey 5 0, ⟨some (.t2 6), some ⟨.retire, .t2 7, 11⟩, 9, [(3, 7)], [5]⟩)], retiring := [(2, 6)] } }
  let w : State := { wOn with mem := { wOn.mem with objs := [(5, ⟨0, 2, 0, false, false, false, false, 0x100000, 1⟩)], pages := [(pageKey 5 0, ⟨some (.t2 6), some ⟨.retire, .t2 7, 11⟩, 9, [(3, 7)], [5]⟩)], retiring := [(2, 6)] } }
  let t : Nat := 2
  let f : Nat := 6
  let k : Nat := pageKey 5 0
  let v : PageMove := ⟨.retire, .t2 7, 11⟩
  let e : PageErr := ⟨0, [], [], none⟩
  let ws : List Nat := []
  (s.computeOn = true) ∧
    ((t = 1 ∨ t = 2)) ∧
    (f < tierFrames t) ∧
    (s.mem.pages.findKey? (fun _ p => decide (p.loc = some (placeOf t f))) = some k) ∧
    ((s.mem.page k).move = some v) ∧
    (v.kind = .retire) ∧
    (s.moveUp k s.t3Up = true) ∧
    (s.moveErrs k e = (w, ws)) ∧
    (w.mem.pages.findKey? (fun _ p => decide (p.loc = some (placeOf t f)) && (match p.move with | some v => decide (v.kind = .retire) | none => false)) = some k) ∧
    ((w.mem.page k).move = some v) := by decide

theorem test_wit_PageMovementsLand_7 :
  let s : State := { wOn with mem := { wOn.mem with objs := [(5, ⟨0, 2, 0, false, false, false, false, 0x100000, 1⟩)], pages := [(pageKey 5 0, ⟨some (.t2 6), some ⟨.retire, .t2 7, 11⟩, 9, [(3, 7)], [5]⟩)], retiring := [(2, 6)] } }
  let t : Nat := 2
  let f : Nat := 6
  let k : Nat := pageKey 5 0
  let v : PageMove := ⟨.retire, .t2 7, 11⟩
  (s.computeOn = true) ∧
    (s.mem.demands = []) ∧
    (s.fab.served = []) ∧
    (s.hif.bar4 = []) ∧
    ((t = 1 ∨ t = 2)) ∧
    (f < tierFrames t) ∧
    (s.mem.retiring = [(t, f)]) ∧
    (s.mem.pages.findKey? (fun _ p => decide (p.loc = some (placeOf t f))) = some k) ∧
    (s.mem.pages.findKey? (fun _ p => decide (p.loc = some (placeOf t f)) && (match p.move with | some v => decide (v.kind = .retire) | none => false)) = some k) ∧
    ((s.mem.page k).move = some v) ∧
    ((s.mem.waits.any fun w => w.2.key = k && w.2.res.isNone) = false) ∧
    (s.moveUp k s.t3Up = true) := by decide

theorem test_wit_BackgroundWorkOfTheTiers_1 :
  let s : State := { wOn with mem := { wOn.mem with objs := [(5, ⟨0, 1, 0, false, false, false, false, 0x100000, 1⟩)], pages := [(pageKey 5 0, ⟨some (.t1 4), some ⟨.evict, .t2 7, 11⟩, 9, [(3, 7)], [5]⟩)] } }
  (s.computeOn = true) := by decide

theorem test_wit_BackgroundWorkOfTheTiers_2 :
  let s : State := { wOn with mem := { wOn.mem with objs := [(5, ⟨0, 1, 0, false, false, false, false, 0x100000, 1⟩)], pages := [(pageKey 5 0, ⟨some (.t1 4), none, 9, [], []⟩)], t1 := { TierCnt.reset 1024 with lowater := 786432 } } }
  let t : Nat := 1
  let k : Nat := pageKey 5 0
  let l : Place := .t2 0
  let o : Obj := ⟨0, 1, 0, false, false, false, false, 0x100000, 1⟩
  (s.computeOn = true) ∧
    ((t = 1 ∨ t = 2)) ∧
    (s.mem.freeCnt t < (s.mem.cnt t).lowater.toNat) ∧
    ((t = 2 → s.mem.chooseBacking.isSome = true)) ∧
    (s.mem.victim s.downDies s.busy t = some k) ∧
    (s.mem.objOf k = some o) ∧
    ((s.mem.page k).move = none) ∧
    (s.mem.lowerPlace s.downDies k = some l) ∧
    ((s.mem.demands.any fun d => d.key = k && d.kind = .evict) = false) := by decide

theorem test_wit_BackgroundWorkOfTheTiers_3 :
  let s : State := { wOn with mem := { wOn.mem with objs := [(5, ⟨0, 1, 0, false, false, false, false, 0x100000, 1⟩)], pages := [(pageKey 5 0, ⟨some (.t1 4), none, 9, [], []⟩)], t1 := { TierCnt.reset 1024 with lowater := 786432 } } }
  let t : Nat := 1
  let k : Nat := pageKey 5 0
  (s.computeOn = true) ∧
    ((t = 1 ∨ t = 2)) ∧
    (s.mem.freeCnt t < (s.mem.cnt t).lowater.toNat) ∧
    ((t = 2 → s.mem.chooseBacking.isSome = true)) ∧
    (s.mem.victim s.downDies s.busy t = some k) := by decide

theorem test_wit_BackgroundWorkOfTheTiers_4 :
  let s : State := { wOn with hrt := { wOn.hrt with ready := true } }
  let found : List ScrubHit := [⟨1, 5, 2, []⟩]
  ((found.all fun f => decide (1 ≤ f.tier) && decide (f.tier ≤ 2) && decide (f.frame < tierFrames f.tier)) = true) ∧
    (s.hrt.ready = true) ∧
    (s.computeOn = true) ∧
    (s.mem.scrubSince = none) ∧
    (s.lockHeldBy ⟨5, 0, actScrub, 0, 0⟩ = none) := by decide

theorem test_wit_BackgroundWorkOfTheTiers_5 :
  let s : State := { wOn with hrt := { wOn.hrt with locks := [⟨5, 0, 4, 0, 0⟩] }, mem := { wOn.mem with scrubSince := some 0, scrubBehind := true } }
  let t : Nat := 0
  (s.mem.scrubSince = some t) := by decide

theorem test_wit_BackgroundWorkOfTheTiers_6 :
  let s : State := { wOn with mem := { wOn.mem with scrubSince := some 0, scrubPeriod := 1 }, time := { wOn.time with now := 3600000000000 } }
  (s.mem.scrubAt + s.mem.scrubPeriod.toNat * 3600 * 1000000000 ≤ s.now) := by decide

theorem test_wit_BackgroundWorkOfTheTiers_7 :
  let s : State := (fun (s : State) => { s with time := { s.time with now := 20000000 } }) ({ wOn with mem := { wOn.mem with objs := [(5, ⟨0, 2, 0, false, false, false, false, 0x100000, 1⟩)], pages := [(pageKey 5 0, ⟨none, some ⟨.zfill, .t2 7, 0⟩, 9, [(3, 7)], [5]⟩)], waits := [(0, ⟨pageKey 5 0, .job, 0, true, none⟩)] } })
  let a : State := (fun (s : State) => { s with mem := { s.mem with waits := SMap.adj s.mem.waits 0 fun w => { w with res := some .abandoned } }, flt := { s.flt with toFill := satInc s.flt.toFill } }) ((fun (s : State) => { s with time := { s.time with now := 20000000 } }) ({ wOn with mem := { wOn.mem with objs := [(5, ⟨0, 2, 0, false, false, false, false, 0x100000, 1⟩)], pages := [(pageKey 5 0, ⟨none, some ⟨.zfill, .t2 7, 0⟩, 9, [(3, 7)], [5]⟩)], waits := [(0, ⟨pageKey 5 0, .job, 0, true, none⟩)] } }))
  let n : Nat := 0
  let w : PageWait := ⟨pageKey 5 0, .job, 0, true, none⟩
  (SMap.get? s.mem.waits n = some w) ∧
    (w.timed = true) ∧
    (w.res = none) ∧
    (w.since + s.flt.fillMs.toNat * 1000000 ≤ s.now) ∧
    (a = { s with mem := { s.mem with waits := SMap.adj s.mem.waits n fun w => { w with res := some .abandoned } }, flt := { s.flt with toFill := satInc s.flt.toFill } }) ∧
    (s.piecesOn n = []) ∧
    (s.collsOn n = []) := by decide

theorem test_wit_BackgroundWorkOfTheTiers_8 :
  let s : State := (fun (s : State) => { s with descs := [(4, ⟨.queue 0 0, ⟨0, 1, 2, 0, 0, 0, 0, 0⟩, .move ⟨1, 2, 2, 0x100, 0x200, 32, 1, 0, 0, 0, 0⟩ ⟨0, 0, 1, 0, 0, [(0, ⟨0, 0, 0, 32, 0, .reading (.local (some 0))⟩)], 1, false, 0, false⟩, .running, .ok, 0, false, none, false, none, none, none⟩)] }) ((fun (s : State) => { s with time := { s.time with now := 20000000 } }) ({ wOn with mem := { wOn.mem with objs := [(5, ⟨0, 2, 0, false, false, false, false, 0x100000, 1⟩)], pages := [(pageKey 5 0, ⟨none, some ⟨.zfill, .t2 7, 0⟩, 9, [(3, 7)], [5]⟩)], waits := [(0, ⟨pageKey 5 0, .job, 0, true, none⟩)] } }))
  let a : State := (fun (s : State) => { s with mem := { s.mem with waits := SMap.adj s.mem.waits 0 fun w => { w with res := some .abandoned } }, flt := { s.flt with toFill := satInc s.flt.toFill } }) ((fun (s : State) => { s with descs := [(4, ⟨.queue 0 0, ⟨0, 1, 2, 0, 0, 0, 0, 0⟩, .move ⟨1, 2, 2, 0x100, 0x200, 32, 1, 0, 0, 0, 0⟩ ⟨0, 0, 1, 0, 0, [(0, ⟨0, 0, 0, 32, 0, .reading (.local (some 0))⟩)], 1, false, 0, false⟩, .running, .ok, 0, false, none, false, none, none, none⟩)] }) ((fun (s : State) => { s with time := { s.time with now := 20000000 } }) ({ wOn with mem := { wOn.mem with objs := [(5, ⟨0, 2, 0, false, false, false, false, 0x100000, 1⟩)], pages := [(pageKey 5 0, ⟨none, some ⟨.zfill, .t2 7, 0⟩, 9, [(3, 7)], [5]⟩)], waits := [(0, ⟨pageKey 5 0, .job, 0, true, none⟩)] } })))
  let n : Nat := 0
  let id : Nat := 4
  let j : Nat := 0
  let c : Nat := 0
  let w : PageWait := ⟨pageKey 5 0, .job, 0, true, none⟩
  (SMap.get? s.mem.waits n = some w) ∧
    (w.timed = true) ∧
    (w.res = none) ∧
    (w.since + s.flt.fillMs.toNat * 1000000 ≤ s.now) ∧
    (a = { s with mem := { s.mem with waits := SMap.adj s.mem.waits n fun w => { w with res := some .abandoned } }, flt := { s.flt with toFill := satInc s.flt.toFill } }) ∧
    (s.piecesOn n = [(id, j, c)]) ∧
    (s.collsOn n = []) := by decide

theorem test_wit_BackgroundWorkOfTheTiers_9 :
  let s : State := (fun (s : State) => { s with time := { s.time with now := 20000000 } }) ({ wOn with mem := { wOn.mem with objs := [(5, ⟨0, 2, 0, false, false, false, false, 0x100000, 1⟩)], pages := [(pageKey 5 0, ⟨none, some ⟨.zfill, .t2 7, 0⟩, 9, [(3, 7)], [5]⟩)], waits := [(0, ⟨pageKey 5 0, .job, 0, true, none⟩)] } })
  let n : Nat := 0
  let w : PageWait := ⟨pageKey 5 0, .job, 0, true, none⟩
  (SMap.get? s.mem.waits n = some w) ∧
    (w.timed = true) ∧
    (w.res = none) ∧
    (w.since + s.flt.fillMs.toNat * 1000000 ≤ s.now) ∧
    (s.piecesOn n = []) ∧
    (s.collsOn n = []) ∧
    (s.fab.served = []) ∧
    (s.hif.bar4 = []) := by decide

theorem test_wit_FlitsAreTakenReplayedAndAcknowledged_1 :
  let s : State := wPort fun x => { x with rxSeq := 3 }
  let p : Nat := 0
  let fl : Flit := ⟨mkFlit 3 0 1 13 0 [], 0, false⟩
  (p < 48) ∧
    (flitOk fl = true) ∧
    ((fl.words.filter badParity) = []) ∧
    (fl.ue = false) ∧
    ((s.fab.port p).state = .up) ∧
    (fl.ftype = 1) ∧
    (fl.fseq = (s.fab.port p).rxSeq) := by decide

theorem test_wit_FlitsAreTakenReplayedAndAcknowledged_2 :
  let s : State := wPort fun x => { x with rxSeq := 3 }
  let p : Nat := 0
  let fl : Flit := ⟨BitVec.ofNat 33 (2 ^ 32) :: (mkFlit 3 0 1 13 0 []).tail, 0, false⟩
  (p < 48) ∧
    (flitOk fl = true) ∧
    ((s.fab.port p).state = .up) ∧
    (((fl.words.filter badParity) ≠ [] ∨ fl.ue = true ∨ 4 ≤ fl.ftype ∨ (fl.ftype = 1 ∧ fl.fseq ≠ (s.fab.port p).rxSeq))) := by decide

theorem test_wit_FlitsAreTakenReplayedAndAcknowledged_2_2 :
  let s : State := wPort fun x => { x with rxSeq := 3 }
  let p : Nat := 0
  let fl : Flit := ⟨mkFlit 3 0 1 13 0 [], 0, true⟩
  (p < 48) ∧
    (flitOk fl = true) ∧
    ((s.fab.port p).state = .up) ∧
    (((fl.words.filter badParity) ≠ [] ∨ fl.ue = true ∨ 4 ≤ fl.ftype ∨ (fl.ftype = 1 ∧ fl.fseq ≠ (s.fab.port p).rxSeq))) := by decide

theorem test_wit_FlitsAreTakenReplayedAndAcknowledged_2_3 :
  let s : State := wPort fun x => { x with rxSeq := 3 }
  let p : Nat := 0
  let fl : Flit := ⟨mkFlit 3 0 5 13 0 [], 0, false⟩
  (p < 48) ∧
    (flitOk fl = true) ∧
    ((s.fab.port p).state = .up) ∧
    (((fl.words.filter badParity) ≠ [] ∨ fl.ue = true ∨ 4 ≤ fl.ftype ∨ (fl.ftype = 1 ∧ fl.fseq ≠ (s.fab.port p).rxSeq))) := by decide

theorem test_wit_FlitsAreTakenReplayedAndAcknowledged_2_4 :
  let s : State := wPort fun x => { x with rxSeq := 3 }
  let p : Nat := 0
  let fl : Flit := ⟨mkFlit 4 0 1 13 0 [], 0, false⟩
  (p < 48) ∧
    (flitOk fl = true) ∧
    ((s.fab.port p).state = .up) ∧
    (((fl.words.filter badParity) ≠ [] ∨ fl.ue = true ∨ 4 ≤ fl.ftype ∨ (fl.ftype = 1 ∧ fl.fseq ≠ (s.fab.port p).rxSeq))) := by decide

theorem test_wit_FlitsAreTakenReplayedAndAcknowledged_3 :
  let s : State := wPort fun x => { x with txBuf := [⟨3, 0, 0, [], [wPkt 5 4 0 0 0 []]⟩, ⟨4, 0, 0, [], [wPkt 5 4 0 0 0 []]⟩] }
  let p : Nat := 0
  let fl : Flit := ⟨mkFlit 4 4 2 13 0 [], 0, false⟩
  (p < 48) ∧
    (flitOk fl = true) ∧
    ((fl.words.filter badParity) = []) ∧
    (fl.ue = false) ∧
    (fl.ftype = 2) ∧
    ((s.fab.port p).state = .up) ∧
    ((if ((({ s.fab.port p with fecCe := satAdd (s.fab.port p).fecCe fl.ce } : Port).ack fl.ack).credit fl.cvc fl.cred).nakRun ≠ 0 ∧ ((({ s.fab.port p with fecCe := satAdd (s.fab.port p).fecCe fl.ce } : Port).ack fl.ack).credit fl.cvc fl.cred).nakSeq = fl.fseq then ((({ s.fab.port p with fecCe := satAdd (s.fab.port p).fecCe fl.ce } : Port).ack fl.ack).credit fl.cvc fl.cred).nakRun + 1 else 1) < 8) := by decide

theorem test_wit_FlitsAreTakenReplayedAndAcknowledged_4 :
  let s : State := wPort fun x => { x with txBuf := [⟨4, 0, 0, [], [wPkt 5 4 0 0 0 []]⟩], nakRun := 7, nakSeq := 4 }
  let p : Nat := 0
  let fl : Flit := ⟨mkFlit 4 4 2 13 0 [], 0, false⟩
  (p < 48) ∧
    (flitOk fl = true) ∧
    ((fl.words.filter badParity) = []) ∧
    (fl.ue = false) ∧
    (fl.ftype = 2) ∧
    ((s.fab.port p).state = .up) ∧
    (8 ≤ (if ((({ s.fab.port p with fecCe := satAdd (s.fab.port p).fecCe fl.ce } : Port).ack fl.ack).credit fl.cvc fl.cred).nakRun ≠ 0 ∧ ((({ s.fab.port p with fecCe := satAdd (s.fab.port p).fecCe fl.ce } : Port).ack fl.ack).credit fl.cvc fl.cred).nakSeq = fl.fseq then ((({ s.fab.port p with fecCe := satAdd (s.fab.port p).fecCe fl.ce } : Port).ack fl.ack).credit fl.cvc fl.cred).nakRun + 1 else 1)) := by decide

theorem test_wit_FlitsAreTakenReplayedAndAcknowledged_5 :
  let s : State := wPort fun x => { x with txBuf := [⟨4, 0, 0, [], [wPkt 5 4 0 0 0 []]⟩] }
  let p : Nat := 0
  let fl : Flit := ⟨mkFlit 0 5 0 2 9 [], 0, false⟩
  (p < 48) ∧
    (flitOk fl = true) ∧
    ((fl.words.filter badParity) = []) ∧
    (fl.ue = false) ∧
    (fl.ftype = 0) ∧
    (((s.fab.port p).state = .up ∨ (s.fab.port p).state = .ident)) := by decide

theorem test_wit_PortsTrainAndIdentify_1 :
  let s : State := wPort fun x => { x with state := .train }
  let p : Nat := 0
  let ok : BitVec 5 := 15
  (p < 48) ∧
    (((s.fab.port p).state = .train ∨ (s.fab.port p).state = .retrain)) ∧
    (((List.range 4).all fun i => ok.getLsbD i) = true) := by decide

theorem test_wit_PortsTrainAndIdentify_2 :
  let s : State := wPort fun x => { x with state := .retrain }
  let p : Nat := 0
  let i : Nat := 2
  let ok : BitVec 5 := 27
  (p < 48) ∧
    (((s.fab.port p).state = .train ∨ (s.fab.port p).state = .retrain)) ∧
    (4 ≤ litLanes ok) ∧
    ((List.range 4).find? (fun i => !ok.getLsbD i) = some i) := by decide

theorem test_wit_PortsTrainAndIdentify_3 :
  let s : State := wPort fun x => { x with state := .retrain }
  let p : Nat := 0
  let ok : BitVec 5 := 3
  (p < 48) ∧
    (((s.fab.port p).state = .train ∨ (s.fab.port p).state = .retrain)) ∧
    (litLanes ok < 4) := by decide

theorem test_wit_PortsTrainAndIdentify_4 :
  let s : State := wPort fun x => { x with state := .ident }
  let p : Nat := 0
  let fl : Flit := ⟨mkFlit 0 0 3 15 0 [2, 7], 0, false⟩
  (p < 48) ∧
    (flitOk fl = true) ∧
    ((fl.words.filter badParity) = []) ∧
    (fl.ue = false) ∧
    (fl.ftype = 3) ∧
    ((s.fab.port p).state = .ident) ∧
    (s.fab.idValid = true) ∧
    ((fl.word 2 ≠ BitVec.allOnes 32 ∧ fl.word 3 = s.fab.sysid ∧ nbits (fl.word 2).toNat 0 16 = (s.fab.port p).peerDev ∧ nbits (fl.word 2).toNat 16 6 = (s.fab.port p).peerPort)) := by decide

theorem test_wit_PortsTrainAndIdentify_5 :
  let s : State := wPort fun x => { x with state := .ident }
  let p : Nat := 0
  let fl : Flit := ⟨mkFlit 0 0 3 15 0 [2, 8], 0, false⟩
  (p < 48) ∧
    (flitOk fl = true) ∧
    ((fl.words.filter badParity) = []) ∧
    (fl.ue = false) ∧
    (fl.ftype = 3) ∧
    ((s.fab.port p).state = .ident) ∧
    (s.fab.idValid = true) ∧
    (¬ (fl.word 2 ≠ BitVec.allOnes 32 ∧ fl.word 3 = s.fab.sysid ∧ nbits (fl.word 2).toNat 0 16 = (s.fab.port p).peerDev ∧ nbits (fl.word 2).toNat 16 6 = (s.fab.port p).peerPort)) := by decide

theorem test_wit_PortsTrainAndIdentify_6 :
  let s : State := wPort fun x => { x with state := .ident }
  let p : Nat := 0
  (p < 48) ∧
    ((s.fab.port p).state = .ident) := by decide

theorem test_wit_PortsTrainAndIdentify_7 :
  let s : State := { wPort (fun x => { x with state := .ident }) with time := { RefTime.reset with now := 10000000 } }
  let p : Nat := 0
  (p < 48) ∧
    ((s.fab.port p).state = .ident) ∧
    ((s.fab.port p).identAt + 10000000 ≤ s.now) := by decide

theorem test_wit_PortsTrainAndIdentify_8 :
  let s : State := { wPort (fun x => { x with state := .train }) with time := { RefTime.reset with now := 30000000 } }
  let p : Nat := 0
  (p < 48) ∧
    ((s.fab.port p).state = .train) ∧
    ((s.fab.port p).since + 30000000 ≤ s.now) ∧
    ((s.fab.port p).attempts < 2) := by decide

theorem test_wit_PortsTrainAndIdentify_9 :
  let s : State := { wPort (fun x => { x with state := .train, attempts := 2 }) with time := { RefTime.reset with now := 30000000 } }
  let p : Nat := 0
  (p < 48) ∧
    ((s.fab.port p).state = .train) ∧
    ((s.fab.port p).since + 30000000 ≤ s.now) ∧
    (2 ≤ (s.fab.port p).attempts) := by decide

theorem test_wit_PortsTrainAndIdentify_10 :
  let s : State := { wPort (fun x => { x with state := .retrain }) with time := { RefTime.reset with now := 5000000 } }
  let p : Nat := 0
  (p < 48) ∧
    ((s.fab.port p).state = .retrain) ∧
    ((s.fab.port p).since + 5000000 ≤ s.now) := by decide

theorem test_wit_PortsTrainAndIdentify_11 :
  let s : State := wFab
  let p : Nat := 0
  let l : BitVec 5 := 3
  (p < 48) ∧
    (((s.fab.port p).state = .up ∨ (s.fab.port p).state = .train ∨ (s.fab.port p).state = .ident)) ∧
    (litLanes ((s.fab.port p).light &&& ~~~l) < 4) := by decide

theorem test_wit_PortsTrainAndIdentify_12 :
  let s : State := wFab
  let p : Nat := 0
  let l : BitVec 5 := 1
  (p < 48) ∧
    ((s.fab.port p).state = .up) ∧
    (4 ≤ litLanes ((s.fab.port p).light &&& ~~~l)) ∧
    (((List.range 5).any fun i => l.getLsbD i && (s.fab.port p).inUse i) = true) := by decide

theorem test_wit_PortsTrainAndIdentify_13 :
  let s : State := wPort fun x => { x with state := .down, light := 3 }
  let p : Nat := 0
  let l : BitVec 5 := 12
  (p < 48) ∧
    (((s.fab.port p).state = .down ∨ (s.fab.port p).state = .failed ∨ (s.fab.port p).state = .mismatch)) ∧
    ((s.fab.port p).en = true) ∧
    ((s.fab.port p).bistBad = false) ∧
    (4 ≤ litLanes ((s.fab.port p).light ||| l)) := by decide

theorem test_wit_PacketsArePassedOn_1 :
  let s : State := wRx ({ (mkPacket 0 1 5 2 0 0 0 64 4 [] : Packet) with tag := [0, 0, 0, 0] })
  let p : Nat := 0
  let q : Nat := 0
  let k : Packet := { (mkPacket 0 1 5 2 0 0 0 64 4 [] : Packet) with tag := [0, 0, 0, 0] }
  let k2 : Packet := { (mkPacket 0 1 5 2 0 0 0 64 4 [] : Packet) with tag := [0, 0, 0, 0] }
  (p < 48) ∧
    (packetOk k = true) ∧
    (s.atHead p k = true) ∧
    (k.cls ≠ 4) ∧
    (k.ver = 1) ∧
    (k.dst < 2 ^ 14) ∧
    (k.hop ≤ 4) ∧
    ((p = 3 → k.cls = 3 ∨ k.cls = 5)) ∧
    ((q = 3 → k.cls = 3 ∨ k.cls = 5)) ∧
    (s.fab.route false k = .send q k2) := by decide

theorem test_wit_PacketsArePassedOn_2 :
  let s : State := wRx ({ (mkPacket 0 1 5 9 0 0 0 64 4 [] : Packet) with tag := [0, 0, 0, 0] })
  let p : Nat := 0
  let k : Packet := { (mkPacket 0 1 5 9 0 0 0 64 4 [] : Packet) with tag := [0, 0, 0, 0] }
  (p < 48) ∧
    (packetOk k = true) ∧
    (s.atHead p k = true) ∧
    (k.cls ≠ 4) ∧
    (k.ver = 1) ∧
    (k.dst < 2 ^ 14) ∧
    (k.hop ≤ 4) ∧
    ((p = 3 → k.cls = 3 ∨ k.cls = 5)) ∧
    (s.fab.route false k = .drop) := by decide

theorem test_wit_PacketsArePassedOn_3 :
  let s : State := wRx (({ (mkPacket 0 1 5 2 0 0 0 64 4 [] : Packet) with tag := [0, 0, 0, 0] }).setF 0 24 3 5)
  let p : Nat := 0
  let k : Packet := ({ (mkPacket 0 1 5 2 0 0 0 64 4 [] : Packet) with tag := [0, 0, 0, 0] }).setF 0 24 3 5
  (p < 48) ∧
    (packetOk k = true) ∧
    (s.atHead p k = true) ∧
    (k.cls ≠ 4) ∧
    (s.fab.route false k ≠ .deliver) ∧
    ((k.ver ≠ 1 ∨ 2 ^ 14 ≤ k.dst ∨ 5 ≤ k.hop ∨ (p = 3 ∧ k.cls ≠ 3 ∧ k.cls ≠ 5))) := by decide

theorem test_wit_PacketsArePassedOn_4 :
  let s : State := wRx ((wPkt 5 6 0 0 0 []).seal (wKey 1))
  let p : Nat := 0
  let k : Packet := (wPkt 5 6 0 0 0 []).seal (wKey 1)
  let x : Packet := { (wPkt 5 6 0 0 0 [] : Packet) with tag := ((wPkt 5 6 0 0 0 []).seal (wKey 1)).tag }
  (p < 48) ∧
    (packetOk k = true) ∧
    (s.atHead p k = true) ∧
    (k.cls ≠ 4) ∧
    (s.fab.route false k = .deliver) ∧
    (k.noRow = true) ∧
    ((p = 3 → k.cls = 5)) ∧
    (s.opened k = some x) := ⟨by decide, packetOk_seal _ rfl (by decide), decide_eq_true rfl, by decide, by decide, by decide, by decide, State.opened_seal _ _ rfl rfl⟩

theorem test_wit_RequestsOfOtherModulesAreServed_1 :
  let s : State := (fun (s : State) => { s with mem := { s.mem with objs := [(5, ⟨0, 2, 0, false, false, false, false, 0x100000, 1⟩)], pages := [(pageKey 5 0, ⟨some (.t2 7), none, 9, [(4, 6)], []⟩)] } }) (wRx ((wPkt 0 1 9 (0x020000000004) 4 []).seal (wKey 2)))
  let v : State := (State.serveOp (((fun (s : State) => { s with mem := { s.mem with objs := [(5, ⟨0, 2, 0, false, false, false, false, 0x100000, 1⟩)], pages := [(pageKey 5 0, ⟨some (.t2 7), none, 9, [(4, 6)], []⟩)] } }) (wRx ((wPkt 0 1 9 (0x020000000004) 4 []).seal (wKey 2)))).takePkt 0 ((wPkt 0 1 9 (0x020000000004) 4 []).seal (wKey 2))) false ({ (wPkt 0 1 9 (0x020000000004) 4 [] : Packet) with tag := ((wPkt 0 1 9 (0x020000000004) 4 []).seal (wKey 2)).tag }) .ok).1
  let p : Nat := 0
  let k : Packet := (wPkt 0 1 9 (0x020000000004) 4 []).seal (wKey 2)
  let x : Packet := { (wPkt 0 1 9 (0x020000000004) 4 [] : Packet) with tag := ((wPkt 0 1 9 (0x020000000004) 4 []).seal (wKey 2)).tag }
  let st : Status := .ok
  let data : Option (List Byte) := some [6, 0, 0, 0]
  let res : OpRes := .ok
  (PacketIn s p k x 0 1) ∧
    ((s.takePkt p k).serveOp false x res = (v, .reply st data)) := ⟨wit_in rfl rfl rfl (by decide), Prod.ext rfl (by decide)⟩

theorem test_wit_RequestsOfOtherModulesAreServed_2 :
  let s : State := wRx ((wPkt 0 1 9 (0x400000000040) 4 []).seal (wKey 2))
  let v : State := (State.serveOp ((wRx ((wPkt 0 1 9 (0x400000000040) 4 []).seal (wKey 2))).takePkt 0 ((wPkt 0 1 9 (0x400000000040) 4 []).seal (wKey 2))) false ({ (wPkt 0 1 9 (0x400000000040) 4 [] : Packet) with tag := ((wPkt 0 1 9 (0x400000000040) 4 []).seal (wKey 2)).tag }) .ok).1
  let p : Nat := 0
  let k : Packet := (wPkt 0 1 9 (0x400000000040) 4 []).seal (wKey 2)
  let x : Packet := { (wPkt 0 1 9 (0x400000000040) 4 [] : Packet) with tag := ((wPkt 0 1 9 (0x400000000040) 4 []).seal (wKey 2)).tag }
  let w : Option Nat := none
  let tag : Option Nat := some 0
  let res : OpRes := .ok
  (PacketIn s p k x 0 1) ∧
    ((s.takePkt p k).serveOp false x res = (v, .hold w tag)) := ⟨wit_in rfl rfl rfl (by decide), Prod.ext rfl (by decide)⟩

theorem test_wit_RequestsOfOtherModulesAreServed_3 :
  let s : State := (fun (s : State) => { s with mem := { s.mem with objs := [(5, ⟨0, 2, 0, false, false, false, false, 0x100000, 1⟩)], pages := [(pageKey 5 0, ⟨some (.t2 7), none, 9, [(4, 6)], []⟩)] } }) (wRx ((wPkt 0 2 9 (0x020000000004) 4 [0x04030201]).seal (wKey 2)))
  let v : State := (State.serveOp (((fun (s : State) => { s with mem := { s.mem with objs := [(5, ⟨0, 2, 0, false, false, false, false, 0x100000, 1⟩)], pages := [(pageKey 5 0, ⟨some (.t2 7), none, 9, [(4, 6)], []⟩)] } }) (wRx ((wPkt 0 2 9 (0x020000000004) 4 [0x04030201]).seal (wKey 2)))).takePkt 0 ((wPkt 0 2 9 (0x020000000004) 4 [0x04030201]).seal (wKey 2))) false ({ (wPkt 0 2 9 (0x020000000004) 4 [0x04030201] : Packet) with tag := ((wPkt 0 2 9 (0x020000000004) 4 [0x04030201]).seal (wKey 2)).tag }) .ok).1
  let p : Nat := 0
  let k : Packet := (wPkt 0 2 9 (0x020000000004) 4 [0x04030201]).seal (wKey 2)
  let x : Packet := { (wPkt 0 2 9 (0x020000000004) 4 [0x04030201] : Packet) with tag := ((wPkt 0 2 9 (0x020000000004) 4 [0x04030201]).seal (wKey 2)).tag }
  let st : Status := .ok
  let data : Option (List Byte) := none
  let res : OpRes := .ok
  (PacketIn s p k x 0 2) ∧
    ((s.takePkt p k).serveOp false x res = (v, .reply st data)) := ⟨wit_in rfl rfl rfl (by decide), Prod.ext rfl (by decide)⟩

theorem test_wit_RequestsOfOtherModulesAreServed_4 :
  let s : State := (fun (s : State) => { s with mem := { s.mem with objs := [(5, ⟨0, 2, 0, false, false, false, false, 0x100000, 1⟩)], pages := [(pageKey 5 0, ⟨none, none, 9, [], []⟩)] } }) (wRx ((wPkt 0 2 9 (0x020000000004) 4 [0x04030201]).seal (wKey 2)))
  let v : State := (State.serveOp (((fun (s : State) => { s with mem := { s.mem with objs := [(5, ⟨0, 2, 0, false, false, false, false, 0x100000, 1⟩)], pages := [(pageKey 5 0, ⟨none, none, 9, [], []⟩)] } }) (wRx ((wPkt 0 2 9 (0x020000000004) 4 [0x04030201]).seal (wKey 2)))).takePkt 0 ((wPkt 0 2 9 (0x020000000004) 4 [0x04030201]).seal (wKey 2))) false ({ (wPkt 0 2 9 (0x020000000004) 4 [0x04030201] : Packet) with tag := ((wPkt 0 2 9 (0x020000000004) 4 [0x04030201]).seal (wKey 2)).tag }) .ok).1
  let p : Nat := 0
  let k : Packet := (wPkt 0 2 9 (0x020000000004) 4 [0x04030201]).seal (wKey 2)
  let x : Packet := { (wPkt 0 2 9 (0x020000000004) 4 [0x04030201] : Packet) with tag := ((wPkt 0 2 9 (0x020000000004) 4 [0x04030201]).seal (wKey 2)).tag }
  let w : Option Nat := some 0
  let tag : Option Nat := none
  let res : OpRes := .ok
  (PacketIn s p k x 0 2) ∧
    ((s.takePkt p k).serveOp false x res = (v, .hold w tag)) := ⟨wit_in rfl rfl rfl (by decide), Prod.ext rfl (by decide)⟩

theorem test_wit_RequestsOfOtherModulesAreServed_5 :
  let s : State := (fun (s : State) => { s with queues := [(3, ⟨true, 0, true, true, 0, 0, 0, 1, 0, 0, 0, 0x400000000000, 0, 4, false, true, .ok, false, [], none, none⟩)] }) (wRx ((wPkt 0 3 9 (3) 0 [1, 2, 3, 4, 5, 6, 7, 8, 6, 0]).seal (wKey 2)))
  let v : State := (State.serveOp (((fun (s : State) => { s with queues := [(3, ⟨true, 0, true, true, 0, 0, 0, 1, 0, 0, 0, 0x400000000000, 0, 4, false, true, .ok, false, [], none, none⟩)] }) (wRx ((wPkt 0 3 9 (3) 0 [1, 2, 3, 4, 5, 6, 7, 8, 6, 0]).seal (wKey 2)))).takePkt 0 ((wPkt 0 3 9 (3) 0 [1, 2, 3, 4, 5, 6, 7, 8, 6, 0]).seal (wKey 2))) false ({ (wPkt 0 3 9 (3) 0 [1, 2, 3, 4, 5, 6, 7, 8, 6, 0] : Packet) with tag := ((wPkt 0 3 9 (3) 0 [1, 2, 3, 4, 5, 6, 7, 8, 6, 0]).seal (wKey 2)).tag }) .ok).1
  let p : Nat := 0
  let k : Packet := (wPkt 0 3 9 (3) 0 [1, 2, 3, 4, 5, 6, 7, 8, 6, 0]).seal (wKey 2)
  let x : Packet := { (wPkt 0 3 9 (3) 0 [1, 2, 3, 4, 5, 6, 7, 8, 6, 0] : Packet) with tag := ((wPkt 0 3 9 (3) 0 [1, 2, 3, 4, 5, 6, 7, 8, 6, 0]).seal (wKey 2)).tag }
  let st : Status := .ok
  let data : Option (List Byte) := none
  (PacketIn s p k x 0 3) ∧
    ((s.takePkt p k).serveOp false x .ok = (v, .reply st data)) := ⟨wit_in rfl rfl rfl (by decide), Prod.ext rfl (by decide)⟩

theorem test_wit_RequestsOfOtherModulesAreServed_6 :
  let s : State := (fun (s : State) => { s with queues := [(3, ⟨true, 0, true, true, 0, 0, 0, 16, 0, 0, 0, 0x400000000000, 0, 4, false, true, .ok, false, [], none, none⟩)] }) (wRx ((wPkt 0 3 9 (3) 0 [1, 2, 3, 4, 5, 6, 7, 8, 6, 0]).seal (wKey 2)))
  let v : State := (State.serveOp (((fun (s : State) => { s with queues := [(3, ⟨true, 0, true, true, 0, 0, 0, 16, 0, 0, 0, 0x400000000000, 0, 4, false, true, .ok, false, [], none, none⟩)] }) (wRx ((wPkt 0 3 9 (3) 0 [1, 2, 3, 4, 5, 6, 7, 8, 6, 0]).seal (wKey 2)))).takePkt 0 ((wPkt 0 3 9 (3) 0 [1, 2, 3, 4, 5, 6, 7, 8, 6, 0]).seal (wKey 2))) false ({ (wPkt 0 3 9 (3) 0 [1, 2, 3, 4, 5, 6, 7, 8, 6, 0] : Packet) with tag := ((wPkt 0 3 9 (3) 0 [1, 2, 3, 4, 5, 6, 7, 8, 6, 0]).seal (wKey 2)).tag }) .ok).1
  let p : Nat := 0
  let k : Packet := (wPkt 0 3 9 (3) 0 [1, 2, 3, 4, 5, 6, 7, 8, 6, 0]).seal (wKey 2)
  let x : Packet := { (wPkt 0 3 9 (3) 0 [1, 2, 3, 4, 5, 6, 7, 8, 6, 0] : Packet) with tag := ((wPkt 0 3 9 (3) 0 [1, 2, 3, 4, 5, 6, 7, 8, 6, 0]).seal (wKey 2)).tag }
  let w : Option Nat := none
  let tag : Option Nat := none
  (PacketIn s p k x 0 3) ∧
    ((s.takePkt p k).serveOp false x .ok = (v, .hold w tag)) := ⟨wit_in rfl rfl rfl (by decide), Prod.ext rfl (by decide)⟩

theorem test_wit_RequestsOfOtherModulesAreServed_7 :
  let s : State := (fun (s : State) => { s with mem := { s.mem with objs := [(5, ⟨0, 2, 0, false, false, false, false, 0x100000, 1⟩)], pages := [(pageKey 5 0, ⟨some (.t2 7), none, 9, [(4, 6)], []⟩)] } }) (wRx ((wPkt 0 1 9 (0x020000000004) 4 []).seal (wKey 2)))
  let p : Nat := 0
  let j : Nat := pageKey 5 0
  let k : Packet := (wPkt 0 1 9 (0x020000000004) 4 []).seal (wKey 2)
  let x : Packet := { (wPkt 0 1 9 (0x020000000004) 4 [] : Packet) with tag := ((wPkt 0 1 9 (0x020000000004) 4 []).seal (wKey 2)).tag }
  (PacketIn s p k x 0 1) ∧
    ((localRange x.addr = .t1 ∨ localRange x.addr = .t2)) ∧
    (s.sec.memKeys = true) ∧
    (s.mem.find false x.ctx x.addr = some j) ∧
    (s.pageDown j = false) ∧
    (s.mem.resident j = true) ∧
    ((s.mem.page j).poisonIn (x.addr % pageSize) (x.aux % 2 ^ 9) = []) := ⟨wit_in rfl rfl rfl (by decide), by decide, by decide, by decide, by decide, by decide, by decide⟩

theorem test_wit_RequestsOfOtherModulesAreServed_8 :
  let s : State := (fun (s : State) => { s with mem := { s.mem with objs := [(5, ⟨0, 2, 0, false, false, false, false, 0x100000, 1⟩)], pages := [(pageKey 5 0, ⟨some (.t2 7), none, 9, [(4, 6)], []⟩)] } }) (wRx ((wPkt 0 2 9 (0x020000000004) 4 [0x04030201]).seal (wKey 2)))
  let p : Nat := 0
  let j : Nat := pageKey 5 0
  let k : Packet := (wPkt 0 2 9 (0x020000000004) 4 [0x04030201]).seal (wKey 2)
  let x : Packet := { (wPkt 0 2 9 (0x020000000004) 4 [0x04030201] : Packet) with tag := ((wPkt 0 2 9 (0x020000000004) 4 [0x04030201]).seal (wKey 2)).tag }
  (PacketIn s p k x 0 2) ∧
    ((localRange x.addr = .t1 ∨ localRange x.addr = .t2)) ∧
    (s.sec.memKeys = true) ∧
    (s.mem.find false x.ctx x.addr = some j) ∧
    (s.pageDown j = false) ∧
    (s.mem.resident j = true) := ⟨wit_in rfl rfl rfl (by decide), by decide, by decide, by decide, by decide, by decide⟩

theorem test_wit_RequestsOfOtherModulesAreServed_9 :
  let s : State := (fun (s : State) => { s with queues := [(3, ⟨true, 0, true, true, 0, 0, 0, 1, 0, 0, 0, 0x400000000000, 0, 4, false, true, .ok, false, [], none, none⟩)] }) (wRx ((wPkt 0 3 9 (3) 0 [1, 2, 3, 4, 5, 6, 7, 8, 6, 0]).seal (wKey 2)))
  let p : Nat := 0
  let q : Nat := 3
  let k : Packet := (wPkt 0 3 9 (3) 0 [1, 2, 3, 4, 5, 6, 7, 8, 6, 0]).seal (wKey 2)
  let x : Packet := { (wPkt 0 3 9 (3) 0 [1, 2, 3, 4, 5, 6, 7, 8, 6, 0] : Packet) with tag := ((wPkt 0 3 9 (3) 0 [1, 2, 3, 4, 5, 6, 7, 8, 6, 0]).seal (wKey 2)).tag }
  (PacketIn s p k x 0 3) ∧
    (x.addr = q) ∧
    (q < 262144) ∧
    (fld (x.pw 9) 0 16 < 25600) ∧
    (s.pushRefused q x.ctx = none) ∧
    ((s.fab.pushRecs.any fun r => r.queue = q && r.src = x.src && r.tile = fld (x.pw 9) 0 16) = false) ∧
    ((s.fab.served.any fun y => y.pkt.op = 3 && y.pkt.addr = q) = false) ∧
    ((s.queue q).full = false) ∧
    (localRange ((s.queue q).entryAddr (s.queue q).tail) = .t3) ∧
    (s.t3Denied = false) ∧
    (s.hif.linkUp = true) := ⟨wit_in rfl rfl rfl (by decide), by decide, by decide, by decide, by decide, by decide, by decide, by decide, by decide, by decide, by decide⟩

theorem test_wit_ResponsesCompleteTheirTransactions_1 :
  let s : State := (fun (s : State) => { s with descs := [(4, ⟨.queue 0 0, ⟨0, 1, 2, 0, 0, 0, 0, 0⟩, .move ⟨1, 1, 2, 2 * 2 ^ 48, 0x200, 8, 1, 0, 0, 0, 0⟩ ⟨0, 0, 1, 0, 0, [(0, ⟨0, 0, 0, 8, 0, .reading (.remote 9)⟩)], 1, false, 0, false⟩, .running, .ok, 0, false, none, false, none, none, none⟩)], fab := { s.fab with txns := [(9, ⟨2, 0, 0, .piece 4 0, 0⟩)] } }) (wRx ((wPkt 1 1 9 (0) 0 [5, 6]).seal (wKey 2)))
  let p : Nat := 0
  let id : Nat := 4
  let j : Nat := 0
  let n : Nat := 8
  let a : Nat := 2 * 2 ^ 48
  let k : Packet := (wPkt 1 1 9 (0) 0 [5, 6]).seal (wKey 2)
  let x : Packet := { (wPkt 1 1 9 (0) 0 [5, 6] : Packet) with tag := ((wPkt 1 1 9 (0) 0 [5, 6]).seal (wKey 2)).tag }
  let t : Txn := ⟨2, 0, 0, .piece 4 0, 0⟩
  (PacketIn s p k x 1 1) ∧
    (SMap.get? s.fab.txns x.seqNo.toNat = some t) ∧
    (t.dst = x.src) ∧
    (t.ctx = x.ctx) ∧
    (s.remoteOver t.since = false) ∧
    (t.who = .piece id j) ∧
    ((s.takePkt p k).pieceFor id j x.seqNo.toNat = some (n, a, true)) ∧
    (x.pay.length = ceilDiv (a % 4 + n) 4) ∧
    (Status.ofCode (x.aux % 256) = .ok) := ⟨wit_in rfl rfl rfl (by decide), by decide, by decide, by decide, by decide, by decide, by decide, by decide, by decide⟩

theorem test_wit_ResponsesCompleteTheirTransactions_2 :
  let s : State := (fun (s : State) => { s with descs := [(4, ⟨.queue 0 0, ⟨0, 1, 2, 0, 0, 0, 0, 0⟩, .move ⟨1, 1, 2, 2 * 2 ^ 48, 0x200, 8, 1, 0, 0, 0, 0⟩ ⟨0, 0, 1, 0, 0, [(0, ⟨0, 0, 0, 8, 0, .reading (.remote 9)⟩)], 1, false, 0, false⟩, .running, .ok, 0, false, none, false, none, none, none⟩)], fab := { s.fab with txns := [(9, ⟨2, 0, 0, .piece 4 0, 0⟩)] } }) (wRx ((wPkt 1 1 9 (0) 6 [5, 6]).seal (wKey 2)))
  let p : Nat := 0
  let id : Nat := 4
  let j : Nat := 0
  let n : Nat := 8
  let a : Nat := 2 * 2 ^ 48
  let k : Packet := (wPkt 1 1 9 (0) 6 [5, 6]).seal (wKey 2)
  let x : Packet := { (wPkt 1 1 9 (0) 6 [5, 6] : Packet) with tag := ((wPkt 1 1 9 (0) 6 [5, 6]).seal (wKey 2)).tag }
  let t : Txn := ⟨2, 0, 0, .piece 4 0, 0⟩
  (PacketIn s p k x 1 1) ∧
    (SMap.get? s.fab.txns x.seqNo.toNat = some t) ∧
    (t.dst = x.src) ∧
    (t.ctx = x.ctx) ∧
    (s.remoteOver t.since = false) ∧
    (t.who = .piece id j) ∧
    ((s.takePkt p k).pieceFor id j x.seqNo.toNat = some (n, a, true)) ∧
    (x.pay.length = ceilDiv (a % 4 + n) 4) ∧
    (Status.ofCode (x.aux % 256) = .parity) := ⟨wit_in rfl rfl rfl (by decide), by decide, by decide, by decide, by decide, by decide, by decide, by decide, by decide⟩

theorem test_wit_ResponsesCompleteTheirTransactions_3 :
  let s : State := (fun (s : State) => { s with descs := [(4, ⟨.queue 0 0, ⟨0, 1, 2, 0, 0, 0, 0, 0⟩, .move ⟨1, 1, 2, 2 * 2 ^ 48, 0x200, 8, 1, 0, 0, 0, 0⟩ ⟨0, 0, 1, 0, 0, [(0, ⟨0, 0, 0, 8, 0, .reading (.remote 9)⟩)], 1, false, 0, false⟩, .running, .ok, 0, false, none, false, none, none, none⟩)], fab := { s.fab with txns := [(9, ⟨2, 0, 0, .piece 4 0, 0⟩)] } }) (wRx ((wPkt 1 1 9 (0) 3 [5, 6]).seal (wKey 2)))
  let p : Nat := 0
  let id : Nat := 4
  let j : Nat := 0
  let n : Nat := 8
  let a : Nat := 2 * 2 ^ 48
  let k : Packet := (wPkt 1 1 9 (0) 3 [5, 6]).seal (wKey 2)
  let x : Packet := { (wPkt 1 1 9 (0) 3 [5, 6] : Packet) with tag := ((wPkt 1 1 9 (0) 3 [5, 6]).seal (wKey 2)).tag }
  let t : Txn := ⟨2, 0, 0, .piece 4 0, 0⟩
  (PacketIn s p k x 1 1) ∧
    (SMap.get? s.fab.txns x.seqNo.toNat = some t) ∧
    (t.dst = x.src) ∧
    (t.ctx = x.ctx) ∧
    (s.remoteOver t.since = false) ∧
    (t.who = .piece id j) ∧
    ((s.takePkt p k).pieceFor id j x.seqNo.toNat = some (n, a, true)) ∧
    (x.pay.length = ceilDiv (a % 4 + n) 4) ∧
    (Status.ofCode (x.aux % 256) ≠ .ok) ∧
    (Status.ofCode (x.aux % 256) ≠ .parity) := ⟨wit_in rfl rfl rfl (by decide), by decide, by decide, by decide, by decide, by decide, by decide, by decide, by decide, by decide⟩

theorem test_wit_ResponsesCompleteTheirTransactions_4 :
  let s : State := (fun (s : State) => { s with descs := [(4, ⟨.queue 0 0, ⟨0, 1, 2, 0, 0, 0, 0, 0⟩, .move ⟨1, 1, 2, 2 * 2 ^ 48, 0x200, 8, 1, 0, 0, 0, 0⟩ ⟨0, 0, 1, 0, 0, [(0, ⟨0, 0, 0, 8, 0, .reading (.remote 9)⟩)], 1, false, 0, false⟩, .running, .ok, 0, false, none, false, none, none, none⟩)], fab := { s.fab with txns := [(9, ⟨2, 0, 0, .piece 4 0, 0⟩)] } }) (wRx ((wPkt 1 1 9 (0) 0 [5, 6]).seal (wKey 2)))
  let p : Nat := 0
  let id : Nat := 4
  let j : Nat := 0
  let a : Nat := 2 * 2 ^ 48
  let k : Packet := (wPkt 1 1 9 (0) 0 [5, 6]).seal (wKey 2)
  let x : Packet := { (wPkt 1 1 9 (0) 0 [5, 6] : Packet) with tag := ((wPkt 1 1 9 (0) 0 [5, 6]).seal (wKey 2)).tag }
  let t : Txn := ⟨2, 0, 0, .piece 4 0, 0⟩
  let d : Desc := ⟨.queue 0 0, ⟨0, 1, 2, 0, 0, 0, 0, 0⟩, .move ⟨1, 1, 2, 2 * 2 ^ 48, 0x200, 8, 1, 0, 0, 0, 0⟩ ⟨0, 0, 1, 0, 0, [(0, ⟨0, 0, 0, 8, 0, .reading (.remote 9)⟩)], 1, false, 0, false⟩, .running, .ok, 0, false, none, false, none, none, none⟩
  let b : MoveBody := ⟨1, 1, 2, 2 * 2 ^ 48, 0x200, 8, 1, 0, 0, 0, 0⟩
  let r : MoveRun := ⟨0, 0, 1, 0, 0, [(0, ⟨0, 0, 0, 8, 0, .reading (.remote 9)⟩)], 1, false, 0, false⟩
  let y : Piece := ⟨0, 0, 0, 8, 0, .reading (.remote 9)⟩
  (PacketIn s p k x 1 1) ∧
    (SMap.get? s.fab.txns x.seqNo.toNat = some t) ∧
    (t.dst = x.src) ∧
    (t.ctx = x.ctx) ∧
    (s.remoteOver t.since = false) ∧
    (t.who = .piece id j) ∧
    (s.desc? id = some d) ∧
    (d.body = .move b r) ∧
    (r.stop = false) ∧
    (SMap.get? r.pieces j = some y) ∧
    (y.st = .reading (.remote x.seqNo.toNat)) ∧
    (b.srcAt y.row y.off y.plane = some a) ∧
    (x.aux % 256 = 0) ∧
    (x.pay.length = ceilDiv (a % 4 + y.n) 4) := ⟨wit_in rfl rfl rfl (by decide), by decide, by decide, by decide, by decide, by decide, by decide, by decide, by decide, by decide, by decide, by decide, by decide, by decide⟩

theorem test_wit_ResponsesCompleteTheirTransactions_5 :
  let s : State := (fun (s : State) => { s with descs := [(4, ⟨.queue 0 0, ⟨0, 1, 2, 0, 0, 0, 0, 0⟩, .move ⟨1, 2, 1, 0x200, 2 * 2 ^ 48, 8, 1, 0, 0, 0, 0⟩ ⟨0, 0, 1, 0, 0, [(0, ⟨0, 0, 0, 8, 0, .writing [1, 2, 3, 4, 5, 6, 7, 8] [] (.remote 9)⟩)], 1, false, 0, false⟩, .running, .ok, 0, false, none, false, none, none, none⟩)], fab := { s.fab with txns := [(9, ⟨2, 0, 0, .piece 4 0, 0⟩)] } }) (wRx ((wPkt 1 2 9 (0) 0 []).seal (wKey 2)))
  let p : Nat := 0
  let id : Nat := 4
  let j : Nat := 0
  let n : Nat := 8
  let a : Nat := 2 * 2 ^ 48
  let k : Packet := (wPkt 1 2 9 (0) 0 []).seal (wKey 2)
  let x : Packet := { (wPkt 1 2 9 (0) 0 [] : Packet) with tag := ((wPkt 1 2 9 (0) 0 []).seal (wKey 2)).tag }
  let t : Txn := ⟨2, 0, 0, .piece 4 0, 0⟩
  (PacketIn s p k x 1 2) ∧
    (SMap.get? s.fab.txns x.seqNo.toNat = some t) ∧
    (t.dst = x.src) ∧
    (t.ctx = x.ctx) ∧
    (s.remoteOver t.since = false) ∧
    (t.who = .piece id j) ∧
    ((s.takePkt p k).pieceFor id j x.seqNo.toNat = some (n, a, false)) ∧
    (Status.ofCode (x.aux % 256) = .ok) := ⟨wit_in rfl rfl rfl (by decide), by decide, by decide, by decide, by decide, by decide, by decide, by decide⟩

theorem test_wit_ResponsesCompleteTheirTransactions_6 :
  let s : State := (fun (s : State) => { s with descs := [(4, ⟨.queue 0 0, ⟨0, 1, 2, 0, 0, 0, 0, 0⟩, .move ⟨1, 2, 1, 0x200, 2 * 2 ^ 48, 8, 1, 0, 0, 0, 0⟩ ⟨0, 0, 1, 0, 0, [(0, ⟨0, 0, 0, 8, 0, .writing [1, 2, 3, 4, 5, 6, 7, 8] [] (.remote 9)⟩)], 1, false, 0, false⟩, .running, .ok, 0, false, none, false, none, none, none⟩)], fab := { s.fab with txns := [(9, ⟨2, 0, 0, .piece 4 0, 0⟩)] } }) (wRx ((wPkt 1 2 9 (0) 2 []).seal (wKey 2)))
  let p : Nat := 0
  let id : Nat := 4
  let j : Nat := 0
  let n : Nat := 8
  let a : Nat := 2 * 2 ^ 48
  let rd : Bool := false
  let k : Packet := (wPkt 1 2 9 (0) 2 []).seal (wKey 2)
  let x : Packet := { (wPkt 1 2 9 (0) 2 [] : Packet) with tag := ((wPkt 1 2 9 (0) 2 []).seal (wKey 2)).tag }
  let t : Txn := ⟨2, 0, 0, .piece 4 0, 0⟩
  (PacketIn s p k x 1 2) ∧
    (SMap.get? s.fab.txns x.seqNo.toNat = some t) ∧
    (t.dst = x.src) ∧
    (t.ctx = x.ctx) ∧
    (s.remoteOver t.since = false) ∧
    (t.who = .piece id j) ∧
    ((s.takePkt p k).pieceFor id j x.seqNo.toNat = some (n, a, rd)) ∧
    (Status.ofCode (x.aux % 256) ≠ .ok) := ⟨wit_in rfl rfl rfl (by decide), by decide, by decide, by decide, by decide, by decide, by decide, by decide⟩

theorem test_wit_ResponsesCompleteTheirTransactions_7 :
  let s : State := (fun (s : State) => { s with descs := s.descs, fab := { s.fab with txns := [(9, ⟨2, 0, 0, .push 0 16, 0⟩)] } }) (wRx ((wPkt 1 2 9 (0) 0 []).seal (wKey 2)))
  let p : Nat := 0
  let l : Nat := 0
  let pc : Nat := 16
  let k : Packet := (wPkt 1 2 9 (0) 0 []).seal (wKey 2)
  let x : Packet := { (wPkt 1 2 9 (0) 0 [] : Packet) with tag := ((wPkt 1 2 9 (0) 0 []).seal (wKey 2)).tag }
  let t : Txn := ⟨2, 0, 0, .push 0 16, 0⟩
  (PacketIn s p k x 1 2) ∧
    (SMap.get? s.fab.txns x.seqNo.toNat = some t) ∧
    (t.dst = x.src) ∧
    (t.ctx = x.ctx) ∧
    (s.remoteOver t.since = false) ∧
    (t.who = .push l pc) := ⟨wit_in rfl rfl rfl (by decide), by decide, by decide, by decide, by decide, by decide⟩

theorem test_wit_ResponsesCompleteTheirTransactions_7_2 :
  let s : State := (fun (s : State) => { s with descs := s.descs, fab := { s.fab with txns := [(9, ⟨2, 0, 0, .push 0 16, 0⟩)] } }) (wRx ((wPkt 1 2 9 (0) 2 []).seal (wKey 2)))
  let p : Nat := 0
  let l : Nat := 0
  let pc : Nat := 16
  let k : Packet := (wPkt 1 2 9 (0) 2 []).seal (wKey 2)
  let x : Packet := { (wPkt 1 2 9 (0) 2 [] : Packet) with tag := ((wPkt 1 2 9 (0) 2 []).seal (wKey 2)).tag }
  let t : Txn := ⟨2, 0, 0, .push 0 16, 0⟩
  (PacketIn s p k x 1 2) ∧
    (SMap.get? s.fab.txns x.seqNo.toNat = some t) ∧
    (t.dst = x.src) ∧
    (t.ctx = x.ctx) ∧
    (s.remoteOver t.since = false) ∧
    (t.who = .push l pc) := ⟨wit_in rfl rfl rfl (by decide), by decide, by decide, by decide, by decide, by decide⟩

theorem test_wit_ResponsesCompleteTheirTransactions_8 :
  let s : State := wRx ((wPkt 1 2 9 (0) 0 []).seal (wKey 2))
  let p : Nat := 0
  let op : Nat := 2
  let k : Packet := (wPkt 1 2 9 (0) 0 []).seal (wKey 2)
  let x : Packet := { (wPkt 1 2 9 (0) 0 [] : Packet) with tag := ((wPkt 1 2 9 (0) 0 []).seal (wKey 2)).tag }
  let c : Instr := .rspAck 0 ((wPkt 1 2 9 (0) 0 []).seal (wKey 2))
  (PacketIn s p k x 1 op) ∧
    ((op = 1 ∨ op = 2)) ∧
    (c = (if op = 1 then .rspRdata p k else .rspAck p k)) ∧
    ((match SMap.get? s.fab.txns x.seqNo.toNat with | some t => decide (t.dst ≠ x.src ∨ t.ctx ≠ x.ctx) | none => true) = true) := ⟨wit_in rfl rfl rfl (by decide), by decide, by decide, by decide⟩

theorem test_wit_CollectivePacketsReachTheirInstance_1 :
  let s : State := wRx ((wPkt 2 1 0 (wCollAddr) 2 [7, 8]).seal (wKey 2))
  let v : State := (State.takePkt (wRx ((wPkt 2 1 0 (wCollAddr) 2 [7, 8]).seal (wKey 2))) 0 ((wPkt 2 1 0 (wCollAddr) 2 [7, 8]).seal (wKey 2))).dropOver
  let p : Nat := 0
  let k : Packet := (wPkt 2 1 0 (wCollAddr) 2 [7, 8]).seal (wKey 2)
  let x : Packet := { (wPkt 2 1 0 (wCollAddr) 2 [7, 8] : Packet) with tag := ((wPkt 2 1 0 (wCollAddr) 2 [7, 8]).seal (wKey 2)).tag }
  let g : CGroup := ⟨0, 1, [2, 1]⟩
  let f : Fmt := .h16
  let sg : Nat := 0
  let n : Nat := 8
  (CollIn s p k x 1 g v) ∧
    (fmtOf (nbits x.addr 40 4) = some f) ∧
    ((((v.instOr x.collKey).phase = .write ∨ (v.instOr x.collKey).phase = .past ∨ v.collStale x.collKey = true) → (v.lateShard x.collKey g.rank).isSome = true)) ∧
    ((v.instOr x.collKey).roomAt g.rank x.rank (x.aux * fmtBits f / 8) (4 * x.pay.length) = some (sg, n)) ∧
    (v.segTaken x.collKey x.rank sg = false) ∧
    ((0 < n → ivCovers ((v.instOr x.collKey).inFrom x.rank).got (x.aux * fmtBits f / 8) n = false)) := ⟨⟨wit_in rfl rfl rfl (by decide), rfl, by decide, by decide, by decide, by decide, by decide⟩, by decide, by decide, by decide, by decide, by decide⟩

theorem test_wit_CollectivePacketsReachTheirInstance_2 :
  let s : State := wRx ((wPkt 2 1 0 (wCollAddr) 2 [7, 8]).seal (wKey 2))
  let v : State := (State.takePkt (wRx ((wPkt 2 1 0 (wCollAddr) 2 [7, 8]).seal (wKey 2))) 0 ((wPkt 2 1 0 (wCollAddr) 2 [7, 8]).seal (wKey 2))).dropOver
  let p : Nat := 0
  let k : Packet := (wPkt 2 1 0 (wCollAddr) 2 [7, 8]).seal (wKey 2)
  let x : Packet := { (wPkt 2 1 0 (wCollAddr) 2 [7, 8] : Packet) with tag := ((wPkt 2 1 0 (wCollAddr) 2 [7, 8]).seal (wKey 2)).tag }
  let g : CGroup := ⟨0, 1, [2, 1]⟩
  let f : Fmt := .h16
  (CollIn s p k x 1 g v) ∧
    (fmtOf (nbits x.addr 40 4) = some f) ∧
    ((v.instOr x.collKey).body = none) ∧
    ((v.instOr x.collKey).phase = .early) ∧
    (v.collStale x.collKey = false) ∧
    (v.segTaken x.collKey x.rank ((x.aux * fmtBits f / 8) / segSize) = false) ∧
    (ivCovers ((v.instOr x.collKey).inFrom x.rank).got (x.aux * fmtBits f / 8) (4 * x.pay.length) = false) := ⟨⟨wit_in rfl rfl rfl (by decide), rfl, by decide, by decide, by decide, by decide, by decide⟩, by decide, by decide, by decide, by decide, by decide, by decide⟩

theorem test_wit_CollectivePacketsReachTheirInstance_3 :
  let s : State := wRx ((wPkt 2 2 0 (wCollAddr) 0 [99, 0]).seal (wKey 2))
  let v : State := (State.takePkt (wRx ((wPkt 2 2 0 (wCollAddr) 0 [99, 0]).seal (wKey 2))) 0 ((wPkt 2 2 0 (wCollAddr) 0 [99, 0]).seal (wKey 2))).dropOver
  let p : Nat := 0
  let k : Packet := (wPkt 2 2 0 (wCollAddr) 0 [99, 0]).seal (wKey 2)
  let x : Packet := { (wPkt 2 2 0 (wCollAddr) 0 [99, 0] : Packet) with tag := ((wPkt 2 2 0 (wCollAddr) 0 [99, 0]).seal (wKey 2)).tag }
  let g : CGroup := ⟨0, 1, [2, 1]⟩
  (CollIn s p k x 2 g v) ∧
    (v.segTaken x.collKey x.rank (x.pw 1).toNat = false) ∧
    (((v.lateShard x.collKey g.rank).filter fun n => decide ((x.pw 1).toNat < segsOf n)) = none) ∧
    (¬ ((v.instOr x.collKey).phase = .write ∨ (v.instOr x.collKey).phase = .past ∨ v.collStale x.collKey = true)) := ⟨⟨wit_in rfl rfl rfl (by decide), rfl, by decide, by decide, by decide, by decide, by decide⟩, by decide, by decide, by decide⟩

theorem test_wit_CollectivePacketsReachTheirInstance_3_2 :
  let s : State := (fun (s : State) => { s with fab := { s.fab with insts := [⟨⟨0, 0, 5, 0⟩, some 4, some ⟨.allgather, 0, 0, 0, 0, 0x40, 0x80, 8, 2, 0, 0, 5, 1000, 0⟩, .run, .job, 0, [(4, 0), (4, 0)], [(1, false), (2, false), (3, false), (4, false), (5, false), (6, false), (7, false), (8, false)], false, [], [⟨0, [], [(0, 8)], [0], 5⟩], 0, false, none, [], .ok, false, [], 0, [], [], [], [], false, false, none⟩] } }) (wRx ((wPkt 2 2 0 (wCollAddr) 0 [99, 0]).seal (wKey 2)))
  let v : State := (State.takePkt ((fun (s : State) => { s with fab := { s.fab with insts := [⟨⟨0, 0, 5, 0⟩, some 4, some ⟨.allgather, 0, 0, 0, 0, 0x40, 0x80, 8, 2, 0, 0, 5, 1000, 0⟩, .run, .job, 0, [(4, 0), (4, 0)], [(1, false), (2, false), (3, false), (4, false), (5, false), (6, false), (7, false), (8, false)], false, [], [⟨0, [], [(0, 8)], [0], 5⟩], 0, false, none, [], .ok, false, [], 0, [], [], [], [], false, false, none⟩] } }) (wRx ((wPkt 2 2 0 (wCollAddr) 0 [99, 0]).seal (wKey 2)))) 0 ((wPkt 2 2 0 (wCollAddr) 0 [99, 0]).seal (wKey 2))).dropOver
  let p : Nat := 0
  let k : Packet := (wPkt 2 2 0 (wCollAddr) 0 [99, 0]).seal (wKey 2)
  let x : Packet := { (wPkt 2 2 0 (wCollAddr) 0 [99, 0] : Packet) with tag := ((wPkt 2 2 0 (wCollAddr) 0 [99, 0]).seal (wKey 2)).tag }
  let g : CGroup := ⟨0, 1, [2, 1]⟩
  (CollIn s p k x 2 g v) ∧
    (v.segTaken x.collKey x.rank (x.pw 1).toNat = false) ∧
    (((v.lateShard x.collKey g.rank).filter fun n => decide ((x.pw 1).toNat < segsOf n)) = none) ∧
    (¬ ((v.instOr x.collKey).phase = .write ∨ (v.instOr x.collKey).phase = .past ∨ v.collStale x.collKey = true)) := ⟨⟨wit_in rfl rfl rfl (by decide), rfl, by decide, by decide, by decide, by decide, by decide⟩, by decide, by decide, by decide⟩

theorem test_wit_CollectivePacketsReachTheirInstance_4 :
  let s : State := (fun (s : State) => { s with fab := { s.fab with insts := [⟨⟨0, 0, 5, 0⟩, some 4, some ⟨.reducescatter, 0, 0, 0, 0, 0x40, 0x80, 8, 2, 0, 0, 5, 1000, 0⟩, .write, .job, 0, [(4, 0), (4, 0)], [(1, false), (2, false), (3, false), (4, false), (5, false), (6, false), (7, false), (8, false)], false, [], [⟨0, [], [(0, 8)], [0], 5⟩], 0, false, some ([], 0), [], .ok, false, [], 0, [], [], [], [], false, false, none⟩] } }) (wRx ((wPkt 2 2 0 (wCollAddr) 0 [99, 0]).seal (wKey 2)))
  let v : State := (State.takePkt ((fun (s : State) => { s with fab := { s.fab with insts := [⟨⟨0, 0, 5, 0⟩, some 4, some ⟨.reducescatter, 0, 0, 0, 0, 0x40, 0x80, 8, 2, 0, 0, 5, 1000, 0⟩, .write, .job, 0, [(4, 0), (4, 0)], [(1, false), (2, false), (3, false), (4, false), (5, false), (6, false), (7, false), (8, false)], false, [], [⟨0, [], [(0, 8)], [0], 5⟩], 0, false, some ([], 0), [], .ok, false, [], 0, [], [], [], [], false, false, none⟩] } }) (wRx ((wPkt 2 2 0 (wCollAddr) 0 [99, 0]).seal (wKey 2)))) 0 ((wPkt 2 2 0 (wCollAddr) 0 [99, 0]).seal (wKey 2))).dropOver
  let p : Nat := 0
  let k : Packet := (wPkt 2 2 0 (wCollAddr) 0 [99, 0]).seal (wKey 2)
  let x : Packet := { (wPkt 2 2 0 (wCollAddr) 0 [99, 0] : Packet) with tag := ((wPkt 2 2 0 (wCollAddr) 0 [99, 0]).seal (wKey 2)).tag }
  let g : CGroup := ⟨0, 1, [2, 1]⟩
  let n : Nat := 8
  (CollIn s p k x 2 g v) ∧
    (v.segTaken x.collKey x.rank (x.pw 1).toNat = false) ∧
    (((v.lateShard x.collKey g.rank).filter fun n => decide ((x.pw 1).toNat < segsOf n)) = some n) := ⟨⟨wit_in rfl rfl rfl (by decide), rfl, by decide, by decide, by decide, by decide, by decide⟩, by decide, by decide⟩

theorem test_wit_CollectivePacketsReachTheirInstance_5 :
  let s : State := wRx ((wPkt 2 2 0 (wCollAddr) 0 [99, 0]).seal (wKey 2))
  let v : State := (State.takePkt (wRx ((wPkt 2 2 0 (wCollAddr) 0 [99, 0]).seal (wKey 2))) 0 ((wPkt 2 2 0 (wCollAddr) 0 [99, 0]).seal (wKey 2))).dropOver
  let p : Nat := 0
  let k : Packet := (wPkt 2 2 0 (wCollAddr) 0 [99, 0]).seal (wKey 2)
  let x : Packet := { (wPkt 2 2 0 (wCollAddr) 0 [99, 0] : Packet) with tag := ((wPkt 2 2 0 (wCollAddr) 0 [99, 0]).seal (wKey 2)).tag }
  let g : CGroup := ⟨0, 1, [2, 1]⟩
  (CollIn s p k x 2 g v) ∧
    (v.doneInst? x.collKey = none) ∧
    (v.segTaken x.collKey x.rank (x.pw 1).toNat = false) ∧
    ((v.instOr x.collKey).body = none) ∧
    ((v.instOr x.collKey).phase = .early) := ⟨⟨wit_in rfl rfl rfl (by decide), rfl, by decide, by decide, by decide, by decide, by decide⟩, by decide, by decide, by decide, by decide⟩

theorem test_wit_CollectivePacketsReachTheirInstance_6 :
  let s : State := wRx ((wPkt 2 4 0 (wCollAddr) 0 [4, 0, 4, 0]).seal (wKey 2))
  let v : State := (State.takePkt (wRx ((wPkt 2 4 0 (wCollAddr) 0 [4, 0, 4, 0]).seal (wKey 2))) 0 ((wPkt 2 4 0 (wCollAddr) 0 [4, 0, 4, 0]).seal (wKey 2))).dropOver
  let p : Nat := 0
  let k : Packet := (wPkt 2 4 0 (wCollAddr) 0 [4, 0, 4, 0]).seal (wKey 2)
  let x : Packet := { (wPkt 2 4 0 (wCollAddr) 0 [4, 0, 4, 0] : Packet) with tag := ((wPkt 2 4 0 (wCollAddr) 0 [4, 0, 4, 0]).seal (wKey 2)).tag }
  let g : CGroup := ⟨0, 1, [2, 1]⟩
  (CollIn s p k x 4 g v) ∧
    (¬ ((v.instOr x.collKey).phase = .write ∨ (v.instOr x.collKey).phase = .past ∨ v.collStale x.collKey = true)) := ⟨⟨wit_in rfl rfl rfl (by decide), rfl, by decide, by decide, by decide, by decide, by decide⟩, by decide⟩

theorem test_wit_CollectivePacketsReachTheirInstance_7 :
  let s : State := wRx ((wPkt 2 4 0 (wCollAddr) 0 [4, 0, 4, 0]).seal (wKey 2))
  let v : State := (State.takePkt (wRx ((wPkt 2 4 0 (wCollAddr) 0 [4, 0, 4, 0]).seal (wKey 2))) 0 ((wPkt 2 4 0 (wCollAddr) 0 [4, 0, 4, 0]).seal (wKey 2))).dropOver
  let p : Nat := 0
  let k : Packet := (wPkt 2 4 0 (wCollAddr) 0 [4, 0, 4, 0]).seal (wKey 2)
  let x : Packet := { (wPkt 2 4 0 (wCollAddr) 0 [4, 0, 4, 0] : Packet) with tag := ((wPkt 2 4 0 (wCollAddr) 0 [4, 0, 4, 0]).seal (wKey 2)).tag }
  let g : CGroup := ⟨0, 1, [2, 1]⟩
  (CollIn s p k x 4 g v) ∧
    ((v.instOr x.collKey).body = none) ∧
    ((v.instOr x.collKey).phase = .early) ∧
    (v.collStale x.collKey = false) ∧
    (((v.instOr x.collKey).outs.any fun o => o.rank = x.rank) = false) := ⟨⟨wit_in rfl rfl rfl (by decide), rfl, by decide, by decide, by decide, by decide, by decide⟩, by decide, by decide, by decide, by decide⟩

theorem test_wit_CollectivePacketsReachTheirInstance_8 :
  let s : State := wRx ((wPkt 2 5 0 (wCollAddr) 0 [9]).seal (wKey 2))
  let v : State := (State.takePkt (wRx ((wPkt 2 5 0 (wCollAddr) 0 [9]).seal (wKey 2))) 0 ((wPkt 2 5 0 (wCollAddr) 0 [9]).seal (wKey 2))).dropOver
  let p : Nat := 0
  let k : Packet := (wPkt 2 5 0 (wCollAddr) 0 [9]).seal (wKey 2)
  let x : Packet := { (wPkt 2 5 0 (wCollAddr) 0 [9] : Packet) with tag := ((wPkt 2 5 0 (wCollAddr) 0 [9]).seal (wKey 2)).tag }
  let g : CGroup := ⟨0, 1, [2, 1]⟩
  (CollIn s p k x 5 g v) ∧
    (v.collStale x.collKey = false) := ⟨⟨wit_in rfl rfl rfl (by decide), rfl, by decide, by decide, by decide, by decide, by decide⟩, by decide⟩

theorem test_wit_CollectivePacketsReachTheirInstance_8_2 :
  let s : State := (fun (s : State) => { s with fab := { s.fab with insts := [⟨⟨0, 0, 5, 0⟩, some 4, some ⟨.allgather, 0, 0, 0, 0, 0x40, 0x80, 8, 2, 0, 0, 5, 1000, 0⟩, .run, .job, 0, [(4, 0), (4, 0)], [(1, false), (2, false), (3, false), (4, false), (5, false), (6, false), (7, false), (8, false)], false, [], [⟨0, [], [(0, 8)], [0], 5⟩], 0, false, none, [], .ok, false, [], 0, [], [], [], [], false, false, none⟩] } }) (wRx ((wPkt 2 5 0 (wCollAddr) 0 [9]).seal (wKey 2)))
  let v : State := (State.takePkt ((fun (s : State) => { s with fab := { s.fab with insts := [⟨⟨0, 0, 5, 0⟩, some 4, some ⟨.allgather, 0, 0, 0, 0, 0x40, 0x80, 8, 2, 0, 0, 5, 1000, 0⟩, .run, .job, 0, [(4, 0), (4, 0)], [(1, false), (2, false), (3, false), (4, false), (5, false), (6, false), (7, false), (8, false)], false, [], [⟨0, [], [(0, 8)], [0], 5⟩], 0, false, none, [], .ok, false, [], 0, [], [], [], [], false, false, none⟩] } }) (wRx ((wPkt 2 5 0 (wCollAddr) 0 [9]).seal (wKey 2)))) 0 ((wPkt 2 5 0 (wCollAddr) 0 [9]).seal (wKey 2))).dropOver
  let p : Nat := 0
  let k : Packet := (wPkt 2 5 0 (wCollAddr) 0 [9]).seal (wKey 2)
  let x : Packet := { (wPkt 2 5 0 (wCollAddr) 0 [9] : Packet) with tag := ((wPkt 2 5 0 (wCollAddr) 0 [9]).seal (wKey 2)).tag }
  let g : CGroup := ⟨0, 1, [2, 1]⟩
  (CollIn s p k x 5 g v) ∧
    (v.collStale x.collKey = false) := ⟨⟨wit_in rfl rfl rfl (by decide), rfl, by decide, by decide, by decide, by decide, by decide⟩, by decide⟩

theorem test_wit_CollectivePacketsReachTheirInstance_9 :
  let s : State := (fun (s : State) => { s with fab := { s.fab with insts := [⟨⟨0, 0, 5, 0⟩, some 4, some ⟨.allgather, 0, 0, 0, 0, 0x40, 0x80, 8, 2, 0, 0, 5, 1000, 0⟩, .run, .job, 0, [(4, 0), (4, 0)], [(1, false), (2, false), (3, false), (4, false), (5, false), (6, false), (7, false), (8, false)], false, [], [⟨0, [], [(0, 8)], [0], 5⟩], 0, false, none, [], .ok, false, [], 0, [], [], [], [], false, false, none⟩] } }) (wRx ((wPkt 2 5 0 (wCollAddr) 0 [9]).seal (wKey 2)))
  let v : State := (State.takePkt ((fun (s : State) => { s with fab := { s.fab with insts := [⟨⟨0, 0, 5, 0⟩, some 4, some ⟨.allgather, 0, 0, 0, 0, 0x40, 0x80, 8, 2, 0, 0, 5, 1000, 0⟩, .run, .job, 0, [(4, 0), (4, 0)], [(1, false), (2, false), (3, false), (4, false), (5, false), (6, false), (7, false), (8, false)], false, [], [⟨0, [], [(0, 8)], [0], 5⟩], 0, false, none, [], .ok, false, [], 0, [], [], [], [], false, false, none⟩] } }) (wRx ((wPkt 2 5 0 (wCollAddr) 0 [9]).seal (wKey 2)))) 0 ((wPkt 2 5 0 (wCollAddr) 0 [9]).seal (wKey 2))).dropOver
  let p : Nat := 0
  let k : Packet := (wPkt 2 5 0 (wCollAddr) 0 [9]).seal (wKey 2)
  let x : Packet := { (wPkt 2 5 0 (wCollAddr) 0 [9] : Packet) with tag := ((wPkt 2 5 0 (wCollAddr) 0 [9]).seal (wKey 2)).tag }
  let g : CGroup := ⟨0, 1, [2, 1]⟩
  let i : Inst := ⟨⟨0, 0, 5, 0⟩, some 4, some ⟨.allgather, 0, 0, 0, 0, 0x40, 0x80, 8, 2, 0, 0, 5, 1000, 0⟩, .run, .job, 0, [(4, 0), (4, 0)], [(1, false), (2, false), (3, false), (4, false), (5, false), (6, false), (7, false), (8, false)], false, [], [⟨0, [], [(0, 8)], [0], 5⟩], 0, false, none, [], .ok, false, [], 0, [], [], [], [], false, false, none⟩
  (CollIn s p k x 5 g v) ∧
    (v.inst? x.collKey = some i) ∧
    (i.phase ≠ .past) ∧
    ((i.outs.any fun o => o.rank = x.rank) = true) := ⟨⟨wit_in rfl rfl rfl (by decide), rfl, by decide, by decide, by decide, by decide, by decide⟩, by decide, by decide, by decide⟩

theorem test_wit_CollectivePacketsReachTheirInstance_10 :
  let s : State := (fun (s : State) => { s with fab := { s.fab with cgroups := [(0, ⟨0, 0, [1, 2]⟩)] } }) (wRx ((wPkt 2 6 0 (5 + 1 * 2 ^ 26) 0 [2]).seal (wKey 2)))
  let v : State := (State.takePkt ((fun (s : State) => { s with fab := { s.fab with cgroups := [(0, ⟨0, 0, [1, 2]⟩)] } }) (wRx ((wPkt 2 6 0 (5 + 1 * 2 ^ 26) 0 [2]).seal (wKey 2)))) 0 ((wPkt 2 6 0 (5 + 1 * 2 ^ 26) 0 [2]).seal (wKey 2))).dropOver
  let p : Nat := 0
  let k : Packet := (wPkt 2 6 0 (5 + 1 * 2 ^ 26) 0 [2]).seal (wKey 2)
  let x : Packet := { (wPkt 2 6 0 (5 + 1 * 2 ^ 26) 0 [2] : Packet) with tag := ((wPkt 2 6 0 (5 + 1 * 2 ^ 26) 0 [2]).seal (wKey 2)).tag }
  let g : CGroup := ⟨0, 0, [1, 2]⟩
  (CollIn s p k x 6 g v) ∧
    (g.rank = 0) ∧
    (¬ ((v.instOr x.collKey).phase = .write ∨ (v.instOr x.collKey).phase = .past ∨ v.collStale x.collKey = true)) ∧
    (((v.instOr x.collKey).arrived.any fun a => a.1 = x.rank) = false) := ⟨⟨wit_in rfl rfl rfl (by decide), rfl, by decide, by decide, by decide, by decide, by decide⟩, by decide, by decide, by decide⟩

theorem test_wit_CollectivePacketsReachTheirInstance_11 :
  let s : State := (fun (s : State) => { s with fab := { s.fab with cgroups := [(0, ⟨0, 0, [1, 2]⟩)] } }) (wRx ((wPkt 2 6 0 (5 + 1 * 2 ^ 26) 0 [2]).seal (wKey 2)))
  let v : State := (State.takePkt ((fun (s : State) => { s with fab := { s.fab with cgroups := [(0, ⟨0, 0, [1, 2]⟩)] } }) (wRx ((wPkt 2 6 0 (5 + 1 * 2 ^ 26) 0 [2]).seal (wKey 2)))) 0 ((wPkt 2 6 0 (5 + 1 * 2 ^ 26) 0 [2]).seal (wKey 2))).dropOver
  let p : Nat := 0
  let k : Packet := (wPkt 2 6 0 (5 + 1 * 2 ^ 26) 0 [2]).seal (wKey 2)
  let x : Packet := { (wPkt 2 6 0 (5 + 1 * 2 ^ 26) 0 [2] : Packet) with tag := ((wPkt 2 6 0 (5 + 1 * 2 ^ 26) 0 [2]).seal (wKey 2)).tag }
  let g : CGroup := ⟨0, 0, [1, 2]⟩
  (CollIn s p k x 6 g v) ∧
    (g.rank = 0) ∧
    ((v.instOr x.collKey).body = none) ∧
    ((v.instOr x.collKey).phase = .early) ∧
    (v.collStale x.collKey = false) ∧
    (((v.instOr x.collKey).arrived.any fun a => a.1 = x.rank) = false) := ⟨⟨wit_in rfl rfl rfl (by decide), rfl, by decide, by decide, by decide, by decide, by decide⟩, by decide, by decide, by decide, by decide, by decide⟩

theorem test_wit_CollectivePacketsReachTheirInstance_12 :
  let s : State := wRx ((wPkt 2 7 0 (wCollAddr) 0 [1]).seal (wKey 2))
  let v : State := (State.takePkt (wRx ((wPkt 2 7 0 (wCollAddr) 0 [1]).seal (wKey 2))) 0 ((wPkt 2 7 0 (wCollAddr) 0 [1]).seal (wKey 2))).dropOver
  let p : Nat := 0
  let k : Packet := (wPkt 2 7 0 (wCollAddr) 0 [1]).seal (wKey 2)
  let x : Packet := { (wPkt 2 7 0 (wCollAddr) 0 [1] : Packet) with tag := ((wPkt 2 7 0 (wCollAddr) 0 [1]).seal (wKey 2)).tag }
  let g : CGroup := ⟨0, 1, [2, 1]⟩
  (CollIn s p k x 7 g v) ∧
    (x.rank = 0) ∧
    (¬ ((v.instOr x.collKey).phase = .write ∨ (v.instOr x.collKey).phase = .past ∨ v.collStale x.collKey = true)) ∧
    ((v.instOr x.collKey).decided = none) := ⟨⟨wit_in rfl rfl rfl (by decide), rfl, by decide, by decide, by decide, by decide, by decide⟩, by decide, by decide, by decide⟩

theorem test_wit_CollectivePacketsReachTheirInstance_13 :
  let s : State := wRx ((wPkt 2 7 0 (wCollAddr) 0 [1]).seal (wKey 2))
  let v : State := (State.takePkt (wRx ((wPkt 2 7 0 (wCollAddr) 0 [1]).seal (wKey 2))) 0 ((wPkt 2 7 0 (wCollAddr) 0 [1]).seal (wKey 2))).dropOver
  let p : Nat := 0
  let k : Packet := (wPkt 2 7 0 (wCollAddr) 0 [1]).seal (wKey 2)
  let x : Packet := { (wPkt 2 7 0 (wCollAddr) 0 [1] : Packet) with tag := ((wPkt 2 7 0 (wCollAddr) 0 [1]).seal (wKey 2)).tag }
  let g : CGroup := ⟨0, 1, [2, 1]⟩
  (CollIn s p k x 7 g v) ∧
    (x.rank = 0) ∧
    ((v.instOr x.collKey).body = none) ∧
    ((v.instOr x.collKey).phase = .early) ∧
    (v.collStale x.collKey = false) ∧
    ((v.instOr x.collKey).decided = none) := ⟨⟨wit_in rfl rfl rfl (by decide), rfl, by decide, by decide, by decide, by decide, by decide⟩, by decide, by decide, by decide, by decide, by decide⟩

theorem test_wit_CollectivesAnswerAndExpire_1 :
  let s : State := (fun (s : State) => { s with fab := { s.fab with insts := [⟨⟨0, 0, 5, 0⟩, some 4, some ⟨.allgather, 0, 0, 0, 0, 0x40, 0x80, 8, 2, 0, 0, 5, 1000, 0⟩, .run, .job, 0, [(4, 0), (4, 0)], [(1, false), (2, false), (3, false), (4, false), (5, false), (6, false), (7, false), (8, false)], false, [], [⟨0, [], [(0, 8)], [0], 5⟩], 0, false, none, [], .ok, false, [], 0, [], [], [], [], false, false, none⟩] } }) (wRx ((wPkt 2 3 0 (wCollAddr) 0 [0]).seal (wKey 2)))
  let v : State := (State.takePkt ((fun (s : State) => { s with fab := { s.fab with insts := [⟨⟨0, 0, 5, 0⟩, some 4, some ⟨.allgather, 0, 0, 0, 0, 0x40, 0x80, 8, 2, 0, 0, 5, 1000, 0⟩, .run, .job, 0, [(4, 0), (4, 0)], [(1, false), (2, false), (3, false), (4, false), (5, false), (6, false), (7, false), (8, false)], false, [], [⟨0, [], [(0, 8)], [0], 5⟩], 0, false, none, [], .ok, false, [], 0, [], [], [], [], false, false, none⟩] } }) (wRx ((wPkt 2 3 0 (wCollAddr) 0 [0]).seal (wKey 2)))) 0 ((wPkt 2 3 0 (wCollAddr) 0 [0]).seal (wKey 2))).dropOver
  let p : Nat := 0
  let k : Packet := (wPkt 2 3 0 (wCollAddr) 0 [0]).seal (wKey 2)
  let x : Packet := { (wPkt 2 3 0 (wCollAddr) 0 [0] : Packet) with tag := ((wPkt 2 3 0 (wCollAddr) 0 [0]).seal (wKey 2)).tag }
  let g : CGroup := ⟨0, 1, [2, 1]⟩
  let i : Inst := ⟨⟨0, 0, 5, 0⟩, some 4, some ⟨.allgather, 0, 0, 0, 0, 0x40, 0x80, 8, 2, 0, 0, 5, 1000, 0⟩, .run, .job, 0, [(4, 0), (4, 0)], [(1, false), (2, false), (3, false), (4, false), (5, false), (6, false), (7, false), (8, false)], false, [], [⟨0, [], [(0, 8)], [0], 5⟩], 0, false, none, [], .ok, false, [], 0, [], [], [], [], false, false, none⟩
  let b : CollBody := ⟨.allgather, 0, 0, 0, 0, 0x40, 0x80, 8, 2, 0, 0, 5, 1000, 0⟩
  let lo : Nat := 0
  let n : Nat := 8
  (CollIn s p k x 3 g v) ∧
    (v.inst? x.collKey = some i) ∧
    (i.body = some b) ∧
    (i.sized = true) ∧
    (s.now < b.deadline) ∧
    (segRange (i.contrib b g.rank x.rank) (if i.result.isSome then i.resultPart b g.rank x.rank else 0) (x.pw 0).toNat = some (lo, n)) := ⟨⟨wit_in rfl rfl rfl (by decide), rfl, by decide, by decide, by decide, by decide, by decide⟩, by decide, by decide, by decide, by decide, by decide⟩

theorem test_wit_CollectivesAnswerAndExpire_1_2 :
  let s : State := (fun (s : State) => { s with fab := { s.fab with insts := [⟨⟨0, 0, 5, 0⟩, some 4, some ⟨.allgather, 0, 0, 0, 0, 0x40, 0x80, 8, 2, 0, 0, 5, 1000, 0⟩, .past, .job, 0, [(4, 0), (4, 0)], [(1, false), (2, false), (3, false), (4, false), (5, false), (6, false), (7, false), (8, false)], false, [], [⟨0, [], [(0, 8)], [0], 5⟩], 0, false, none, [], .ok, false, [], 0, [], [], [], [], false, false, none⟩] } }) (wRx ((wPkt 2 3 0 (wCollAddr) 0 [0]).seal (wKey 2)))
  let v : State := (State.takePkt ((fun (s : State) => { s with fab := { s.fab with insts := [⟨⟨0, 0, 5, 0⟩, some 4, some ⟨.allgather, 0, 0, 0, 0, 0x40, 0x80, 8, 2, 0, 0, 5, 1000, 0⟩, .past, .job, 0, [(4, 0), (4, 0)], [(1, false), (2, false), (3, false), (4, false), (5, false), (6, false), (7, false), (8, false)], false, [], [⟨0, [], [(0, 8)], [0], 5⟩], 0, false, none, [], .ok, false, [], 0, [], [], [], [], false, false, none⟩] } }) (wRx ((wPkt 2 3 0 (wCollAddr) 0 [0]).seal (wKey 2)))) 0 ((wPkt 2 3 0 (wCollAddr) 0 [0]).seal (wKey 2))).dropOver
  let p : Nat := 0
  let k : Packet := (wPkt 2 3 0 (wCollAddr) 0 [0]).seal (wKey 2)
  let x : Packet := { (wPkt 2 3 0 (wCollAddr) 0 [0] : Packet) with tag := ((wPkt 2 3 0 (wCollAddr) 0 [0]).seal (wKey 2)).tag }
  let g : CGroup := ⟨0, 1, [2, 1]⟩
  let i : Inst := ⟨⟨0, 0, 5, 0⟩, some 4, some ⟨.allgather, 0, 0, 0, 0, 0x40, 0x80, 8, 2, 0, 0, 5, 1000, 0⟩, .past, .job, 0, [(4, 0), (4, 0)], [(1, false), (2, false), (3, false), (4, false), (5, false), (6, false), (7, false), (8, false)], false, [], [⟨0, [], [(0, 8)], [0], 5⟩], 0, false, none, [], .ok, false, [], 0, [], [], [], [], false, false, none⟩
  let b : CollBody := ⟨.allgather, 0, 0, 0, 0, 0x40, 0x80, 8, 2, 0, 0, 5, 1000, 0⟩
  let lo : Nat := 0
  let n : Nat := 8
  (CollIn s p k x 3 g v) ∧
    (v.inst? x.collKey = some i) ∧
    (i.body = some b) ∧
    (i.sized = true) ∧
    (s.now < b.deadline) ∧
    (segRange (i.contrib b g.rank x.rank) (if i.result.isSome then i.resultPart b g.rank x.rank else 0) (x.pw 0).toNat = some (lo, n)) := ⟨⟨wit_in rfl rfl rfl (by decide), rfl, by decide, by decide, by decide, by decide, by decide⟩, by decide, by decide, by decide, by decide, by decide⟩

theorem test_wit_CollectivesAnswerAndExpire_2 :
  let s : State := (fun (s : State) => { s with fab := { s.fab with insts := [⟨⟨0, 0, 5, 0⟩, some 4, some ⟨.allgather, 0, 0, 0, 0, 0x40, 0x80, 8, 2, 0, 0, 5, 1000, 0⟩, .run, .job, 0, [(4, 0), (4, 0)], [(1, false), (2, false), (3, false), (4, false), (5, false), (6, false), (7, false), (8, false)], false, [], [⟨0, [], [(0, 8)], [0], 5⟩], 0, false, none, [], .ok, false, [], 0, [], [], [], [], false, false, none⟩] } }) (wRx ((wPkt 2 3 0 (wCollAddr) 0 [0]).seal (wKey 2)))
  let v : State := (State.takePkt ((fun (s : State) => { s with fab := { s.fab with insts := [⟨⟨0, 0, 5, 0⟩, some 4, some ⟨.allgather, 0, 0, 0, 0, 0x40, 0x80, 8, 2, 0, 0, 5, 1000, 0⟩, .run, .job, 0, [(4, 0), (4, 0)], [(1, false), (2, false), (3, false), (4, false), (5, false), (6, false), (7, false), (8, false)], false, [], [⟨0, [], [(0, 8)], [0], 5⟩], 0, false, none, [], .ok, false, [], 0, [], [], [], [], false, false, none⟩] } }) (wRx ((wPkt 2 3 0 (wCollAddr) 0 [0]).seal (wKey 2)))) 0 ((wPkt 2 3 0 (wCollAddr) 0 [0]).seal (wKey 2))).dropOver
  let p : Nat := 0
  let k : Packet := (wPkt 2 3 0 (wCollAddr) 0 [0]).seal (wKey 2)
  let x : Packet := { (wPkt 2 3 0 (wCollAddr) 0 [0] : Packet) with tag := ((wPkt 2 3 0 (wCollAddr) 0 [0]).seal (wKey 2)).tag }
  let g : CGroup := ⟨0, 1, [2, 1]⟩
  let i : Inst := ⟨⟨0, 0, 5, 0⟩, some 4, some ⟨.allgather, 0, 0, 0, 0, 0x40, 0x80, 8, 2, 0, 0, 5, 1000, 0⟩, .run, .job, 0, [(4, 0), (4, 0)], [(1, false), (2, false), (3, false), (4, false), (5, false), (6, false), (7, false), (8, false)], false, [], [⟨0, [], [(0, 8)], [0], 5⟩], 0, false, none, [], .ok, false, [], 0, [], [], [], [], false, false, none⟩
  let b : CollBody := ⟨.allgather, 0, 0, 0, 0, 0x40, 0x80, 8, 2, 0, 0, 5, 1000, 0⟩
  let lo : Nat := 0
  let n : Nat := 8
  (CollIn s p k x 3 g v) ∧
    (v.inst? x.collKey = some i) ∧
    (i.body = some b) ∧
    (i.phase = .run) ∧
    (s.now < b.deadline) ∧
    (segRange (i.contrib b g.rank x.rank) (if i.result.isSome then i.resultPart b g.rank x.rank else 0) (x.pw 0).toNat = some (lo, n)) := ⟨⟨wit_in rfl rfl rfl (by decide), rfl, by decide, by decide, by decide, by decide, by decide⟩, by decide, by decide, by decide, by decide, by decide⟩

theorem test_wit_CollectivesAnswerAndExpire_3 :
  let s : State := { wFab with descs := [(4, ⟨.queue 0 0, ⟨0, 5, 5, 0, 0, 0, 0, 0⟩, .coll ⟨.barrier, 0, 0, 0, 0, 0, 0, 0, 0, 0, 0, 5, 0, 0⟩ ⟨0, 0, 0, [], false, none, []⟩, .running, .ok, 0, false, none, false, none, none, none⟩)], fab := { wFab.fab with cgroups := [(0, ⟨0, 0, [1, 2]⟩)], insts := [⟨⟨0, 0, 5, 0⟩, some 4, some ⟨.barrier, 0, 0, 0, 0, 0, 0, 0, 0, 0, 0, 5, 0, 0⟩, .run, .job, 0, [], [(1, false), (2, false), (3, false), (4, false), (5, false), (6, false), (7, false), (8, false)], false, [], [], 0, false, none, [], .ok, false, [(0, false, false)], 0, [], [], [], [], false, false, none⟩] } }
  let id : Nat := 4
  let i : Inst := ⟨⟨0, 0, 5, 0⟩, some 4, some ⟨.barrier, 0, 0, 0, 0, 0, 0, 0, 0, 0, 0, 5, 0, 0⟩, .run, .job, 0, [], [(1, false), (2, false), (3, false), (4, false), (5, false), (6, false), (7, false), (8, false)], false, [], [], 0, false, none, [], .ok, false, [(0, false, false)], 0, [], [], [], [], false, false, none⟩
  let b : CollBody := ⟨.barrier, 0, 0, 0, 0, 0, 0, 0, 0, 0, 0, 5, 0, 0⟩
  (s.instOf id = some i) ∧
    (i.body = some b) ∧
    (i.phase = .run) ∧
    (i.late = false) ∧
    (b.deadline ≤ s.now) ∧
    (s.earlier b.deadline = false) := by decide

theorem test_wit_CollectivesAnswerAndExpire_4 :
  let s : State := { wFab with descs := [(4, ⟨.queue 0 0, ⟨0, 5, 5, 0, 0, 0, 0, 0⟩, .coll ⟨.barrier, 0, 0, 0, 0, 0, 0, 0, 0, 0, 0, 5, 0, 0⟩ ⟨0, 0, 0, [], false, none, []⟩, .running, .ok, 0, false, none, false, none, none, none⟩)], fab := { wFab.fab with cgroups := [(0, ⟨0, 0, [1, 2]⟩)], insts := [⟨⟨0, 0, 5, 0⟩, some 4, some ⟨.barrier, 0, 0, 0, 0, 0, 0, 0, 0, 0, 0, 5, 0, 0⟩, .run, .job, 0, [], [(1, false), (2, false), (3, false), (4, false), (5, false), (6, false), (7, false), (8, false)], false, [], [], 0, false, none, [], .ok, false, [(0, false, false)], 0, [], [], [], [], false, false, none⟩] } }
  let id : Nat := 4
  let i : Inst := ⟨⟨0, 0, 5, 0⟩, some 4, some ⟨.barrier, 0, 0, 0, 0, 0, 0, 0, 0, 0, 0, 5, 0, 0⟩, .run, .job, 0, [], [(1, false), (2, false), (3, false), (4, false), (5, false), (6, false), (7, false), (8, false)], false, [], [], 0, false, none, [], .ok, false, [(0, false, false)], 0, [], [], [], [], false, false, none⟩
  let b : CollBody := ⟨.barrier, 0, 0, 0, 0, 0, 0, 0, 0, 0, 0, 5, 0, 0⟩
  let g : CGroup := ⟨0, 0, [1, 2]⟩
  let d : Desc := ⟨.queue 0 0, ⟨0, 5, 5, 0, 0, 0, 0, 0⟩, .coll ⟨.barrier, 0, 0, 0, 0, 0, 0, 0, 0, 0, 0, 5, 0, 0⟩ ⟨0, 0, 0, [], false, none, []⟩, .running, .ok, 0, false, none, false, none, none, none⟩
  let r : CollRun := ⟨0, 0, 0, [], false, none, []⟩
  (s.instOf id = some i) ∧
    (s.inst? i.key = some i) ∧
    (i.body = some b) ∧
    (b.op = .barrier) ∧
    (i.phase = .run) ∧
    (i.late = false) ∧
    (i.reissue = false) ∧
    (i.outs = []) ∧
    (i.err = false) ∧
    (b.deadline ≤ s.now) ∧
    (s.earlier b.deadline = false) ∧
    (s.group? i.key.cgrp = some g) ∧
    (g.rank = 0) ∧
    (i.arrived.length < g.members.length) ∧
    (s.desc? id = some d) ∧
    (d.body = .coll b r) ∧
    (r.op = none) := by decide

theorem test_wit_CollectivesStart_1 :
  let s : State := (fun (s : State) => { s with load := { s.load with lrects := [⟨0, 0, 0, 0, 0, 0, 0⟩] }, ctxs := [(0, Ctx.fresh 0 (some 0) 0)], mem := { s.mem with objs := [(5, ⟨0, 2, 0, false, false, false, false, 0x100000, 1⟩)] } }) wFab
  let v : State := (fun (s : State) => { s with load := { s.load with lrects := [⟨0, 0, 0, 0, 0, 0, 0⟩] }, ctxs := [(0, Ctx.fresh 0 (some 0) 0)], mem := { s.mem with objs := [(5, ⟨0, 2, 0, false, false, false, false, 0x100000, 1⟩)] } }) wFab
  let q : Nat := 0
  let host : Fetched := .bytes (wEntry [(0, 4, 337), (0x14, 4, 0), (0x18, 8, 0x020000000000), (0x28, 4, 8), (0x2C, 4, 0x20005), (0x30, 8, 900), (0x38, 8, 0x020000002000)])
  let bs : List Byte := wEntry [(0, 4, 337), (0x14, 4, 0), (0x18, 8, 0x020000000000), (0x28, 4, 8), (0x2C, 4, 0x20005), (0x30, 8, 900), (0x38, 8, 0x020000002000)]
  (AtEntry s q host v bs 5 1) ∧
    (v.checkColl bs = none) := by decide

theorem test_wit_CollectivesStart_2 :
  let s : State := (fun (s : State) => { s with load := { s.load with lrects := [⟨0, 0, 0, 0, 0, 0, 0⟩] }, ctxs := [(0, Ctx.fresh 0 (some 0) 0)], mem := { s.mem with objs := [(5, ⟨0, 2, 0, false, false, false, false, 0x100000, 1⟩)] } }) wFab
  let v : State := (fun (s : State) => { s with load := { s.load with lrects := [⟨0, 0, 0, 0, 0, 0, 0⟩] }, ctxs := [(0, Ctx.fresh 0 (some 0) 0)], mem := { s.mem with objs := [(5, ⟨0, 2, 0, false, false, false, false, 0x100000, 1⟩)] } }) wFab
  let q : Nat := 0
  let host : Fetched := .bytes (wEntry [(0, 4, 593), (0x14, 4, 0), (0x18, 8, 0x020000000000), (0x20, 8, 0x020000001000), (0x28, 4, 8), (0x2C, 4, 0x20005), (0x30, 8, 900), (0x38, 8, 0x020000002000)])
  let bs : List Byte := wEntry [(0, 4, 593), (0x14, 4, 0), (0x18, 8, 0x020000000000), (0x20, 8, 0x020000001000), (0x28, 4, 8), (0x2C, 4, 0x20005), (0x30, 8, 900), (0x38, 8, 0x020000002000)]
  (AtEntry s q host v bs 5 2) ∧
    (v.checkColl bs = none) := by decide

theorem test_wit_CollectivesStart_3 :
  let s : State := (fun (s : State) => { s with load := { s.load with lrects := [⟨0, 0, 0, 0, 0, 0, 0⟩] }, ctxs := [(0, Ctx.fresh 0 (some 0) 0)], mem := { s.mem with objs := [(5, ⟨0, 2, 0, false, false, false, false, 0x100000, 1⟩)] } }) wFab
  let v : State := (fun (s : State) => { s with load := { s.load with lrects := [⟨0, 0, 0, 0, 0, 0, 0⟩] }, ctxs := [(0, Ctx.fresh 0 (some 0) 0)], mem := { s.mem with objs := [(5, ⟨0, 2, 0, false, false, false, false, 0x100000, 1⟩)] } }) wFab
  let q : Nat := 0
  let host : Fetched := .bytes (wEntry [(0, 4, 849), (0x14, 4, 0), (0x18, 8, 0x020000000000), (0x20, 8, 0x020000001000), (0x28, 4, 8), (0x2C, 4, 0x20005), (0x30, 8, 900), (0x38, 8, 0x020000002000)])
  let bs : List Byte := wEntry [(0, 4, 849), (0x14, 4, 0), (0x18, 8, 0x020000000000), (0x20, 8, 0x020000001000), (0x28, 4, 8), (0x2C, 4, 0x20005), (0x30, 8, 900), (0x38, 8, 0x020000002000)]
  (AtEntry s q host v bs 5 3) ∧
    (v.checkColl bs = none) := by decide

theorem test_wit_CollectivesStart_4 :
  let s : State := (fun (s : State) => { s with load := { s.load with lrects := [⟨0, 0, 0, 0, 0, 0, 0⟩] }, ctxs := [(0, Ctx.fresh 0 (some 0) 0)], mem := { s.mem with objs := [(5, ⟨0, 2, 0, false, false, false, false, 0x100000, 1⟩)] } }) wFab
  let v : State := (fun (s : State) => { s with load := { s.load with lrects := [⟨0, 0, 0, 0, 0, 0, 0⟩] }, ctxs := [(0, Ctx.fresh 0 (some 0) 0)], mem := { s.mem with objs := [(5, ⟨0, 2, 0, false, false, false, false, 0x100000, 1⟩)] } }) wFab
  let q : Nat := 0
  let host : Fetched := .bytes (wEntry [(0, 4, 1105), (0x14, 4, 0), (0x18, 8, 0x020000000000), (0x20, 8, 0x020000001000), (0x28, 4, 8), (0x2C, 4, 0x20005), (0x30, 8, 900), (0x38, 8, 0x020000002000)])
  let bs : List Byte := wEntry [(0, 4, 1105), (0x14, 4, 0), (0x18, 8, 0x020000000000), (0x20, 8, 0x020000001000), (0x28, 4, 8), (0x2C, 4, 0x20005), (0x30, 8, 900), (0x38, 8, 0x020000002000)]
  (AtEntry s q host v bs 5 4) ∧
    (v.checkColl bs = none) := by decide

theorem test_wit_CollectivesStart_5 :
  let s : State := (fun (s : State) => { s with load := { s.load with lrects := [⟨0, 0, 0, 0, 0, 0, 0⟩] }, ctxs := [(0, Ctx.fresh 0 (some 0) 0)], mem := { s.mem with objs := [(5, ⟨0, 2, 0, false, false, false, false, 0x100000, 1⟩)] } }) wFab
  let v : State := (fun (s : State) => { s with load := { s.load with lrects := [⟨0, 0, 0, 0, 0, 0, 0⟩] }, ctxs := [(0, Ctx.fresh 0 (some 0) 0)], mem := { s.mem with objs := [(5, ⟨0, 2, 0, false, false, false, false, 0x100000, 1⟩)] } }) wFab
  let q : Nat := 0
  let host : Fetched := .bytes (wEntry [(0, 4, 1873), (0x14, 4, 0), (0x18, 8, 0x020000000000), (0x20, 8, 0x020000000000), (0x28, 4, 8), (0x2C, 4, 0x20005), (0x30, 8, 900), (0x38, 8, 0x020000002000)])
  let bs : List Byte := wEntry [(0, 4, 1873), (0x14, 4, 0), (0x18, 8, 0x020000000000), (0x20, 8, 0x020000000000), (0x28, 4, 8), (0x2C, 4, 0x20005), (0x30, 8, 900), (0x38, 8, 0x020000002000)]
  (AtEntry s q host v bs 5 7) ∧
    (v.checkColl bs = none) := by decide

theorem test_wit_CollectivesStart_6 :
  let s : State := (fun (s : State) => { s with load := { s.load with lrects := [⟨0, 0, 0, 0, 0, 0, 0⟩] }, ctxs := [(0, Ctx.fresh 0 (some 0) 0)], mem := { s.mem with objs := [(5, ⟨0, 2, 0, false, false, false, false, 0x100000, 1⟩)] } }) wFab
  let v : State := (fun (s : State) => { s with load := { s.load with lrects := [⟨0, 0, 0, 0, 0, 0, 0⟩] }, ctxs := [(0, Ctx.fresh 0 (some 0) 0)], mem := { s.mem with objs := [(5, ⟨0, 2, 0, false, false, false, false, 0x100000, 1⟩)] } }) wFab
  let q : Nat := 0
  let host : Fetched := .bytes (wEntry [(0, 4, 2129), (0x14, 4, 0), (0x18, 8, 0x020000000000), (0x28, 4, 8), (0x2C, 4, 0x20005), (0x30, 8, 900)])
  let bs : List Byte := wEntry [(0, 4, 2129), (0x14, 4, 0), (0x18, 8, 0x020000000000), (0x28, 4, 8), (0x2C, 4, 0x20005), (0x30, 8, 900)]
  (AtEntry s q host v bs 5 8) ∧
    (v.checkColl bs = none) := by decide

theorem test_wit_CollectivesStart_7 :
  let s : State := (fun (s : State) => { s with load := { s.load with lrects := [⟨0, 0, 0, 0, 0, 0, 0⟩] }, ctxs := [(0, Ctx.fresh 0 (some 0) 0)], mem := { s.mem with objs := [(5, ⟨0, 2, 0, false, false, false, false, 0x100000, 1⟩)] } }) wFab
  let v : State := (fun (s : State) => { s with load := { s.load with lrects := [⟨0, 0, 0, 0, 0, 0, 0⟩] }, ctxs := [(0, Ctx.fresh 0 (some 0) 0)], mem := { s.mem with objs := [(5, ⟨0, 2, 0, false, false, false, false, 0x100000, 1⟩)] } }) wFab
  let q : Nat := 0
  let host : Fetched := .bytes (wEntry [(0, 4, 1361), (0x14, 4, 0), (0x2C, 4, 5), (0x30, 8, 900)])
  let bs : List Byte := wEntry [(0, 4, 1361), (0x14, 4, 0), (0x2C, 4, 5), (0x30, 8, 900)]
  (AtEntry s q host v bs 5 5) ∧
    (v.checkColl bs = none) := by decide

theorem test_wit_CollectivesStart_8 :
  let s : State := (fun (s : State) => { s with load := { s.load with lrects := [⟨0, 0, 0, 0, 0, 0, 0⟩] }, ctxs := [(0, Ctx.fresh 0 (some 0) 0)], mem := { s.mem with objs := [(5, ⟨0, 2, 0, false, false, false, false, 0x100000, 1⟩)] } }) wFab
  let v : State := (fun (s : State) => { s with load := { s.load with lrects := [⟨0, 0, 0, 0, 0, 0, 0⟩] }, ctxs := [(0, Ctx.fresh 0 (some 0) 0)], mem := { s.mem with objs := [(5, ⟨0, 2, 0, false, false, false, false, 0x100000, 1⟩)] } }) wFab
  let q : Nat := 0
  let host : Fetched := .bytes (wEntry [(0, 4, 1617), (0x14, 4, 0), (0x2C, 4, 0), (0x30, 8, 900)])
  let bs : List Byte := wEntry [(0, 4, 1617), (0x14, 4, 0), (0x2C, 4, 0), (0x30, 8, 900)]
  (AtEntry s q host v bs 5 6) ∧
    (v.checkColl bs = none) := by decide

theorem test_wit_CollectivesStart_9 :
  let s : State := (fun (s : State) => { s with load := { s.load with lrects := [⟨0, 0, 0, 0, 0, 0, 0⟩] }, ctxs := [(0, Ctx.fresh 0 (some 0) 0)], mem := { s.mem with objs := [(5, ⟨0, 2, 0, false, false, false, false, 0x100000, 1⟩)] } }) wFab
  let v : State := (fun (s : State) => { s with load := { s.load with lrects := [⟨0, 0, 0, 0, 0, 0, 0⟩] }, ctxs := [(0, Ctx.fresh 0 (some 0) 0)], mem := { s.mem with objs := [(5, ⟨0, 2, 0, false, false, false, false, 0x100000, 1⟩)] } }) wFab
  let q : Nat := 0
  let host : Fetched := .bytes (wEntry [(0, 4, 337), (0x14, 4, 0), (0x18, 8, 0x020000000000), (0x28, 4, 8), (0x2C, 4, 0x20005), (0x30, 8, 900), (0x38, 8, 0x020000002000)])
  let bs : List Byte := wEntry [(0, 4, 337), (0x14, 4, 0), (0x18, 8, 0x020000000000), (0x28, 4, 8), (0x2C, 4, 0x20005), (0x30, 8, 900), (0x38, 8, 0x020000002000)]
  let x : Ctx := Ctx.fresh 0 (some 0) 0
  (AtEntry s q host v bs 5 1) ∧
    (v.checkColl bs = none) ∧
    (v.ctx? (v.queue q).ctx = some x) ∧
    ((v.lensTable (CollBody.ofBytes .reduce bs)).isSome = true) := by decide

theorem test_wit_CollectivesStart_10 :
  let s : State := (fun (s : State) => { s with load := { s.load with lrects := [⟨0, 0, 0, 0, 0, 0, 0⟩] }, ctxs := [(0, Ctx.fresh 0 (some 0) 0)], mem := { s.mem with objs := [(5, ⟨0, 2, 0, false, false, false, false, 0x100000, 1⟩)] } }) wFab
  let v : State := (fun (s : State) => { s with load := { s.load with lrects := [⟨0, 0, 0, 0, 0, 0, 0⟩] }, ctxs := [(0, Ctx.fresh 0 (some 0) 0)], mem := { s.mem with objs := [(5, ⟨0, 2, 0, false, false, false, false, 0x100000, 1⟩)] } }) wFab
  let q : Nat := 0
  let host : Fetched := .bytes (wEntry [(0, 4, 593), (0x14, 4, 0), (0x18, 8, 0x020000000000), (0x20, 8, 0x020000001000), (0x28, 4, 8), (0x2C, 4, 0x20005), (0x30, 8, 900), (0x38, 8, 0x020000002000)])
  let bs : List Byte := wEntry [(0, 4, 593), (0x14, 4, 0), (0x18, 8, 0x020000000000), (0x20, 8, 0x020000001000), (0x28, 4, 8), (0x2C, 4, 0x20005), (0x30, 8, 900), (0x38, 8, 0x020000002000)]
  let x : Ctx := Ctx.fresh 0 (some 0) 0
  (AtEntry s q host v bs 5 2) ∧
    (v.checkColl bs = none) ∧
    (v.ctx? (v.queue q).ctx = some x) ∧
    ((v.lensTable (CollBody.ofBytes .allreduce bs)).isSome = true) := by decide

theorem test_wit_CollectivesStart_11 :
  let s : State := (fun (s : State) => { s with load := { s.load with lrects := [⟨0, 0, 0, 0, 0, 0, 0⟩] }, ctxs := [(0, Ctx.fresh 0 (some 0) 0)], mem := { s.mem with objs := [(5, ⟨0, 2, 0, false, false, false, false, 0x100000, 1⟩)] } }) wFab
  let v : State := (fun (s : State) => { s with load := { s.load with lrects := [⟨0, 0, 0, 0, 0, 0, 0⟩] }, ctxs := [(0, Ctx.fresh 0 (some 0) 0)], mem := { s.mem with objs := [(5, ⟨0, 2, 0, false, false, false, false, 0x100000, 1⟩)] } }) wFab
  let q : Nat := 0
  let host : Fetched := .bytes (wEntry [(0, 4, 849), (0x14, 4, 0), (0x18, 8, 0x020000000000), (0x20, 8, 0x020000001000), (0x28, 4, 8), (0x2C, 4, 0x20005), (0x30, 8, 900), (0x38, 8, 0x020000002000)])
  let bs : List Byte := wEntry [(0, 4, 849), (0x14, 4, 0), (0x18, 8, 0x020000000000), (0x20, 8, 0x020000001000), (0x28, 4, 8), (0x2C, 4, 0x20005), (0x30, 8, 900), (0x38, 8, 0x020000002000)]
  let x : Ctx := Ctx.fresh 0 (some 0) 0
  (AtEntry s q host v bs 5 3) ∧
    (v.checkColl bs = none) ∧
    (v.ctx? (v.queue q).ctx = some x) ∧
    ((v.lensTable (CollBody.ofBytes .reducescatter bs)).isSome = true) := by decide

theorem test_wit_CollectivesStart_12 :
  let s : State := (fun (s : State) => { s with load := { s.load with lrects := [⟨0, 0, 0, 0, 0, 0, 0⟩] }, ctxs := [(0, Ctx.fresh 0 (some 0) 0)], mem := { s.mem with objs := [(5, ⟨0, 2, 0, false, false, false, false, 0x100000, 1⟩)] } }) wFab
  let v : State := (fun (s : State) => { s with load := { s.load with lrects := [⟨0, 0, 0, 0, 0, 0, 0⟩] }, ctxs := [(0, Ctx.fresh 0 (some 0) 0)], mem := { s.mem with objs := [(5, ⟨0, 2, 0, false, false, false, false, 0x100000, 1⟩)] } }) wFab
  let q : Nat := 0
  let host : Fetched := .bytes (wEntry [(0, 4, 1105), (0x14, 4, 0), (0x18, 8, 0x020000000000), (0x20, 8, 0x020000001000), (0x28, 4, 8), (0x2C, 4, 0x20005), (0x30, 8, 900), (0x38, 8, 0x020000002000)])
  let bs : List Byte := wEntry [(0, 4, 1105), (0x14, 4, 0), (0x18, 8, 0x020000000000), (0x20, 8, 0x020000001000), (0x28, 4, 8), (0x2C, 4, 0x20005), (0x30, 8, 900), (0x38, 8, 0x020000002000)]
  let x : Ctx := Ctx.fresh 0 (some 0) 0
  (AtEntry s q host v bs 5 4) ∧
    (v.checkColl bs = none) ∧
    (v.ctx? (v.queue q).ctx = some x) ∧
    ((v.lensTable (CollBody.ofBytes .allgather bs)).isSome = true) := by decide

theorem test_wit_CollectivesStart_13 :
  let s : State := (fun (s : State) => { s with load := { s.load with lrects := [⟨0, 0, 0, 0, 0, 0, 0⟩] }, ctxs := [(0, Ctx.fresh 0 (some 0) 0)], mem := { s.mem with objs := [(5, ⟨0, 2, 0, false, false, false, false, 0x100000, 1⟩)] } }) wFab
  let v : State := (fun (s : State) => { s with load := { s.load with lrects := [⟨0, 0, 0, 0, 0, 0, 0⟩] }, ctxs := [(0, Ctx.fresh 0 (some 0) 0)], mem := { s.mem with objs := [(5, ⟨0, 2, 0, false, false, false, false, 0x100000, 1⟩)] } }) wFab
  let q : Nat := 0
  let host : Fetched := .bytes (wEntry [(0, 4, 1873), (0x14, 4, 0), (0x18, 8, 0x020000000000), (0x20, 8, 0x020000000000), (0x28, 4, 8), (0x2C, 4, 0x20005), (0x30, 8, 900), (0x38, 8, 0x020000002000)])
  let bs : List Byte := wEntry [(0, 4, 1873), (0x14, 4, 0), (0x18, 8, 0x020000000000), (0x20, 8, 0x020000000000), (0x28, 4, 8), (0x2C, 4, 0x20005), (0x30, 8, 900), (0x38, 8, 0x020000002000)]
  let x : Ctx := Ctx.fresh 0 (some 0) 0
  (AtEntry s q host v bs 5 7) ∧
    (v.checkColl bs = none) ∧
    (v.ctx? (v.queue q).ctx = some x) ∧
    ((v.lensTable (CollBody.ofBytes .permute bs)).isSome = true) := by decide

theorem test_wit_CollectivesStart_14 :
  let s : State := (fun (s : State) => { s with load := { s.load with lrects := [⟨0, 0, 0, 0, 0, 0, 0⟩] }, ctxs := [(0, Ctx.fresh 0 (some 0) 0)], mem := { s.mem with objs := [(5, ⟨0, 2, 0, false, false, false, false, 0x100000, 1⟩)] } }) wFab
  let v : State := (fun (s : State) => { s with load := { s.load with lrects := [⟨0, 0, 0, 0, 0, 0, 0⟩] }, ctxs := [(0, Ctx.fresh 0 (some 0) 0)], mem := { s.mem with objs := [(5, ⟨0, 2, 0, false, false, false, false, 0x100000, 1⟩)] } }) wFab
  let q : Nat := 0
  let host : Fetched := .bytes (wEntry [(0, 4, 337), (0x14, 4, 0), (0x18, 8, 0x020000000000), (0x28, 4, 0), (0x2C, 4, 0x20005), (0x30, 8, 900)])
  let bs : List Byte := wEntry [(0, 4, 337), (0x14, 4, 0), (0x18, 8, 0x020000000000), (0x28, 4, 0), (0x2C, 4, 0x20005), (0x30, 8, 900)]
  let x : Ctx := Ctx.fresh 0 (some 0) 0
  (AtEntry s q host v bs 5 1) ∧
    (v.checkColl bs = none) ∧
    (v.ctx? (v.queue q).ctx = some x) ∧
    ((v.lensTable (CollBody.ofBytes .reduce bs)) = none) ∧
    ((CollBody.ofBytes .reduce bs).count = 0) := by decide

theorem test_wit_CollectivesStart_15 :
  let s : State := (fun (s : State) => { s with load := { s.load with lrects := [⟨0, 0, 0, 0, 0, 0, 0⟩] }, ctxs := [(0, Ctx.fresh 0 (some 0) 0)], mem := { s.mem with objs := [(5, ⟨0, 2, 0, false, false, false, false, 0x100000, 1⟩)] } }) wFab
  let v : State := (fun (s : State) => { s with load := { s.load with lrects := [⟨0, 0, 0, 0, 0, 0, 0⟩] }, ctxs := [(0, Ctx.fresh 0 (some 0) 0)], mem := { s.mem with objs := [(5, ⟨0, 2, 0, false, false, false, false, 0x100000, 1⟩)] } }) wFab
  let q : Nat := 0
  let host : Fetched := .bytes (wEntry [(0, 4, 593), (0x14, 4, 0), (0x18, 8, 0x020000000000), (0x20, 8, 0x020000001000), (0x28, 4, 0), (0x2C, 4, 0x20005), (0x30, 8, 900)])
  let bs : List Byte := wEntry [(0, 4, 593), (0x14, 4, 0), (0x18, 8, 0x020000000000), (0x20, 8, 0x020000001000), (0x28, 4, 0), (0x2C, 4, 0x20005), (0x30, 8, 900)]
  let x : Ctx := Ctx.fresh 0 (some 0) 0
  (AtEntry s q host v bs 5 2) ∧
    (v.checkColl bs = none) ∧
    (v.ctx? (v.queue q).ctx = some x) ∧
    ((v.lensTable (CollBody.ofBytes .allreduce bs)) = none) ∧
    ((CollBody.ofBytes .allreduce bs).count = 0) := by decide

theorem test_wit_CollectivesStart_16 :
  let s : State := (fun (s : State) => { s with load := { s.load with lrects := [⟨0, 0, 0, 0, 0, 0, 0⟩] }, ctxs := [(0, Ctx.fresh 0 (some 0) 0)], mem := { s.mem with objs := [(5, ⟨0, 2, 0, false, false, false, false, 0x100000, 1⟩)] } }) wFab
  let v : State := (fun (s : State) => { s with load := { s.load with lrects := [⟨0, 0, 0, 0, 0, 0, 0⟩] }, ctxs := [(0, Ctx.fresh 0 (some 0) 0)], mem := { s.mem with objs := [(5, ⟨0, 2, 0, false, false, false, false, 0x100000, 1⟩)] } }) wFab
  let q : Nat := 0
  let host : Fetched := .bytes (wEntry [(0, 4, 849), (0x14, 4, 0), (0x18, 8, 0x020000000000), (0x20, 8, 0x020000001000), (0x28, 4, 0), (0x2C, 4, 0x20005), (0x30, 8, 900)])
  let bs : List Byte := wEntry [(0, 4, 849), (0x14, 4, 0), (0x18, 8, 0x020000000000), (0x20, 8, 0x020000001000), (0x28, 4, 0), (0x2C, 4, 0x20005), (0x30, 8, 900)]
  let x : Ctx := Ctx.fresh 0 (some 0) 0
  (AtEntry s q host v bs 5 3) ∧
    (v.checkColl bs = none) ∧
    (v.ctx? (v.queue q).ctx = some x) ∧
    ((v.lensTable (CollBody.ofBytes .reducescatter bs)) = none) ∧
    ((CollBody.ofBytes .reducescatter bs).count = 0) := by decide

theorem test_wit_CollectivesStart_17 :
  let s : State := (fun (s : State) => { s with load := { s.load with lrects := [⟨0, 0, 0, 0, 0, 0, 0⟩] }, ctxs := [(0, Ctx.fresh 0 (some 0) 0)], mem := { s.mem with objs := [(5, ⟨0, 2, 0, false, false, false, false, 0x100000, 1⟩)] } }) wFab
  let v : State := (fun (s : State) => { s with load := { s.load with lrects := [⟨0, 0, 0, 0, 0, 0, 0⟩] }, ctxs := [(0, Ctx.fresh 0 (some 0) 0)], mem := { s.mem with objs := [(5, ⟨0, 2, 0, false, false, false, false, 0x100000, 1⟩)] } }) wFab
  let q : Nat := 0
  let host : Fetched := .bytes (wEntry [(0, 4, 1105), (0x14, 4, 0), (0x18, 8, 0x020000000000), (0x20, 8, 0x020000001000), (0x28, 4, 0), (0x2C, 4, 0x20005), (0x30, 8, 900)])
  let bs : List Byte := wEntry [(0, 4, 1105), (0x14, 4, 0), (0x18, 8, 0x020000000000), (0x20, 8, 0x020000001000), (0x28, 4, 0), (0x2C, 4, 0x20005), (0x30, 8, 900)]
  let x : Ctx := Ctx.fresh 0 (some 0) 0
  (AtEntry s q host v bs 5 4) ∧
    (v.checkColl bs = none) ∧
    (v.ctx? (v.queue q).ctx = some x) ∧
    ((v.lensTable (CollBody.ofBytes .allgather bs)) = none) ∧
    ((CollBody.ofBytes .allgather bs).count = 0) := by decide

theorem test_wit_CollectivesStart_18 :
  let s : State := (fun (s : State) => { s with load := { s.load with lrects := [⟨0, 0, 0, 0, 0, 0, 0⟩] }, ctxs := [(0, Ctx.fresh 0 (some 0) 0)], mem := { s.mem with objs := [(5, ⟨0, 2, 0, false, false, false, false, 0x100000, 1⟩)] } }) wFab
  let v : State := (fun (s : State) => { s with load := { s.load with lrects := [⟨0, 0, 0, 0, 0, 0, 0⟩] }, ctxs := [(0, Ctx.fresh 0 (some 0) 0)], mem := { s.mem with objs := [(5, ⟨0, 2, 0, false, false, false, false, 0x100000, 1⟩)] } }) wFab
  let q : Nat := 0
  let host : Fetched := .bytes (wEntry [(0, 4, 2129), (0x14, 4, 0), (0x18, 8, 0x020000000000), (0x28, 4, 0), (0x2C, 4, 0x20005), (0x30, 8, 900)])
  let bs : List Byte := wEntry [(0, 4, 2129), (0x14, 4, 0), (0x18, 8, 0x020000000000), (0x28, 4, 0), (0x2C, 4, 0x20005), (0x30, 8, 900)]
  let x : Ctx := Ctx.fresh 0 (some 0) 0
  (AtEntry s q host v bs 5 8) ∧
    (v.checkColl bs = none) ∧
    (v.ctx? (v.queue q).ctx = some x) ∧
    ((v.lensTable (CollBody.ofBytes .xfer bs)) = none) ∧
    ((CollBody.ofBytes .xfer bs).count = 0) := by decide

theorem test_wit_CollectivesStart_19 :
  let s : State := (fun (s : State) => { s with load := { s.load with lrects := [⟨0, 0, 0, 0, 0, 0, 0⟩] }, ctxs := [(0, Ctx.fresh 0 (some 0) 0)], mem := { s.mem with objs := [(5, ⟨0, 2, 0, false, false, false, false, 0x100000, 1⟩)] } }) wFab
  let v : State := (fun (s : State) => { s with load := { s.load with lrects := [⟨0, 0, 0, 0, 0, 0, 0⟩] }, ctxs := [(0, Ctx.fresh 0 (some 0) 0)], mem := { s.mem with objs := [(5, ⟨0, 2, 0, false, false, false, false, 0x100000, 1⟩)] } }) wFab
  let q : Nat := 0
  let host : Fetched := .bytes (wEntry [(0, 4, 2129), (0x14, 4, 0), (0x18, 8, 0x020000000000), (0x28, 4, 8), (0x2C, 4, 0x20005), (0x30, 8, 900)])
  let bs : List Byte := wEntry [(0, 4, 2129), (0x14, 4, 0), (0x18, 8, 0x020000000000), (0x28, 4, 8), (0x2C, 4, 0x20005), (0x30, 8, 900)]
  let x : Ctx := Ctx.fresh 0 (some 0) 0
  let g : CGroup := ⟨0, 1, [2, 1]⟩
  (AtEntry s q host v bs 5 8) ∧
    (v.checkColl bs = none) ∧
    (v.ctx? (v.queue q).ctx = some x) ∧
    (v.group? (CollBody.ofBytes .xfer bs).cgrp = some g) ∧
    (v.inst? ⟨(v.queue q).ctx, (CollBody.ofBytes .xfer bs).cgrp, (CollBody.ofBytes .xfer bs).tensor, x.step⟩ = none) ∧
    (v.doneInst? ⟨(v.queue q).ctx, (CollBody.ofBytes .xfer bs).cgrp, (CollBody.ofBytes .xfer bs).tensor, x.step⟩ = none) ∧
    ((CollBody.ofBytes .xfer bs).count ≠ 0) ∧
    ((CollBody.ofBytes .xfer bs).opr = 0) ∧
    (allBytes (CollBody.ofBytes .xfer bs).f (CollBody.ofBytes .xfer bs).count ≠ 0) := by decide

theorem test_wit_CollectivesStart_20 :
  let s : State := (fun (s : State) => { s with load := { s.load with lrects := [⟨0, 0, 0, 0, 0, 0, 0⟩] }, ctxs := [(0, Ctx.fresh 0 (some 0) 0)], mem := { s.mem with objs := [(5, ⟨0, 2, 0, false, false, false, false, 0x100000, 1⟩)] } }) wFab
  let v : State := (fun (s : State) => { s with load := { s.load with lrects := [⟨0, 0, 0, 0, 0, 0, 0⟩] }, ctxs := [(0, Ctx.fresh 0 (some 0) 0)], mem := { s.mem with objs := [(5, ⟨0, 2, 0, false, false, false, false, 0x100000, 1⟩)] } }) wFab
  let q : Nat := 0
  let host : Fetched := .bytes (wEntry [(0, 4, 1361), (0x14, 4, 0), (0x2C, 4, 5), (0x30, 8, 900)])
  let bs : List Byte := wEntry [(0, 4, 1361), (0x14, 4, 0), (0x2C, 4, 5), (0x30, 8, 900)]
  let x : Ctx := Ctx.fresh 0 (some 0) 0
  let g : CGroup := ⟨0, 1, [2, 1]⟩
  (AtEntry s q host v bs 5 5) ∧
    (v.checkColl bs = none) ∧
    (v.ctx? (v.queue q).ctx = some x) ∧
    (v.group? (CollBody.ofBytes .barrier bs).cgrp = some g) ∧
    (v.inst? ⟨(v.queue q).ctx, (CollBody.ofBytes .barrier bs).cgrp, (CollBody.ofBytes .barrier bs).tensor, x.step⟩ = none) ∧
    (v.doneInst? ⟨(v.queue q).ctx, (CollBody.ofBytes .barrier bs).cgrp, (CollBody.ofBytes .barrier bs).tensor, x.step⟩ = none) ∧
    (g.rank ≠ 0) ∧
    (v.rankFenced g (v.queue q).ctx 0 = false) := by decide

theorem test_wit_CollectivesStart_21 :
  let s : State := (fun (s : State) => { s with load := { s.load with lrects := [⟨0, 0, 0, 0, 0, 0, 0⟩] }, ctxs := [(0, Ctx.fresh 0 (some 0) 0)], mem := { s.mem with objs := [(5, ⟨0, 2, 0, false, false, false, false, 0x100000, 1⟩)] } }) wFab
  let v : State := (fun (s : State) => { s with load := { s.load with lrects := [⟨0, 0, 0, 0, 0, 0, 0⟩] }, ctxs := [(0, Ctx.fresh 0 (some 0) 0)], mem := { s.mem with objs := [(5, ⟨0, 2, 0, false, false, false, false, 0x100000, 1⟩)] } }) wFab
  let q : Nat := 0
  let host : Fetched := .bytes (wEntry [(0, 4, 1617), (0x14, 4, 0), (0x2C, 4, 0), (0x30, 8, 900)])
  let bs : List Byte := wEntry [(0, 4, 1617), (0x14, 4, 0), (0x2C, 4, 0), (0x30, 8, 900)]
  let x : Ctx := Ctx.fresh 0 (some 0) 0
  let g : CGroup := ⟨0, 1, [2, 1]⟩
  (AtEntry s q host v bs 5 6) ∧
    (v.checkColl bs = none) ∧
    (v.ctx? (v.queue q).ctx = some x) ∧
    (v.group? (CollBody.ofBytes .vote bs).cgrp = some g) ∧
    (v.inst? ⟨(v.queue q).ctx, (CollBody.ofBytes .vote bs).cgrp, (CollBody.ofBytes .vote bs).tensor, x.step⟩ = none) ∧
    (v.doneInst? ⟨(v.queue q).ctx, (CollBody.ofBytes .vote bs).cgrp, (CollBody.ofBytes .vote bs).tensor, x.step⟩ = none) ∧
    (g.rank ≠ 0) ∧
    (v.rankFenced g (v.queue q).ctx 0 = false) ∧
    ((x.voted && decide (x.voteStep = x.step)) = false) := by decide

theorem test_wit_FencesAndEpochsAreSet_1 :
  let s : State := (fun (s : State) => { s with load := { s.load with lrects := [⟨0, 0, 0, 0, 0, 0, 0⟩] }, ctxs := [(0, Ctx.fresh 0 (some 0) 0)], mem := { s.mem with objs := [(5, ⟨0, 2, 0, false, false, false, false, 0x100000, 1⟩)] } }) wFab
  let v : State := (fun (s : State) => { s with load := { s.load with lrects := [⟨0, 0, 0, 0, 0, 0, 0⟩] }, ctxs := [(0, Ctx.fresh 0 (some 0) 0)], mem := { s.mem with objs := [(5, ⟨0, 2, 0, false, false, false, false, 0x100000, 1⟩)] } }) wFab
  let q : Nat := 0
  let host : Fetched := .bytes (wEntry [(0, 4, 0x951), (0x14, 4, 2)])
  let bs : List Byte := wEntry [(0, 4, 0x951), (0x14, 4, 2)]
  (AtEntry s q host v bs 5 9) ∧
    (v.checkColl bs = none) := by decide

theorem test_wit_FencesAndEpochsAreSet_2 :
  let s : State := (fun (s : State) => { s with load := { s.load with lrects := [⟨0, 0, 0, 0, 0, 0, 0⟩] }, ctxs := [(0, Ctx.fresh 0 (some 0) 0)], mem := { s.mem with objs := [(5, ⟨0, 2, 0, false, false, false, false, 0x100000, 1⟩)] } }) wFab
  let v : State := (fun (s : State) => { s with load := { s.load with lrects := [⟨0, 0, 0, 0, 0, 0, 0⟩] }, ctxs := [(0, Ctx.fresh 0 (some 0) 0)], mem := { s.mem with objs := [(5, ⟨0, 2, 0, false, false, false, false, 0x100000, 1⟩)] } }) wFab
  let q : Nat := 0
  let host : Fetched := .bytes (wEntry [(0, 4, 0x951), (0x14, 4, 2)])
  let bs : List Byte := wEntry [(0, 4, 0x951), (0x14, 4, 2)]
  (AtEntry s q host v bs 5 9) ∧
    (v.checkColl bs = none) ∧
    (v.fab.idValid = true) ∧
    (dn bs 0x14 2 ≠ v.fab.self) ∧
    (v.fab.isFenced (v.queue q).ctx (dn bs 0x14 2) = false) ∧
    (v.fab.fences.length < 16384) ∧
    (v.fab.txns = []) ∧
    (v.fab.insts = []) := by decide

theorem test_wit_FencesAndEpochsAreSet_3 :
  let s : State := (fun (s : State) => { s with load := { s.load with lrects := [⟨0, 0, 0, 0, 0, 0, 0⟩] }, ctxs := [(0, Ctx.fresh 0 (some 0) 0)], mem := { s.mem with objs := [(5, ⟨0, 2, 0, false, false, false, false, 0x100000, 1⟩)] } }) wFab
  let v : State := (fun (s : State) => { s with load := { s.load with lrects := [⟨0, 0, 0, 0, 0, 0, 0⟩] }, ctxs := [(0, Ctx.fresh 0 (some 0) 0)], mem := { s.mem with objs := [(5, ⟨0, 2, 0, false, false, false, false, 0x100000, 1⟩)] } }) wFab
  let q : Nat := 0
  let host : Fetched := .bytes (wEntry [(0, 4, 0xA51), (0x14, 4, 2)])
  let bs : List Byte := wEntry [(0, 4, 0xA51), (0x14, 4, 2)]
  (AtEntry s q host v bs 5 10) ∧
    (v.checkColl bs = none) ∧
    (v.launchesOf (v.queue q).ctx = []) ∧
    ((v.fab.insts.any fun i => i.isOpen && i.key.ctx = (v.queue q).ctx) = false) := by decide

theorem test_wit_FencesAndEpochsAreSet_4 :
  let s : State := (fun (s : State) => { s with load := { s.load with lrects := [⟨0, 0, 0, 0, 0, 0, 0⟩] }, ctxs := [(0, Ctx.fresh 0 (some 0) 0)], mem := { s.mem with objs := [(5, ⟨0, 2, 0, false, false, false, false, 0x100000, 1⟩)] } }) wFab
  let v : State := (fun (s : State) => { s with load := { s.load with lrects := [⟨0, 0, 0, 0, 0, 0, 0⟩] }, ctxs := [(0, Ctx.fresh 0 (some 0) 0)], mem := { s.mem with objs := [(5, ⟨0, 2, 0, false, false, false, false, 0x100000, 1⟩)] } }) wFab
  let q : Nat := 0
  let host : Fetched := .bytes (wEntry [(0, 4, 0xA51), (0x14, 4, 2)])
  let bs : List Byte := wEntry [(0, 4, 0xA51), (0x14, 4, 2)]
  (AtEntry s q host v bs 5 10) ∧
    (v.checkColl bs = none) ∧
    (v.launchesOf (v.queue q).ctx = []) ∧
    ((v.fab.insts.any fun i => i.isOpen && i.key.ctx = (v.queue q).ctx) = false) ∧
    (v.fab.late = []) := by decide

theorem test_wit_FencesAndEpochsAreSet_5 :
  let s : State := (fun (s : State) => { s with descs := [(0, wLaunch [0])], nextDesc := 1 }) ((fun (s : State) => { s with load := { s.load with lrects := [⟨0, 0, 0, 0, 0, 0, 0⟩] }, ctxs := [(0, Ctx.fresh 0 (some 0) 0)], mem := { s.mem with objs := [(5, ⟨0, 2, 0, false, false, false, false, 0x100000, 1⟩)] } }) wFab)
  let v : State := (fun (s : State) => { s with descs := [(0, wLaunch [0])], nextDesc := 1 }) ((fun (s : State) => { s with load := { s.load with lrects := [⟨0, 0, 0, 0, 0, 0, 0⟩] }, ctxs := [(0, Ctx.fresh 0 (some 0) 0)], mem := { s.mem with objs := [(5, ⟨0, 2, 0, false, false, false, false, 0x100000, 1⟩)] } }) wFab)
  let q : Nat := 0
  let host : Fetched := .bytes (wEntry [(0, 4, 0xA51), (0x14, 4, 2)])
  let bs : List Byte := wEntry [(0, 4, 0xA51), (0x14, 4, 2)]
  (AtEntry s q host v bs 5 10) ∧
    (v.checkColl bs = none) ∧
    ((v.launchesOf (v.queue q).ctx ≠ [] ∨ (v.fab.insts.any fun i => i.isOpen && i.key.ctx = (v.queue q).ctx) = true)) := by decide

theorem test_wit_FencesAndEpochsAreSet_6 :
  let s : State := wRx ((mkPacket 4 1 2 1 0 0 0 0 0 [5, 2]).seal (wKey 2))
  let p : Nat := 0
  let k : Packet := (mkPacket 4 1 2 1 0 0 0 0 0 [5, 2]).seal (wKey 2)
  let x : Packet := { (mkPacket 4 1 2 1 0 0 0 0 0 [5, 2] : Packet) with tag := ((mkPacket 4 1 2 1 0 0 0 0 0 [5, 2]).seal (wKey 2)).tag }
  (p < 48) ∧
    (packetOk k = true) ∧
    (s.atHead p k = true) ∧
    (k.cls = 4) ∧
    (p ≠ 3) ∧
    (k.check = none) ∧
    (s.opened k = some x) ∧
    (fld (x.pw 0) 14 18 = 0) ∧
    (fld (x.pw 1) 14 18 = 0) ∧
    ((s.fab.isFenced k.ctx k.src && decide (k.epoch = (s.fab.ctx k.ctx).epoch)) = false) ∧
    ((s.fab.fenceKeys.any fun e => e.1 = ⟨k.ctx, k.epoch, fld (x.pw 0) 0 16⟩ && decide (s.now < e.2 + secNs)) = false) := ⟨by decide, packetOk_seal _ rfl (by decide), decide_eq_true rfl, by decide, by decide, by decide, State.opened_seal _ _ rfl rfl, by decide, by decide, by decide, by decide⟩

theorem test_wit_FencesAndEpochsAreSet_7 :
  let s : State := (fun (s : State) => { s with fab := { s.fab with fenceKeys := [(⟨0, 0, 5⟩, 0)] } }) (wRx ((mkPacket 4 1 2 1 0 0 0 0 0 [5, 2]).seal (wKey 2)))
  let p : Nat := 0
  let k : Packet := (mkPacket 4 1 2 1 0 0 0 0 0 [5, 2]).seal (wKey 2)
  let x : Packet := { (mkPacket 4 1 2 1 0 0 0 0 0 [5, 2] : Packet) with tag := ((mkPacket 4 1 2 1 0 0 0 0 0 [5, 2]).seal (wKey 2)).tag }
  (p < 48) ∧
    (packetOk k = true) ∧
    (s.atHead p k = true) ∧
    (k.cls = 4) ∧
    (p ≠ 3) ∧
    (k.check = none) ∧
    (s.opened k = some x) ∧
    (fld (x.pw 0) 14 18 = 0) ∧
    (fld (x.pw 1) 14 18 = 0) ∧
    ((s.fab.isFenced k.ctx k.src && decide (k.epoch = (s.fab.ctx k.ctx).epoch)) = false) ∧
    ((s.fab.fenceKeys.any fun e => e.1 = ⟨k.ctx, k.epoch, fld (x.pw 0) 0 16⟩ && decide (s.now < e.2 + secNs)) = true) := ⟨by decide, packetOk_seal _ rfl (by decide), decide_eq_true rfl, by decide, by decide, by decide, State.opened_seal _ _ rfl rfl, by decide, by decide, by decide, by decide⟩

theorem test_wit_FencesAndEpochsAreSet_8 :
  let s : State := wRx ((mkPacket 4 1 2 1 0 0 0 0 0 [5, 2]).seal (wKey 2))
  let p : Nat := 0
  let dev : Nat := 5
  let k : Packet := (mkPacket 4 1 2 1 0 0 0 0 0 [5, 2]).seal (wKey 2)
  let x : Packet := { (mkPacket 4 1 2 1 0 0 0 0 0 [5, 2] : Packet) with tag := ((mkPacket 4 1 2 1 0 0 0 0 0 [5, 2]).seal (wKey 2)).tag }
  let c : Ctx := Ctx.fresh 0 none 0
  (p < 48) ∧
    (packetOk k = true) ∧
    (s.atHead p k = true) ∧
    (k.cls = 4) ∧
    (p ≠ 3) ∧
    (k.check = none) ∧
    (s.opened k = some x) ∧
    (fld (x.pw 0) 14 18 = 0) ∧
    (fld (x.pw 1) 14 18 = 0) ∧
    ((s.fab.isFenced k.ctx k.src && decide (k.epoch = (s.fab.ctx k.ctx).epoch)) = false) ∧
    (x.pw 0 = BitVec.ofNat 32 dev) ∧
    (dev < 2 ^ 14) ∧
    ((s.fab.fenceKeys.any fun e => e.1 = ⟨k.ctx, k.epoch, dev⟩) = false) ∧
    (s.fab.fenceKeys.length < 4096) ∧
    (s.wrongEpoch k = false) ∧
    (s.fab.idValid = true) ∧
    (dev ≠ s.fab.self) ∧
    (s.fab.isFenced k.ctx dev = false) ∧
    (s.fab.fences.length < 16384) ∧
    (s.fab.txns = []) ∧
    (s.fab.insts = []) ∧
    (s.ctx? k.ctx = some c) ∧
    ((s.part? c.part).bind (·.hang) = none) := ⟨by decide, packetOk_seal _ rfl (by decide), decide_eq_true rfl, by decide, by decide, by decide, State.opened_seal _ _ rfl rfl, by decide, by decide, by decide, by decide, by decide, by decide, by decide, by decide, by decide, by decide, by decide, by decide, by decide, by decide, by decide, by decide⟩

theorem test_wit_FencesAndEpochsAreSet_9 :
  let s : State := { wFab with time := { RefTime.reset with now := 1000000000 }, fab := { wFab.fab with fenceKeys := [(⟨0, 0, 5⟩, 0), (⟨0, 0, 6⟩, 0)] } }
  let c : Nat := 0
  let dev : Nat := 5
  let ep : W32 := 0
  (c < 1024) ∧
    (dev < 2 ^ 14) := by decide

theorem test_wit_CommitsTakeEffectAndSlotsOpen_1 :
  let s : State := wQueue
  let tee : Bool := false
  (HostMay s .sch tee) := by decide

theorem test_wit_CommitsTakeEffectAndSlotsOpen_2 :
  let s : State := { wSch (Ctx.fresh 0 (some 0) 0) (⟨.queue 0 0, ⟨0, 1, 1, 0, 0, 0, 0, 0⟩, .launch 0 0 [] [0] 0, .waiting, .ok, 0, false, none, false, none, none, none⟩) with sch := { (wSch (Ctx.fresh 0 (some 0) 0) (⟨.queue 0 0, ⟨0, 1, 1, 0, 0, 0, 0, 0⟩, .launch 0 0 [] [0] 0, .waiting, .ok, 0, false, none, false, none, none, none⟩)).sch with pend := some 0 } }
  let e : Nat := 0
  (s.sch.pend = some e) ∧
    (e ≤ s.now) := by decide

theorem test_wit_CommitsTakeEffectAndSlotsOpen_3 :
  let s : State := wSch (Ctx.fresh 0 (some 0) 0) (⟨.queue 0 0, ⟨0, 1, 1, 0, 0, 0, 0, 0⟩, .launch 0 0 [] [0] 0, .waiting, .ok, 0, false, none, false, none, none, none⟩)
  let e : Nat := 0
  (s.sch.pend = none ∨ (s.sch.pend = some e ∧ s.now < e)) := by decide

theorem test_wit_CommitsTakeEffectAndSlotsOpen_4 :
  let s : State := wQueue
  let tee : Bool := false
  (HostMay s .sch tee) ∧
    (s.loadSch = false) ∧
    (s.bankCheck s.bankShadow = none) ∧
    (s.sch.pend = none) := by decide

theorem test_wit_CommitsTakeEffectAndSlotsOpen_5 :
  let s : State := { wSch (Ctx.fresh 0 (some 0) 0) (⟨.queue 0 0, ⟨0, 1, 1, 0, 0, 0, 0, 0⟩, .launch 0 0 [] [0] 0, .waiting, .ok, 0, false, none, false, none, none, none⟩) with sch := { (wSch (Ctx.fresh 0 (some 0) 0) (⟨.queue 0 0, ⟨0, 1, 1, 0, 0, 0, 0, 0⟩, .launch 0 0 [] [0] 0, .waiting, .ok, 0, false, none, false, none, none, none⟩)).sch with pend := some 0 } }
  let e : Nat := 0
  (s.sch.pend = some e) ∧
    (e ≤ s.now) := by decide

theorem test_wit_CommitsTakeEffectAndSlotsOpen_6 :
  let s : State := wSch (Ctx.fresh 0 (some 0) 0) (⟨.queue 0 0, ⟨0, 1, 1, 0, 0, 0, 0, 0⟩, .launch 0 0 [] [0] 0, .waiting, .ok, 0, false, none, false, none, none, none⟩)
  let i : Nat := 511
  (i < 512) := by decide

theorem test_wit_CommitsTakeEffectAndSlotsOpen_7 :
  let s : State := wSch (Ctx.fresh 0 (some 0) 0) (⟨.queue 0 0, ⟨0, 1, 1, 0, 0, 0, 0, 0⟩, .launch 0 0 [] [0] 0, .waiting, .ok, 0, false, none, false, none, none, none⟩)
  let i : Nat := 511
  (i < 512) := by decide

theorem test_wit_CommitsTakeEffectAndSlotsOpen_9 :
  let s : State := { wSch (Ctx.fresh 0 (some 0) 0) (⟨.queue 0 0, ⟨0, 1, 1, 0, 0, 0, 0, 0⟩, .launch 0 0 [] [0] 0, .waiting, .ok, 0, false, none, false, none, none, none⟩) with time := { RefTime.reset with now := 5000 } }
  let i : Nat := 0
  (i < 512) ∧
    (s.tableOn = true) ∧
    (i < bankCount s.bankNow) ∧
    ((bankEntry s.bankNow i).len ≠ 0) ∧
    (s.sch.opened.contains i = false) ∧
    (s.sch.cycT + (bankEntry s.bankNow i).off ≤ s.now) ∧
    (s.sch.pend = none) ∧
    (s.partOpen (bankEntry s.bankNow i).part = false ∨ s.sch.cycT + (bankEntry s.bankNow i).off + (bankEntry s.bankNow i).len ≤ s.now) := by decide

theorem test_wit_CommitsTakeEffectAndSlotsOpen_10 :
  let s : State := wSch (Ctx.fresh 0 (some 0) 0) (⟨.queue 0 0, ⟨0, 1, 1, 0, 0, 0, 0, 0⟩, .launch 0 0 [] [0] 0, .waiting, .ok, 0, false, none, false, none, none, none⟩)
  let i : Nat := 0
  (i < 512) ∧
    (s.sch.opened.contains i = false ∨ s.now < s.sch.cycT + (bankEntry s.bankNow i).off + (bankEntry s.bankNow i).len) := by decide

theorem test_wit_CommitsTakeEffectAndSlotsOpen_11 :
  let s : State := { wSch (Ctx.fresh 0 (some 0) 0) (⟨.queue 0 0, ⟨0, 1, 1, 0, 0, 0, 0, 0⟩, .launch 0 0 [] [0] 0, .waiting, .ok, 0, false, none, false, none, none, none⟩) with load := { wQueue.load with lrects := [⟨0, 0, 0, 0, 0, 0, 0⟩] } }
  let i : Nat := 0
  let x : Ctx := { Ctx.fresh 0 (some 0) 0 with serve := true }
  (i < 512) ∧
    (s.tableOn = true) ∧
    (i < bankCount s.bankNow) ∧
    ((bankEntry s.bankNow i).len ≠ 0) ∧
    (s.sch.opened.contains i = false) ∧
    (s.sch.pend = none) ∧
    (s.sch.cycT + (bankEntry s.bankNow i).off ≤ s.now) ∧
    (s.now < s.sch.cycT + (bankEntry s.bankNow i).off + (bankEntry s.bankNow i).len) ∧
    (s.partOpen (bankEntry s.bankNow i).part = true) ∧
    (s.heldByOther (bankEntry s.bankNow i).part (bankEntry s.bankNow i).ctx = false) ∧
    ((s.schPart (bankEntry s.bankNow i).part).holder = .idle) ∧
    (s.ctx? (bankEntry s.bankNow i).ctx = some x) ∧
    (x.bstep = false) ∧
    (x.preempted = none) ∧
    (x.preempting = none) ∧
    ((x.flt = .run ∨ x.flt = .suspect)) ∧
    ((s.fab.ctx (bankEntry s.bankNow i).ctx).fenced = false) ∧
    (s.backfilling (bankEntry s.bankNow i).part (bankEntry s.bankNow i).ctx = []) ∧
    ((s.ctxs.any fun y => y.1 ≠ (bankEntry s.bankNow i).ctx && y.2.preempting = some .sch && (y.2.part = (bankEntry s.bankNow i).part || y.1 = (bankEntry s.bankNow i).bfctx)) = false) ∧
    ((s.launchWaits (bankEntry s.bankNow i).part (bankEntry s.bankNow i).ctx).2 = true) := ⟨by decide, by decide, by decide, by decide, by decide, by decide, by decide, by decide, by decide, by decide, by decide, by decide, by decide, by decide, by decide, by decide, by decide, by decide, by decide, by decide +kernel⟩

theorem test_wit_CommitsTakeEffectAndSlotsOpen_12 :
  let s : State := { wSch { (Ctx.fresh 0 (some 0) 0 : Ctx) with bstep := true, bstepSlot := some (some 0, 0) } (⟨.queue 0 0, ⟨0, 1, 1, 0, 0, 0, 0, 0⟩, .launch 0 0 [] [0] 0, .waiting, .ok, 0, false, none, false, none, none, none⟩) with sch := { (wSch (Ctx.fresh 0 (some 0) 0) (⟨.queue 0 0, ⟨0, 1, 1, 0, 0, 0, 0, 0⟩, .launch 0 0 [] [0] 0, .waiting, .ok, 0, false, none, false, none, none, none⟩)).sch with opened := [0] }, time := { RefTime.reset with now := 5000 } }
  let i : Nat := 0
  let t : Nat := 0
  let x : Ctx := { (Ctx.fresh 0 (some 0) 0 : Ctx) with serve := true, bstep := true, bstepSlot := some (some 0, 0) }
  (i < 512) ∧
    (s.sch.opened.contains i = true) ∧
    (s.sch.cycT + (bankEntry s.bankNow i).off + (bankEntry s.bankNow i).len ≤ s.now) ∧
    (s.ctx? (bankEntry s.bankNow i).ctx = some x) ∧
    (x.bstep = true) ∧
    (x.bstepSlot = some (some i, t)) ∧
    (x.overSince = none) ∧
    ((s.schPart (bankEntry s.bankNow i).part).opening = none) := by decide

theorem test_wit_CommitsTakeEffectAndSlotsOpen_13 :
  let s : State := { wSch (Ctx.fresh 0 (some 0) 0) (⟨.queue 0 0, ⟨0, 1, 1, 0, 0, 0, 0, 0⟩, .launch 0 0 [] [0] 0, .waiting, .ok, 0, false, none, false, none, none, none⟩) with time := { RefTime.reset with now := 10000 } }
  (s.tableOn = true) ∧
    (s.sch.cycT + bankCycle s.bankNow ≤ s.now) ∧
    (s.sch.pend = none) := by decide

theorem test_wit_ContextsArePreemptedResumedAndSwitched_1 :
  let s : State := wQueue
  let c : Nat := 1023
  let tee : Bool := false
  (c < 1024) ∧
    (HostMay s .sch tee) := by decide

theorem test_wit_ContextsArePreemptedResumedAndSwitched_2 :
  let s : State := wQueue
  let c : Nat := 1023
  let tee : Bool := false
  (c < 1024) ∧
    (HostMay s .sch tee) := by decide

theorem test_wit_ContextsArePreemptedResumedAndSwitched_3 :
  let s : State := wQueue
  let c : Nat := 0
  let v : W16 := 7
  let tee : Bool := false
  (c < 1024) ∧
    (HostMay s .sch tee) := by decide

theorem test_wit_ContextsArePreemptedResumedAndSwitched_4 :
  let s : State := wQueue
  let c : Nat := 0
  (c < 1024) := by decide

theorem test_wit_ContextsArePreemptedResumedAndSwitched_5 :
  let s : State := wQueue
  let c : Nat := 0
  (c < 1024) := by decide

theorem test_wit_ContextsArePreemptedResumedAndSwitched_6 :
  let s : State := { wQueue with sigs := [⟨0, 5, 1, none, none, none, 0, none⟩] }
  let c : Nat := 0
  let tee : Bool := false
  let x : Ctx := Ctx.fresh 0 none 0
  (c < 1024) ∧
    (HostMay s .sch tee) ∧
    (s.loadSch = false) ∧
    (s.loadCtx c = false) ∧
    (s.ctx? c = some x) ∧
    (s.openDue s.now = s) ∧
    (x.preempted = none) ∧
    (x.preempting = none) ∧
    (s.slotPart x.part = false) ∧
    ((s.part? x.part).bind (·.hang) = none) := by decide

theorem test_wit_ContextsArePreemptedResumedAndSwitched_7 :
  let s : State := { wQueue with ctxs := [(0, { (Ctx.fresh 0 none 0) with preempting := some .host })] }
  let c : Nat := 0
  let x : Ctx := { (Ctx.fresh 0 none 0) with preempting := some .host }
  let who : Preempter := .host
  (c < 1024) ∧
    (s.ctx? c = some x) ∧
    (x.preempting = some who) ∧
    ((s.schPart x.part).opening = none) := by decide

theorem test_wit_ContextsArePreemptedResumedAndSwitched_8 :
  let s : State := { wQueue with ctxs := [(0, { (Ctx.fresh 0 none 0) with preempted := some .host })], queues := [(0, { wQ with fetch := 1 })], flt := { Flt.reset with parts := [(0, Part.fresh)] } }
  let c : Nat := 0
  let tee : Bool := false
  let x : Ctx := { (Ctx.fresh 0 none 0) with preempted := some .host }
  let y : Part := Part.fresh
  (c < 1024) ∧
    (HostMay s .sch tee) ∧
    (s.loadSch = false) ∧
    (s.loadCtx c = false) ∧
    (s.ctx? c = some x) ∧
    (x.preempting = none) ∧
    (s.part? x.part = some y) ∧
    (y.st = .run) ∧
    (x.preempted = some .host) ∧
    (x.flt ≠ .faulted) := by decide

theorem test_wit_ContextsArePreemptedResumedAndSwitched_9 :
  let s : State := { wQueue with ctxs := [(0, { (Ctx.fresh 0 none 0) with serve := true, lcount := 2 })] }
  let c : Nat := 0
  let ver : W16 := 1
  let tee : Bool := false
  let x : Ctx := { (Ctx.fresh 0 none 0) with serve := true, lcount := 2 }
  (c < 1024) ∧
    (HostMay s .sch tee) ∧
    (s.loadSch = false) ∧
    (s.loadCtx c = false) ∧
    (s.ctx? c = some x) ∧
    (s.openDue (s.now + 1) = s) ∧
    (x.serve = true) ∧
    (ver = x.admVer + 1) ∧
    (x.switching = false) ∧
    (x.lcount ≠ 0) := by decide

theorem test_wit_ContextsArePreemptedResumedAndSwitched_10 :
  let s : State := { wQueue with ctxs := [(0, { (Ctx.fresh 0 none 0) with serve := true, lcount := 2, switching := true })] }
  let c : Nat := 0
  let l : Nat := 0
  let x : Ctx := { (Ctx.fresh 0 none 0) with serve := true, lcount := 2, switching := true }
  (c < 1024) ∧
    (s.ctx? c = some x) ∧
    (x.switching = true) ∧
    ((List.range x.lcount).find? (fun l => !(s.layer x l).released) = some l) ∧
    (x.bstep = false) := by decide

theorem test_wit_TimeIsExchangedAndRead_1 :
  let s : State := wFab
  (s.fab.idValid = true) := by decide

theorem test_wit_TimeIsExchangedAndRead_1_2 :
  let s : State := { wFab with fab := { wFab.fab with onBackup := true, backup := 2 } }
  (s.fab.idValid = true) := by decide

theorem test_wit_TimeIsExchangedAndRead_2 :
  let s : State := wOn
  (s.fab.idValid = false) := by decide

theorem test_wit_TimeIsExchangedAndRead_3 :
  let s : State := wFab
  let p : Nat := 0
  (s.fab.idValid = true) ∧
    (s.fab.onBackup = false) ∧
    (p = s.fab.primary.toNat) ∧
    (p ≠ 3) ∧
    (SMap.get? s.fab.treqs p = none) ∧
    (s.fab.isUp p = true) := by decide

theorem test_wit_TimeIsExchangedAndRead_4 :
  let s : State := wRx ((wPkt 3 1 0 0 0 [5, 0]).seal (wKey 1))
  let p : Nat := 0
  let k : Packet := (wPkt 3 1 0 0 0 [5, 0]).seal (wKey 1)
  let x : Packet := { (wPkt 3 1 0 0 0 [5, 0] : Packet) with tag := ((wPkt 3 1 0 0 0 [5, 0]).seal (wKey 1)).tag }
  (PacketIn s p k x 3 1) := wit_in rfl rfl rfl (by decide)

theorem test_wit_TimeIsExchangedAndRead_5 :
  let s : State := (fun (s : State) => { s with time := { s.time with st := .locked, now := 700 }, fab := { s.fab with treqs := [(0, 100)] } }) (wRx ((wPkt 3 2 0 0 0 [100, 0, 300, 0, 400, 0, 2, 0]).seal (wKey 1)))
  let p : Nat := 0
  let op : Nat := 2
  let t1 : Nat := 100
  let k : Packet := (wPkt 3 2 0 0 0 [100, 0, 300, 0, 400, 0, 2, 0]).seal (wKey 1)
  let x : Packet := { (wPkt 3 2 0 0 0 [100, 0, 300, 0, 400, 0, 2, 0] : Packet) with tag := ((wPkt 3 2 0 0 0 [100, 0, 300, 0, 400, 0, 2, 0]).seal (wKey 1)).tag }
  (PacketIn s p k x 3 op) ∧
    (op ≠ 1) ∧
    (SMap.get? s.fab.treqs p = some t1) := ⟨wit_in rfl rfl rfl (by decide), by decide, by decide⟩

theorem test_wit_TimeIsExchangedAndRead_5_2 :
  let s : State := (fun (s : State) => { s with time := { s.time with st := .locked, now := 700 }, fab := { s.fab with treqs := [(0, 100)] } }) (wRx ((wPkt 3 2 0 0 0 [101, 0, 300, 0, 400, 0, 2, 0]).seal (wKey 1)))
  let p : Nat := 0
  let op : Nat := 2
  let t1 : Nat := 100
  let k : Packet := (wPkt 3 2 0 0 0 [101, 0, 300, 0, 400, 0, 2, 0]).seal (wKey 1)
  let x : Packet := { (wPkt 3 2 0 0 0 [101, 0, 300, 0, 400, 0, 2, 0] : Packet) with tag := ((wPkt 3 2 0 0 0 [101, 0, 300, 0, 400, 0, 2, 0]).seal (wKey 1)).tag }
  (PacketIn s p k x 3 op) ∧
    (op ≠ 1) ∧
    (SMap.get? s.fab.treqs p = some t1) := ⟨wit_in rfl rfl rfl (by decide), by decide, by decide⟩

theorem test_wit_TimeIsExchangedAndRead_6 :
  let s : State := (fun (s : State) => { s with time := { s.time with st := .locked, now := 700 }, fab := { s.fab with treqs := [] } }) (wRx ((wPkt 3 2 0 0 0 [100, 0, 300, 0, 400, 0, 2, 0]).seal (wKey 1)))
  let p : Nat := 0
  let op : Nat := 2
  let k : Packet := (wPkt 3 2 0 0 0 [100, 0, 300, 0, 400, 0, 2, 0]).seal (wKey 1)
  let x : Packet := { (wPkt 3 2 0 0 0 [100, 0, 300, 0, 400, 0, 2, 0] : Packet) with tag := ((wPkt 3 2 0 0 0 [100, 0, 300, 0, 400, 0, 2, 0]).seal (wKey 1)).tag }
  (PacketIn s p k x 3 op) ∧
    (op ≠ 1) ∧
    (SMap.get? s.fab.treqs p = none) := ⟨wit_in rfl rfl rfl (by decide), by decide, by decide⟩

theorem test_wit_TimeIsExchangedAndRead_7 :
  let s : State := (fun (s : State) => { s with time := { s.time with st := .locked, now := 700 }, fab := { s.fab with treqs := [(0, 100)] } }) (wRx ((wPkt 3 2 0 0 0 [100, 0, 300, 0, 400, 0, 2, 0]).seal (wKey 1)))
  let p : Nat := 0
  let t1 : Nat := 100
  let k : Packet := (wPkt 3 2 0 0 0 [100, 0, 300, 0, 400, 0, 2, 0]).seal (wKey 1)
  let x : Packet := { (wPkt 3 2 0 0 0 [100, 0, 300, 0, 400, 0, 2, 0] : Packet) with tag := ((wPkt 3 2 0 0 0 [100, 0, 300, 0, 400, 0, 2, 0]).seal (wKey 1)).tag }
  (PacketIn s p k x 3 2) ∧
    (SMap.get? s.fab.treqs p = some t1) ∧
    (x.pw64 0 = t1) ∧
    (s.now ≤ t1 + 100000) ∧
    ((timeExchange (x.pw64 0) (x.pw64 2) (x.pw64 4) s.now (x.pw 7).toInt).2 ≤ s.fab.dmax.toNat * 100) ∧
    (s.fab.dmax ≠ 0) ∧
    (fld (x.pw 6) 0 3 = 2) ∧
    (s.time.st = .locked) ∧
    (-1000 ≤ (timeExchange (x.pw64 0) (x.pw64 2) (x.pw64 4) s.now (x.pw 7).toInt).1) ∧
    ((timeExchange (x.pw64 0) (x.pw64 2) (x.pw64 4) s.now (x.pw 7).toInt).1 ≤ 1000) := ⟨wit_in rfl rfl rfl (by decide), by decide, by decide, by decide, by decide, by decide, by decide, by decide, by decide, by decide⟩

theorem test_wit_TimeIsExchangedAndRead_8 :
  let s : State := { wFab with time := { RefTime.reset with st := .locked, now := 250000000 } }
  (s.time.st = .locked) ∧
    (s.time.lastValid + 250000000 ≤ s.now) := by decide

theorem test_wit_TimeIsExchangedAndRead_9 :
  let s : State := { wFab with time := { RefTime.reset with now := 0x500000009, hearthLatch := 7 } }
  let tee : Bool := false
  (s.barShut tee = false) := by decide

theorem test_wit_ControlPacketsReachRegisters_1 :
  let s : State := wRx ((wPkt 5 1 0 0x200000 2 []).seal (wKey 1))
  let p : Nat := 0
  let k : Packet := (wPkt 5 1 0 0x200000 2 []).seal (wKey 1)
  let x : Packet := { (wPkt 5 1 0 0x200000 2 [] : Packet) with tag := ((wPkt 5 1 0 0x200000 2 []).seal (wKey 1)).tag }
  let os : List Nat := [0x200000, 0x200004]
  (PacketIn s p k x 5 1) ∧
    (x.ctrlOffs = some os) := ⟨wit_in rfl rfl rfl (by decide), by decide⟩

theorem test_wit_ControlPacketsReachRegisters_2 :
  let s : State := wRx ((wPkt 5 1 0 0x200000 2 []).seal (wKey 1))
  let p : Nat := 0
  let k : Packet := (wPkt 5 1 0 0x200000 2 []).seal (wKey 1)
  let x : Packet := { (wPkt 5 1 0 0x200000 2 [] : Packet) with tag := ((wPkt 5 1 0 0x200000 2 []).seal (wKey 1)).tag }
  let os : List Nat := [0x200000, 0x200004]
  (PacketIn s p k x 5 1) ∧
    (x.ctrlOffs = some os) ∧
    (s.ctrlOpen = true) ∧
    ((os.any fun o => (regAt 0 o).any fun r => !r.1.ownerRead) = false) := ⟨wit_in rfl rfl rfl (by decide), by decide, by decide, by decide⟩

theorem test_wit_ControlPacketsReachRegisters_3 :
  let s : State := wRx ((wPkt 5 2 0 0x3FFFFFC 2 [0, 0]).seal (wKey 1))
  let p : Nat := 0
  let op : Nat := 2
  let k : Packet := (wPkt 5 2 0 0x3FFFFFC 2 [0, 0]).seal (wKey 1)
  let x : Packet := { (wPkt 5 2 0 0x3FFFFFC 2 [0, 0] : Packet) with tag := ((wPkt 5 2 0 0x3FFFFFC 2 [0, 0]).seal (wKey 1)).tag }
  let c : Instr := .ctrlCwrite 0 ((wPkt 5 2 0 0x3FFFFFC 2 [0, 0]).seal (wKey 1))
  (PacketIn s p k x 5 op) ∧
    ((op = 1 ∧ c = .ctrlCread p k ∨ op = 2 ∧ c = .ctrlCwrite p k)) ∧
    (x.ctrlOffs = none) := ⟨wit_in rfl rfl rfl (by decide), by decide, by decide⟩

theorem test_wit_ControlPacketsReachRegisters_4 :
  let s : State := wRx ((wPkt 5 2 0 0x1000A0 1 [0]).seal (wKey 1))
  let p : Nat := 0
  let k : Packet := (wPkt 5 2 0 0x1000A0 1 [0]).seal (wKey 1)
  let x : Packet := { (wPkt 5 2 0 0x1000A0 1 [0] : Packet) with tag := ((wPkt 5 2 0 0x1000A0 1 [0]).seal (wKey 1)).tag }
  let os : List Nat := [0x1000A0]
  (PacketIn s p k x 5 2) ∧
    (x.ctrlOffs = some os) := ⟨wit_in rfl rfl rfl (by decide), by decide⟩

theorem test_wit_ControlPacketsReachRegisters_5 :
  let s : State := wRx ((wPkt 5 3 0 0 0 []).seal (wKey 1))
  let p : Nat := 0
  let k : Packet := (wPkt 5 3 0 0 0 []).seal (wKey 1)
  let x : Packet := { (wPkt 5 3 0 0 0 [] : Packet) with tag := ((wPkt 5 3 0 0 0 []).seal (wKey 1)).tag }
  (PacketIn s p k x 5 3) := wit_in rfl rfl rfl (by decide)

theorem test_wit_ControlPacketsReachRegisters_6 :
  let s : State := (fun (s : State) => { s with fab := { s.fab with glstate := [33, 48] } }) (wRx ((wPkt 5 4 0 0 0 (List.replicate 16 5)).seal (wKey 1)))
  let p : Nat := 0
  let k : Packet := (wPkt 5 4 0 0 0 (List.replicate 16 5)).seal (wKey 1)
  let x : Packet := { (wPkt 5 4 0 0 0 (List.replicate 16 5) : Packet) with tag := ((wPkt 5 4 0 0 0 (List.replicate 16 5)).seal (wKey 1)).tag }
  (PacketIn s p k x 5 4) ∧
    (x.src / 32 = s.fab.group) ∧
    (x.src % 32 ≠ s.fab.pos) := ⟨wit_in rfl rfl rfl (by decide), by decide, by decide⟩

theorem test_wit_ControlPacketsReachRegisters_7 :
  let s : State := (fun (s : State) => { s with fab := { s.fab with group := 1 } }) (wRx ((mkPacket 5 4 2 33 0 0 0 0 0 (List.replicate 16 5)).seal (wKey 1)))
  let p : Nat := 0
  let k : Packet := (mkPacket 5 4 2 33 0 0 0 0 0 (List.replicate 16 5)).seal (wKey 1)
  let x : Packet := { (mkPacket 5 4 2 33 0 0 0 0 0 (List.replicate 16 5) : Packet) with tag := ((mkPacket 5 4 2 33 0 0 0 0 0 (List.replicate 16 5)).seal (wKey 1)).tag }
  (PacketIn s p k x 5 4) ∧
    ((x.src / 32 ≠ s.fab.group ∨ x.src % 32 = s.fab.pos)) := ⟨wit_in rfl rfl rfl (by decide), by decide⟩

theorem test_wit_ControlPacketsReachRegisters_8 :
  let s : State := wFab
  (s.fab.idValid = true) := by decide

theorem test_wit_ControlPacketsReachRegisters_9 :
  let s : State := wFab
  let q : Nat := 2
  let p : Nat := 0
  let key : List Byte := wKey 1
  (s.fab.idValid = true) ∧
    (s.sealKey 5 = some key) ∧
    ((SMap.keys s.fab.locals).filter (fun x => x ≠ s.fab.pos && (s.fab.localEnt x).isSome) = [q]) ∧
    (p ≠ 3) ∧
    (s.fab.route true ((mkPacket 5 4 s.fab.self (s.fab.group * 32 + q) 0 0 0 0 0 (linkWords s.fab.links)).seal key) = .send p ((mkPacket 5 4 s.fab.self (s.fab.group * 32 + q) 0 0 0 0 0 (linkWords s.fab.links)).seal key)) := by decide

theorem test_wit_LoadsRunTheirPhases_1 :
  let s : State := wQueue
  let vec : Nat := 2047
  let irqen : Bool := true
  let tee : Bool := false
  (vec < 2048) ∧
    (HostMay s .dev tee) := by decide

theorem test_wit_LoadsRunTheirPhases_1_2 :
  let s : State := { wQueue with hif := { wQueue.hif with agreed := 0 } }
  let vec : Nat := 0
  let irqen : Bool := true
  let tee : Bool := false
  (vec < 2048) ∧
    (HostMay s .dev tee) := by decide

theorem test_wit_LoadsRunTheirPhases_2 :
  let s : State := wQueue
  let vec : Nat := 0
  let irqen : Bool := false
  let tee : Bool := false
  (vec < 2048) ∧
    (HostMay s .dev tee) := by decide

theorem test_wit_LoadsRunTheirPhases_start :
  let s : State := wQueue
  let vec : Nat := 2047
  let irqen : Bool := true
  let tee : Bool := false
  (vec < 2048) ∧
    (HostMay s .dev tee) ∧
    (s.load.st = .idle) ∧
    (s.loadLocked = false) ∧
    (s.hif.agreed ≠ 0) ∧
    (s.load.addr.toNat + s.load.len.toNat ≤ 2 ^ 44) := by decide

theorem test_wit_LoadsRunTheirPhases_abort :
  let s : State := { wQueue with load := { wQueue.load with st := .check } }
  let vec : Nat := 0
  let irqen : Bool := false
  let tee : Bool := false
  (vec < 2048) ∧
    (HostMay s .dev tee) ∧
    (s.load.st = .check) := by decide

theorem test_wit_LoadsRunTheirPhases_5 :
  let s : State := { wQueue with load := { wQueue.load with st := .apply, staged := some (⟨false, [], [(0, 0)], leBytes 80 0x5bb99848f1d21ad5fb656fe7bfde4e27dae1f663bfc70c4c4307be1411b7fd216ae3b1b17e32d94c3896ac51a760b0380000000000000000000000000000000000000000000002000000000000210018, 1, [], [], [], [], false, [], none⟩), irqen := true } }
  let g : Staged := ⟨false, [], [(0, 0)], leBytes 80 0x5bb99848f1d21ad5fb656fe7bfde4e27dae1f663bfc70c4c4307be1411b7fd216ae3b1b17e32d94c3896ac51a760b0380000000000000000000000000000000000000000000002000000000000210018, 1, [], [], [], [], false, [], none⟩
  let vec : Nat := 0
  let irqen : Bool := false
  let tee : Bool := false
  (vec < 2048) ∧
    (HostMay s .dev tee) ∧
    (s.load.st = .apply) ∧
    (s.load.staged = some g) := by decide

theorem test_wit_LoadsRunTheirPhases_6 :
  let s : State := { wQueue with load := { wQueue.load with st := .check } }
  let e : HostErr := .poisoned
  (s.loadRuns .check = true) := by decide

theorem test_wit_LoadsRunTheirPhases_7 :
  let s : State := { wQueue with load := { wQueue.load with st := .check } }
  let c : Container := ⟨putBytes (putBytes (putBytes (putBytes (putBytes (List.replicate 128 0) 0 (leBytes 4 0x53425A51)) 4 (leBytes 4 0x10001)) 8 (leBytes 4 1)) 12 (leBytes 4 1)) 0x10 (leBytes 8 512 ++ leBytes 8 1), leBytes 80 0x5bb99848f1d21ad5fb656fe7bfde4e27dae1f663bfc70c4c4307be1411b7fd216ae3b1b17e32d94c3896ac51a760b0380000000000000000000000000000000000000000000002000000000000210018, putBytes (putBytes (List.replicate 256 0) 0x68 (leBytes 8 0x87de74ade81e2892)) 0x70 (leBytes 96 0x889c9e5cb18844f985d364e74ec33b6712085ea7ebb0523eac449baa71da8bb9903c4b14da4f9b0d484773c64678a84431c80005c7e5d7020d582650aebb08b4a66d56d340f2a4be06cd2d2010399dcb987ddc5f7e3c796414fa6f60d4417a07), [[]]⟩
  let st : Status := .version
  let i : Nat := 0
  let o : Nat := 0
  (c.hdr.length = 128) ∧
    (c.sig.length = 256) ∧
    (s.loadRuns .check = true) ∧
    (s.t3Denied = false) ∧
    (s.containerChk c = some (st, i, o)) := by decide

theorem test_wit_LoadsRunTheirPhases_8 :
  let s : State := { wQueue with load := { wQueue.load with st := .check } }
  let c : Container := ⟨putBytes (putBytes (putBytes (putBytes (putBytes (List.replicate 128 0) 0 (leBytes 4 0x53425A51)) 4 (leBytes 4 0x10001)) 8 (leBytes 4 1)) 12 (leBytes 4 1)) 0x10 (leBytes 8 512 ++ leBytes 8 1), leBytes 80 0x5bb99848f1d21ad5fb656fe7bfde4e27dae1f663bfc70c4c4307be1411b7fd216ae3b1b17e32d94c3896ac51a760b0380000000000000000000000000000000000000000000002000000000000210018, putBytes (putBytes (List.replicate 256 0) 0x68 (leBytes 8 0x87de74ade81e2892)) 0x70 (leBytes 96 0x889c9e5cb18844f985d364e74ec33b6712085ea7ebb0523eac449baa71da8bb9903c4b14da4f9b0d484773c64678a84431c80005c7e5d7020d582650aebb08b4a66d56d340f2a4be06cd2d2010399dcb987ddc5f7e3c796414fa6f60d4417a07), [[]]⟩
  (c.hdr.length = 128) ∧
    (c.sig.length = 256) ∧
    (s.loadRuns .check = true) := by decide

theorem test_wit_LoadsRunTheirPhases_check :
  let s : State := { wQueue with sec := { wQueue.sec with tload := some (leBytes 97 0x800e940a701e50612de2394de943fd5f25b46a255f504e903ec46cbc75d875b274ba6dfddfe8bfb7ed3c1b5bfaf1808e61df9552c7a9965bf8640ebe6ee8e04f9e6eb99fd107d251d634f4a659590289f0975bc545002669d9d2a37b0599d90804, List.replicate 32 2) }, load := { wQueue.load with st := .check, abi := 1, len := 512, id := List.replicate 48 0 } }
  let c : Container := ⟨putBytes (putBytes (putBytes (putBytes (putBytes (List.replicate 128 0) 0 (leBytes 4 0x53425A51)) 4 (leBytes 4 0x10001)) 8 (leBytes 4 1)) 12 (leBytes 4 1)) 0x10 (leBytes 8 512 ++ leBytes 8 1), leBytes 80 0x5bb99848f1d21ad5fb656fe7bfde4e27dae1f663bfc70c4c4307be1411b7fd216ae3b1b17e32d94c3896ac51a760b0380000000000000000000000000000000000000000000002000000000000210018, putBytes (putBytes (List.replicate 256 0) 0x68 (leBytes 8 0x87de74ade81e2892)) 0x70 (leBytes 96 0x889c9e5cb18844f985d364e74ec33b6712085ea7ebb0523eac449baa71da8bb9903c4b14da4f9b0d484773c64678a84431c80005c7e5d7020d582650aebb08b4a66d56d340f2a4be06cd2d2010399dcb987ddc5f7e3c796414fa6f60d4417a07), [[]]⟩
  (c.hdr.length = 128) ∧
    (c.sig.length = 256) ∧
    (s.loadRuns .check = true) ∧
    (s.t3Denied = false) ∧
    (s.containerChk c = none) ∧
    (c.partial_ = true) ∧
    ((State.sectsChk { s with flt := { s.flt with retired := s.load.record } } true s.selfDev (c.opened s.loadKey).tables) = none) ∧
    (s.reloadBusy (c.opened s.loadKey) = none) := ⟨by decide, by decide, by decide, by decide, by decide +kernel, by decide, by decide +kernel, by decide +kernel⟩

theorem test_wit_LoadsRunTheirPhases_10 :
  let s : State := { wQueue with load := { wQueue.load with st := .apply, staged := some (⟨false, [], [(0, 0)], leBytes 80 0x5bb99848f1d21ad5fb656fe7bfde4e27dae1f663bfc70c4c4307be1411b7fd216ae3b1b17e32d94c3896ac51a760b0380000000000000000000000000000000000000000000002000000000000210018, 1, [], [], [], [], false, [], none⟩), irqen := true } }
  let g : Staged := ⟨false, [], [(0, 0)], leBytes 80 0x5bb99848f1d21ad5fb656fe7bfde4e27dae1f663bfc70c4c4307be1411b7fd216ae3b1b17e32d94c3896ac51a760b0380000000000000000000000000000000000000000000002000000000000210018, 1, [], [], [], [], false, [], none⟩
  let r : ImageRead := ⟨[[]], none⟩
  (s.loadRuns .apply = true) ∧
    (s.load.staged = some g) ∧
    (((s.loadDies g).any fun d => s.downDies.contains d) = false) := by decide

theorem test_wit_LoadsRunTheirPhases_apply :
  let s : State := { wQueue with load := { wQueue.load with st := .apply, staged := some (⟨false, [], [(0, 0)], leBytes 80 0x5bb99848f1d21ad5fb656fe7bfde4e27dae1f663bfc70c4c4307be1411b7fd216ae3b1b17e32d94c3896ac51a760b0380000000000000000000000000000000000000000000002000000000000210018, 1, [], [], [], [], false, [], none⟩), irqen := true } }
  let g : Staged := ⟨false, [], [(0, 0)], leBytes 80 0x5bb99848f1d21ad5fb656fe7bfde4e27dae1f663bfc70c4c4307be1411b7fd216ae3b1b17e32d94c3896ac51a760b0380000000000000000000000000000000000000000000002000000000000210018, 1, [], [], [], [], false, [], none⟩
  let r : ImageRead := ⟨[[]], none⟩
  let xs : List (Nat × List Byte) := [(0, [])]
  (s.loadRuns .apply = true) ∧
    (s.load.staged = some g) ∧
    (g.full = false) ∧
    (g.sects = []) ∧
    (((s.loadDies g).any fun d => s.downDies.contains d) = false) ∧
    (s.t3Denied = false) ∧
    (s.imagesRead g g.images r.sects r.fail = (xs, none)) ∧
    (s.fab.served = []) ∧
    (s.hif.bar4 = []) := ⟨by decide, by decide, by decide, by decide, by decide, by decide, by decide +kernel, by decide, by decide⟩

theorem test_wit_PartitionsAreQuenched_1 :
  let s : State := { wQueue with flt := { Flt.reset with parts := [(0, Part.fresh)]  } }
  let part : Nat := 0
  let tee : Bool := false
  (part < 1024) ∧
    (HostMay s .devFlt tee) := by decide

theorem test_wit_PartitionsAreQuenched_2 :
  let s : State := { wQueue with flt := { Flt.reset with parts := [(0, Part.fresh)]  } }
  let part : Nat := 0
  let tee : Bool := false
  (part < 1024) ∧
    (HostMay s .devFlt tee) := by decide

theorem test_wit_PartitionsAreQuenched_3 :
  let s : State := (fun (s : State) => { s with flt := { s.flt with due := [⟨0, 0⟩]  } }) ({ wQueue with flt := { Flt.reset with parts := [(0, Part.fresh)]  } })
  let part : Nat := 0
  (part < 1024) := by decide

theorem test_wit_PartitionsAreQuenched_4 :
  let s : State := (fun (s : State) => { s with flt := { s.flt with due := [⟨0, 0⟩] , autoqMs := 0 } }) ({ wQueue with flt := { Flt.reset with parts := [(0, Part.fresh)]  } })
  let part : Nat := 0
  (part < 1024) := by decide

theorem test_wit_PartitionsAreQuenched_5 :
  let s : State := { wQueue with flt := { Flt.reset with parts := [(0, Part.fresh)]  } }
  let part : Nat := 0
  (part < 1024) := by decide

theorem test_wit_PartitionsAreQuenched_host :
  let s : State := { wQueue with flt := { Flt.reset with parts := [(0, Part.fresh)]  } }
  let part : Nat := 0
  let tee : Bool := false
  let x : Part := Part.fresh
  (part < 1024) ∧
    (HostMay s .devFlt tee) ∧
    (s.part? part = some x) ∧
    ((x.st = .run ∨ x.st = .degraded)) ∧
    (s.partInReset part = false) := by decide

theorem test_wit_PartitionsAreQuenched_resume :
  let s : State := (fun (s : State) => { s with load := { s.load with prects := [] } }) ({ wQueue with flt := { Flt.reset with parts := [(0, { Part.fresh with st := .maint })]  } })
  let part : Nat := 0
  let tee : Bool := false
  let x : Part := { Part.fresh with st := .maint }
  (part < 1024) ∧
    (HostMay s .devFlt tee) ∧
    (s.part? part = some x) ∧
    (x.st = .maint) ∧
    (s.partTested part x = true) ∧
    (s.partInReset part = false) := by decide

theorem test_wit_PartitionsAreQuenched_autoq :
  let s : State := (fun (s : State) => { s with flt := { s.flt with due := [⟨0, 0⟩]  } }) ({ wQueue with flt := { Flt.reset with parts := [(0, Part.fresh)]  } })
  let part : Nat := 0
  (part < 1024) ∧
    (s.autoqWaits part = true) ∧
    ((s.flt.autoqMs = 0 ∨ s.atBoundary part = true)) ∧
    (s.partInReset part = false) := by decide

theorem test_wit_PartitionsAreQuenched_timeout :
  let s : State := (fun (s : State) => { s with flt := { s.flt with due := [⟨0, 0⟩] , autoqMs := 0 } }) ({ wQueue with flt := { Flt.reset with parts := [(0, Part.fresh)]  } })
  let part : Nat := 0
  let d : Due := ⟨0, 0⟩
  (part < 1024) ∧
    (s.autoqWaits part = true) ∧
    (d ∈ s.pendOf part) ∧
    (s.ripe d = true) ∧
    (d.since + s.flt.autoqMs.toNat * 1000000 ≤ s.now) ∧
    (s.partInReset part = false) := by decide

theorem test_wit_PartitionsAreQuenched_end :
  let s : State := { wQueue with flt := { Flt.reset with parts := [(0, { Part.fresh with st := .quench, quench := some (8, []) })]  } }
  let part : Nat := 0
  let src : Nat := 8
  let cs : List Nat := []
  let x : Part := { Part.fresh with st := .quench, quench := some (8, []) }
  (part < 1024) ∧
    (s.part? part = some x) ∧
    (x.quench = some (src, cs)) ∧
    (x.hang = none) ∧
    (s.partHole part = false) := by decide

theorem test_wit_ContextsAreResetHangsAreScannedAndReplayed_1 :
  let s : State := { wQueue with flt := { Flt.reset with parts := [(0, Part.fresh)]  } }
  let ctx : Nat := 0
  let tee : Bool := false
  (ctx < 1024) ∧
    (HostMay s .devFlt tee) := by decide

theorem test_wit_ContextsAreResetHangsAreScannedAndReplayed_2 :
  let s : State := { wQueue with flt := { Flt.reset with parts := [(0, Part.fresh)]  } }
  let ctx : Nat := 0
  let tee : Bool := false
  let x : Ctx := Ctx.fresh 0 none 0
  let p : Part := Part.fresh
  (ctx < 1024) ∧
    (HostMay s .devFlt tee) ∧
    (s.ctx? ctx = some x) ∧
    (s.part? x.part = some p) ∧
    (p.st ≠ .quench) ∧
    (p.st ≠ .hang) := by decide

theorem test_wit_ContextsAreResetHangsAreScannedAndReplayed_3 :
  let s : State := (fun (s : State) => { s with time := { s.time with now := 1000000 } }) ({ wQueue with flt := { Flt.reset with parts := [(0, Part.fresh)]  } })
  (s.recurs .scan = true) ∧
    (s.computeOn = true) := by decide

theorem test_wit_ContextsAreResetHangsAreScannedAndReplayed_4 :
  let s : State := (fun (s : State) => { s with time := { s.time with now := 999999 } }) ({ wQueue with flt := { Flt.reset with parts := [(0, Part.fresh)]  } })
  ((s.recurs .scan = false ∨ s.computeOn = false)) := by decide

theorem test_wit_ContextsAreResetHangsAreScannedAndReplayed_4_2 :
  let s : State := State.reset
  ((s.recurs .scan = false ∨ s.computeOn = false)) := by decide

theorem test_wit_ContextsAreResetHangsAreScannedAndReplayed_5 :
  let s : State := (fun (s : State) => { s with ctxs := [(0, { (Ctx.fresh 0 none 0) with flt := .suspect }), (1, { (Ctx.fresh 0 none 0) with flt := .held })], time := { s.time with now := 1000000000 } }) ({ wQueue with flt := { Flt.reset with parts := [(0, { Part.fresh with st := .hang, hang := some ⟨[1], [0, 1], some (0, 0), [], false⟩ })]  } })
  let part : Nat := 0
  let c : Nat := 0
  let t : Nat := 0
  let h : HangRun := ⟨[1], [0, 1], some (0, 0), [], false⟩
  (part < 1024) ∧
    ((s.part? part).bind (·.hang) = some h) ∧
    (h.cur = some (c, t)) ∧
    (h.ending = false) ∧
    (t + s.flt.replayMs.toNat * 1000000 ≤ s.now) := by decide

theorem test_wit_ContextsAreResetHangsAreScannedAndReplayed_reset :
  let s : State := (fun (s : State) => { s with ctxs := [(0, { (Ctx.fresh 0 none 0) with flt := .faulted, psn := true })] }) ({ wQueue with flt := { Flt.reset with parts := [(0, Part.fresh)]  } })
  let ctx : Nat := 0
  let tee : Bool := false
  let x : Ctx := { (Ctx.fresh 0 none 0) with flt := .faulted, psn := true }
  let p : Part := Part.fresh
  (ctx < 1024) ∧
    (HostMay s .devFlt tee) ∧
    (s.ctx? ctx = some x) ∧
    (s.part? x.part = some p) ∧
    (p.st ≠ .quench) ∧
    (p.st ≠ .hang) ∧
    ((s.schPart x.part).opening = none) := by decide

theorem test_wit_ContextsAreResetHangsAreScannedAndReplayed_scan :
  let s : State := (fun (s : State) => { s with time := { s.time with now := 1000000 } }) ({ wQueue with flt := { Flt.reset with parts := [(0, Part.fresh)] , ended := [.tile 0] } })
  (s.recurs .scan = true) ∧
    (s.computeOn = true) ∧
    ((s.flt.scan.filter fun c => cycleStands s.edges c && !(c.any fun v => s.flt.ended.contains v)) = []) ∧
    ((s.flt.parts.all fun e => e.2.hang.isNone) = true) := by decide

theorem test_wit_ContextsAreResetHangsAreScannedAndReplayed_replay :
  let s : State := (fun (s : State) => { s with ctxs := [(0, { (Ctx.fresh 0 none 0) with flt := .suspect }), (1, { (Ctx.fresh 0 none 0) with flt := .held })], time := { s.time with now := 1000000000 } }) ({ wQueue with flt := { Flt.reset with parts := [(0, { Part.fresh with st := .hang, hang := some ⟨[1], [0, 1], some (0, 0), [], false⟩ })]  } })
  let part : Nat := 0
  let c : Nat := 0
  let d : Nat := 1
  let t : Nat := 0
  let x : Part := { Part.fresh with st := .hang, hang := some ⟨[1], [0, 1], some (0, 0), [], false⟩ }
  let h : HangRun := ⟨[1], [0, 1], some (0, 0), [], false⟩
  let y : Ctx := { (Ctx.fresh 0 none 0) with flt := .suspect }
  let rest : List Nat := []
  (part < 1024) ∧
    (s.part? part = some x) ∧
    (x.hang = some h) ∧
    (h.cur = some (c, t)) ∧
    (h.ending = false) ∧
    (t + s.flt.replayMs.toNat * 1000000 ≤ s.now) ∧
    (s.ctx? c = some y) ∧
    (y.flt = .suspect) ∧
    (h.todo = d :: rest) ∧
    (d ≠ c) ∧
    (s.suspectStays d = true) := by decide

theorem test_wit_HealthIsKeptAndTilesFallDue_2 :
  let s : State := wQueue
  let ptile : W16 := 0x7C7F
  let tee : Bool := false
  (HostMay s .devFlt tee) := by decide

theorem test_wit_HealthIsKeptAndTilesFallDue_4 :
  let s : State := wQueue
  let die : Nat := 7
  let c : Instr := .timingMarginDaily 7
  let r : Recur := .timing 7
  ((c, r) ∈ [(Instr.healthDecay, Recur.decay), (.timingMarginDaily die, .timing die), (.hangScan, .scan), (.rateWindowEnd, .rate), (.quantWindowEnd true, .slow), (.quantWindowEnd false, .quick)]) ∧
    (s.recurs r = false) := by decide

theorem test_wit_HealthIsKeptAndTilesFallDue_push :
  let s : State := { wFab with tiles := [(5, { Tile.reset with cpState := .waiting, wait := some .port })], flt := { wFab.flt with waitAt := [(5, 0)] }, time := { wFab.time with now := 50000000 } }
  let l : Nat := 5
  let since : Nat := 0
  let t : Tile := { Tile.reset with cpState := .waiting, wait := some .port }
  (s.pushSince l = some since) ∧
    (since + s.flt.remoteMs.toNat * 1000000 ≤ s.now) ∧
    (s.tile l = t) ∧
    (t.ctx = none) := by decide

theorem test_wit_HealthIsKeptAndTilesFallDue_remote :
  let s : State := { wFab with fab := { wFab.fab with txns := [(5, ⟨2, 0, 0, .piece 0 0, 0⟩)] }, time := { wFab.time with now := 50000000 } }
  let seq : Nat := 5
  let id : Nat := 0
  let k : Nat := 0
  let t : Txn := ⟨2, 0, 0, .piece 0 0, 0⟩
  let x : Ctx := Ctx.fresh 0 none 0
  (SMap.get? s.fab.txns seq = some t) ∧
    (t.who = .piece id k) ∧
    (t.since + s.flt.remoteMs.toNat * 1000000 ≤ s.now) ∧
    (s.ctx? t.ctx = some x) := by decide

theorem test_wit_HealthIsKeptAndTilesFallDue_retire :
  let s : State := wQueue
  let ptile : W16 := 0x7C7F
  let tee : Bool := false
  (HostMay s .devFlt tee) ∧
    (ptileOk ptile.toNat = true) ∧
    (s.isRetired ptile.toNat = false) ∧
    (s.isDue ptile.toNat = false) ∧
    ((ptile.toNat % 4096 / 64 < 50 ∨ (s.logOf ptile.toNat).isSome = true)) := by decide

theorem test_wit_HealthIsKeptAndTilesFallDue_decay :
  let s : State := { wFab with flt := { Flt.reset with health := [(3, { Health.reset with score := 4096, warned := true })] }, time := { wFab.time with now := 3600000000000 } }
  (s.recurs .decay = true) ∧
    (SMap.wf s.flt.health = true) ∧
    (SMap.wf s.fab.ports = true) := by decide

theorem test_wit_HealthIsKeptAndTilesFallDue_timing :
  let s : State := (fun (s : State) => { s with brm := [(28672, ⟨4900, 0, 4900, 1, true, true⟩)], hrt := { s.hrt with dieMv := [(7, 720)], sensors := [(56, ⟨true, 1040⟩)] }, time := { s.time with now := 86400000000000 } }) wQueue
  let die : Nat := 7
  (die < 8) ∧
    (s.recurs (.timing die) = true) ∧
    (s.dieMv die = 720) ∧
    (s.tbin die = 13) := by decide

theorem test_wit_HealthIsKeptAndTilesFallDue_drift :
  let s : State := (fun (s : State) => { s with brm := [(28672, ⟨4900, 0, 4900, 1, true, true⟩)], hrt := { s.hrt with dieMv := [(7, 720)], sensors := [(56, ⟨true, 1040⟩)] }, time := { s.time with now := 86400000000000 } }) wQueue
  let die : Nat := 7
  let p : Nat := 28672
  (die < 8) ∧
    (s.recurs (.timing die) = true) ∧
    (s.dieMv die = 720) ∧
    (s.tbin die = 13) ∧
    (s.counted die = [p]) := by decide

theorem test_wit_HealthIsKeptAndTilesFallDue_11 :
  let s : State := wQueue
  let die : Nat := 0
  (die < 8) ∧
    ((s.dieMv die ≠ 720 ∨ s.tbin die ≠ 13)) := by decide

theorem test_wit_HealthIsKeptAndTilesFallDue_optical :
  let s : State := { wFab with fab := { wFab.fab with ports := [(47, { Port.reset with cwNow := 1000001 })] }, time := { wFab.time with now := 1000000000 } }
  let port : Nat := 47
  let ms : List (BitVec 8) := [14, 15, 15, 15, 15]
  (portOk port = true) ∧
    (ms.length = 5) ∧
    (s.recurs (.optical port) = true) := by decide

theorem test_wit_HealthIsKeptAndTilesFallDue_13 :
  let s : State := wFab
  let port : Nat := 47
  let ms : List (BitVec 8) := [14, 15, 15, 15, 15]
  (portOk port = true) ∧
    (ms.length = 5) ∧
    (s.recurs (.optical port) = false) := by decide

theorem test_wit_TheOwnersCommandsTakeEffect_1 :
  let s : State := wSec .ownedIdle
  let r : GReq := wReq 1 97 0
  let c : Instr := .claim (wReq 1 97 0)
  let cmd : Nat := 1
  let len : Nat := 97
  let role : GRole := .bodyKey
  let sts : List SecSt := [.unowned]
  ((c, cmd, len, role, sts) ∈ [(Instr.claim r, 0x01, 97, GRole.bodyKey, [SecSt.unowned]), (.releaseOwner r, 0x02, 0, .owner, [.ownedIdle]), (.setOwnerFabric r, 0x03, 32, .owner, [.ownedIdle, .tenanted]),
      (.enrolTenant r, 0x04, 105, .owner, [.ownedIdle]), (.installGlove r, 0x05, 161, .tenant, [.tenanted]), (.rotateFabric r, 0x06, 32, .tenant, [.tenanted]),
      (.grantHost r, 0x07, 4, .tenant, [.tenanted]), (.handover r, 0x08, 0, .either, [.tenanted]), (.enterMaint r, 0x09, 0, .owner, [.ownedIdle]),
      (.debugUnlock r, 0x0A, 96, .token, [.maintenance]), (.exitMaint r, 0x0B, 0, .owner, [.maintenance]), (.setMaintKey r, 0x0C, 97, .owner, [.ownedIdle])]) ∧
    (s.hrt.ready = true) ∧
    (fld r.word 0 8 = cmd) ∧
    (fld r.word 8 4 = 1) ∧
    (fld r.word 12 20 = 0) ∧
    (r.body.length = len) ∧
    ((cmd = 7 → leNat r.body ≤ 1)) ∧
    ((s.gRole r role = false ∨ s.sec.st ∉ sts)) := by decide

theorem test_wit_TheOwnersCommandsTakeEffect_1_2 :
  let s : State := wSec .handover
  let r : GReq := wReq 8 0 1
  let c : Instr := .handover (wReq 8 0 1)
  let cmd : Nat := 8
  let len : Nat := 0
  let role : GRole := .either
  let sts : List SecSt := [.tenanted]
  ((c, cmd, len, role, sts) ∈ [(Instr.claim r, 0x01, 97, GRole.bodyKey, [SecSt.unowned]), (.releaseOwner r, 0x02, 0, .owner, [.ownedIdle]), (.setOwnerFabric r, 0x03, 32, .owner, [.ownedIdle, .tenanted]),
      (.enrolTenant r, 0x04, 105, .owner, [.ownedIdle]), (.installGlove r, 0x05, 161, .tenant, [.tenanted]), (.rotateFabric r, 0x06, 32, .tenant, [.tenanted]),
      (.grantHost r, 0x07, 4, .tenant, [.tenanted]), (.handover r, 0x08, 0, .either, [.tenanted]), (.enterMaint r, 0x09, 0, .owner, [.ownedIdle]),
      (.debugUnlock r, 0x0A, 96, .token, [.maintenance]), (.exitMaint r, 0x0B, 0, .owner, [.maintenance]), (.setMaintKey r, 0x0C, 97, .owner, [.ownedIdle])]) ∧
    (s.hrt.ready = true) ∧
    (fld r.word 0 8 = cmd) ∧
    (fld r.word 8 4 = 1) ∧
    (fld r.word 12 20 = 0) ∧
    (r.body.length = len) ∧
    ((cmd = 7 → leNat r.body ≤ 1)) ∧
    ((s.gRole r role = false ∨ s.sec.st ∉ sts)) := by decide

theorem test_wit_TheOwnersCommandsTakeEffect_claim :
  let s : State := (fun (s : State) => { s with sec := { s.sec with sessions := [(0, ⟨some (List.replicate 97 0), 8, false⟩)] } }) (wSec .unowned)
  let r : GReq := wReq 1 97 0
  (GauntletMay s r 0x01 97 .bodyKey [.unowned]) := by decide

theorem test_wit_TheOwnersCommandsTakeEffect_release :
  let s : State := wSec .ownedIdle
  let r : GReq := wReq 2 0 0
  (GauntletMay s r 0x02 0 .owner [.ownedIdle]) := by decide

theorem test_wit_TheOwnersCommandsTakeEffect_fabric :
  let s : State := wSec .ownedIdle
  let r : GReq := wReq 3 32 0
  (GauntletMay s r 0x03 32 .owner [.ownedIdle, .tenanted]) := by decide

theorem test_wit_TheOwnersCommandsTakeEffect_fabric_2 :
  let s : State := wSec .tenanted
  let r : GReq := wReq 3 32 0
  (GauntletMay s r 0x03 32 .owner [.ownedIdle, .tenanted]) := by decide

theorem test_wit_TheOwnersCommandsTakeEffect_maintkey :
  let s : State := wSec .ownedIdle
  let r : GReq := wReq 12 97 0
  (GauntletMay s r 0x0C 97 .owner [.ownedIdle]) := by decide

theorem test_wit_TheOwnersCommandsTakeEffect_maint :
  let s : State := wSec .ownedIdle
  let r : GReq := wReq 9 0 0
  (GauntletMay s r 0x09 0 .owner [.ownedIdle]) := by decide

theorem test_wit_TheOwnersCommandsTakeEffect_debug :
  let s : State := wSec .maintenance
  let r : GReq := wReq 10 96 5
  (GauntletMay s r 0x0A 96 .token [.maintenance]) := by decide

theorem test_wit_TheOwnersCommandsTakeEffect_8 :
  let s : State := wSec .maintenance
  let r : GReq := wReq 11 0 0
  (GauntletMay s r 0x0B 0 .owner [.maintenance]) := by decide

theorem test_wit_TheOwnersCommandsTakeEffect_exit :
  let s : State := wSec .maintenance
  let r : GReq := wReq 11 0 0
  (GauntletMay s r 0x0B 0 .owner [.maintenance]) ∧
    (s.sec.failedUnits = []) ∧
    (s.computeOn = true) := by decide

theorem test_wit_TheTenantsCommandsTakeEffect_enrol :
  let s : State := wSec .ownedIdle
  let r : GReq := wReq 4 105 0
  (GauntletMay s r 0x04 105 .owner [.ownedIdle]) := by decide

theorem test_wit_TheTenantsCommandsTakeEffect_glove :
  let s : State := wSec .tenanted
  let r : GReq := wReq 5 161 1
  (GauntletMay s r 0x05 161 .tenant [.tenanted]) := by decide

theorem test_wit_TheTenantsCommandsTakeEffect_3 :
  let s : State := wSec .tenanted
  let r : GReq := wReq 6 32 1
  let y : Session := ⟨some [2], 9, false⟩
  (GauntletMay s r 0x06 32 .tenant [.tenanted]) ∧
    (s.session? r.sess = some y) ∧
    (s.lockHeldBy (keyLock y.eid) = none) := by decide

theorem test_wit_TheTenantsCommandsTakeEffect_4 :
  let s : State := (fun (s : State) => { s with hrt := { s.hrt with locks := [⟨3, 9, actKey, 0, 0⟩] } }) (wSec .tenanted)
  let r : GReq := wReq 6 32 1
  let y : Session := ⟨some [2], 9, false⟩
  let h : Lock := ⟨3, 9, actKey, 0, 0⟩
  (GauntletMay s r 0x06 32 .tenant [.tenanted]) ∧
    (s.session? r.sess = some y) ∧
    (s.lockHeldBy (keyLock y.eid) = some h) := by decide

theorem test_wit_TheTenantsCommandsTakeEffect_rotate :
  let s : State := wSec .tenanted
  let r : GReq := wReq 6 32 1
  (GauntletMay s r 0x06 32 .tenant [.tenanted]) ∧
    (s.hrt.locks = []) := by decide

theorem test_wit_TheTenantsCommandsTakeEffect_grant :
  let s : State := wSec .tenanted
  let r : GReq := ⟨0x107, [1, 0, 0, 0], some 1⟩
  (GauntletMay s r 0x07 4 .tenant [.tenanted]) ∧
    (leNat r.body ≤ 1) := by decide

theorem test_wit_TheTenantsCommandsTakeEffect_8 :
  let s : State := (fun (s : State) => { s with hrt := { s.hrt with locks := [⟨1, 0, actFw, 0, 0⟩] } }) (wSec .tenanted)
  let r : GReq := wReq 8 0 1
  let h : Lock := ⟨1, 0, actFw, 0, 0⟩
  (GauntletMay s r 0x08 0 .either [.tenanted]) ∧
    ((s.hrt.locks.find? fun l => l.act = actFw) = some h) := by decide

theorem test_wit_TheTenantsCommandsTakeEffect_9 :
  let s : State := wSec .tenanted
  let r : GReq := wReq 8 0 1
  (GauntletMay s r 0x08 0 .either [.tenanted]) ∧
    ((s.hrt.locks.any fun l => l.act = actFw) = false) := by decide

theorem test_wit_TheTenantsCommandsTakeEffect_handover :
  let s : State := wSec .tenanted
  let r : GReq := wReq 8 0 1
  (GauntletMay s r 0x08 0 .either [.tenanted]) ∧
    ((s.hrt.locks.any fun l => l.act = actFw) = false) := by decide

theorem test_wit_TheTenantsCommandsTakeEffect_11 :
  let s : State := (fun (s : State) => { s with sec := { s.sec with hand := some (1, 0) } }) (wSec .handover)
  let fs : List (Nat × List (Nat × Nat)) := [(9, [(2, 0)])]
  (Instr.wf (.handoverComplete fs) = true) := by decide

theorem test_wit_TheTenantsCommandsTakeEffect_handed :
  let s : State := (fun (s : State) => { s with sec := { s.sec with hand := some (1, 0) } }) (wSec .handover)
  let fs : List (Nat × List (Nat × Nat)) := []
  let c : Nat := 1
  let t : Nat := 0
  ((fs.all fun i => 1 ≤ i.1 && i.1 ≤ 9) = true) ∧
    (s.sec.st = .handover) ∧
    (s.sec.hand = some (c, t)) ∧
    (s.hrt.ready = true) ∧
    (s.handoverMay = true) := by decide

theorem test_wit_TheTenantsCommandsTakeEffect_handed_2 :
  let s : State := (fun (s : State) => { s with sec := { s.sec with hand := some (1, 0) } }) (wSec .handover)
  let fs : List (Nat × List (Nat × Nat)) := [(9, [(2, 0)])]
  let c : Nat := 1
  let t : Nat := 0
  ((fs.all fun i => 1 ≤ i.1 && i.1 ≤ 9) = true) ∧
    (s.sec.st = .handover) ∧
    (s.sec.hand = some (c, t)) ∧
    (s.hrt.ready = true) ∧
    (s.handoverMay = true) := by decide

theorem test_wit_SessionsIdeAndTelemetry_session :
  let s : State := wSec .tenanted
  let key : Option (List Byte) := none
  let eid : Nat := 9
  let sb : Bool := true
  (eid < 1024) ∧
    (s.hrt.ready = true) ∧
    (s.sec.sessions.length < 4) := by decide

theorem test_wit_SessionsIdeAndTelemetry_2 :
  let s : State := (fun (s : State) => { s with sec := { s.sec with sessions := [(0, ⟨none, 1, true⟩), (1, ⟨none, 1, true⟩), (2, ⟨none, 1, true⟩), (3, ⟨none, 1, true⟩)] } }) (wSec .tenanted)
  let key : Option (List Byte) := none
  let eid : Nat := 9
  let sb : Bool := true
  (eid < 1024) ∧
    (s.hrt.ready = true) ∧
    (4 ≤ s.sec.sessions.length) := by decide

theorem test_wit_SessionsIdeAndTelemetry_3 :
  let s : State := wSec .tenanted
  let sess : Option Nat := some 1
  let n : Nat := 1
  (s.hrt.ready = true) ∧
    (((s.session? sess).isSome = false ∨ n ≠ 0)) := by decide

theorem test_wit_SessionsIdeAndTelemetry_3_2 :
  let s : State := wSec .tenanted
  let sess : Option Nat := none
  let n : Nat := 0
  (s.hrt.ready = true) ∧
    (((s.session? sess).isSome = false ∨ n ≠ 0)) := by decide

theorem test_wit_SessionsIdeAndTelemetry_4 :
  let s : State := wSec .tenanted
  let sess : Option Nat := some 1
  let c : Instr := .lockInterface (some 1)
  let cmd : Nat := 0x106
  (s.hrt.ready = true) ∧
    ((c, cmd) ∈ [(Instr.lockInterface sess, 0x106), (.startInterface sess, 0x107), (.stopInterface sess, 0x108)]) ∧
    (((s.session? sess).isSome = false ∨ cmd = 0x106 ∧ ¬ (s.sec.st = .tenanted ∧ s.sec.ideSecure = true ∧ s.sec.tdi = .unlocked) ∨ cmd = 0x107 ∧ s.sec.tdi ≠ .locked)) := by decide

theorem test_wit_SessionsIdeAndTelemetry_5 :
  let s : State := State.reset
  let slow : Bool := true
  (s.hrt.ready = false) := by decide

theorem test_wit_SessionsIdeAndTelemetry_measure :
  let s : State := wSec .tenanted
  let sess : Option Nat := some 1
  (s.hrt.ready = true) := by decide

theorem test_wit_SessionsIdeAndTelemetry_ide :
  let s : State := wSec .tenanted
  let sess : Option Nat := some 1
  (s.hrt.ready = true) ∧
    ((s.session? sess).isSome = true) := by decide

theorem test_wit_SessionsIdeAndTelemetry_lock :
  let s : State := (fun (s : State) => { s with sec := { s.sec with ideSecure := true } }) (wSec .tenanted)
  let sess : Option Nat := some 1
  (s.hrt.ready = true) ∧
    ((s.session? sess).isSome = true) ∧
    (s.sec.st = .tenanted) ∧
    (s.sec.ideSecure = true) ∧
    (s.sec.tdi = .unlocked) := by decide

theorem test_wit_SessionsIdeAndTelemetry_start :
  let s : State := (fun (s : State) => { s with sec := { s.sec with tdi := .locked } }) (wSec .tenanted)
  let sess : Option Nat := some 1
  (s.hrt.ready = true) ∧
    ((s.session? sess).isSome = true) ∧
    (s.sec.tdi = .locked) := by decide

theorem test_wit_SessionsIdeAndTelemetry_stop :
  let s : State := (fun (s : State) => { s with sec := { s.sec with tdi := .error } }) (wSec .tenanted)
  let sess : Option Nat := some 1
  (s.hrt.ready = true) ∧
    ((s.session? sess).isSome = true) := by decide

theorem test_wit_SessionsIdeAndTelemetry_dropped :
  let s : State := (fun (s : State) => { s with sec := { s.sec with ideSecure := true, tdi := .run }, hif := { s.hif with bar4 := [⟨true, 0, 0, 0, 5, 0, [], [], none, some 3, .ok⟩] } }) (wSec .tenanted)
  (s.sec.ideSecure = true) ∧
    (s.hif.bar4 ≠ []) ∧
    ((s.sec.tdi = .locked ∨ s.sec.tdi = .run)) := by decide

theorem test_wit_SessionsIdeAndTelemetry_fail :
  let s : State := (fun (s : State) => { s with sec := { s.sec with ideSecure := true, tdi := .run } }) (wSec .tenanted)
  (s.sec.ideSecure = true) ∧
    ((s.hif.bar4 = [] ∨ s.sec.tdi = .unlocked ∨ s.sec.tdi = .error)) := by decide

theorem test_wit_SessionsIdeAndTelemetry_fail_2 :
  let s : State := (fun (s : State) => { s with sec := { s.sec with ideSecure := true } }) (wSec .tenanted)
  (s.sec.ideSecure = true) ∧
    ((s.hif.bar4 = [] ∨ s.sec.tdi = .unlocked ∨ s.sec.tdi = .error)) := by decide

theorem test_wit_SessionsIdeAndTelemetry_13 :
  let s : State := (fun (s : State) => { s with hrt := { s.hrt with quant := []  }, time := { s.time with now := 1000000000 } }) (wSec .tenanted)
  (s.hrt.ready = true) ∧
    (s.recurs .slow = true) := by decide

theorem test_wit_SessionsIdeAndTelemetry_power :
  let s : State := (fun (s : State) => { s with hrt := { s.hrt with quant := [] , sums := [(7, 5, 3), (200, 3950, 2)] }, time := { s.time with now := 1000000000 } }) (wSec .tenanted)
  let m : Int × Nat := (3950, 2)
  (s.hrt.ready = true) ∧
    (s.recurs .quick = true) ∧
    ((s.hrt.sums.filter fun e => e.1 = 200) = [(200, m)]) := by decide

theorem test_wit_SessionsIdeAndTelemetry_quant :
  let s : State := (fun (s : State) => { s with hrt := { s.hrt with quant := [] , capLow := [(7, 4999)], sums := [(63, -17, 1)] }, time := { s.time with now := 1000000000 } }) (wSec .tenanted)
  let n : Nat := 63
  let m : Int × Nat := (-17, 1)
  (s.hrt.ready = true) ∧
    (s.recurs .slow = true) ∧
    (n ≠ 200) ∧
    ((n < 300 ∨ 308 ≤ n)) ∧
    (s.hrt.sums = [(n, m)]) ∧
    (SMap.wf s.hrt.capLow = true) ∧
    ((s.hrt.capLow.all fun e => decide (e.1 < 8)) = true) := by decide

theorem test_wit_SessionsIdeAndTelemetry_quant_2 :
  let s : State := (fun (s : State) => { s with hrt := { s.hrt with quant := [] , sums := [(96, 1439, 2)] }, time := { s.time with now := 1000000000 } }) (wSec .tenanted)
  let n : Nat := 96
  let m : Int × Nat := (1439, 2)
  (s.hrt.ready = true) ∧
    (s.recurs .slow = true) ∧
    (n ≠ 200) ∧
    ((n < 300 ∨ 308 ≤ n)) ∧
    (s.hrt.sums = [(n, m)]) ∧
    (SMap.wf s.hrt.capLow = true) ∧
    ((s.hrt.capLow.all fun e => decide (e.1 < 8)) = true) := by decide

theorem test_wit_SessionsIdeAndTelemetry_cap :
  let s : State := (fun (s : State) => { s with hrt := { s.hrt with quant := [] , capLow := [(7, 4999)] }, time := { s.time with now := 1000000000 } }) (wSec .tenanted)
  let d : Nat := 7
  let v : W16 := 4999
  (s.hrt.ready = true) ∧
    (s.recurs .slow = true) ∧
    (d < 8) ∧
    (s.hrt.capLow = [(d, v)]) ∧
    (s.hrt.sums = []) := by decide

theorem test_wit_TheHearthRestartsAndUpdates_1 :
  let s : State := wSec .ownedIdle
  (s.hrt.ready = true) := by decide

theorem test_wit_TheHearthRestartsAndUpdates_2 :
  let s : State := wSec .ownedIdle
  ((match s.hrt.restart with | .activation _ => false | _ => true) = true) := by decide

theorem test_wit_TheHearthRestartsAndUpdates_2_2 :
  let s : State := { State.reset with hrt := { Hrt.reset with imageA := ⟨2, 3, [], false⟩, imageB := ⟨2, 3, [], false⟩ } }
  ((match s.hrt.restart with | .activation _ => false | _ => true) = true) := by decide

theorem test_wit_TheHearthRestartsAndUpdates_fallbackslot :
  let s : State := { State.reset with hrt := { Hrt.reset with imageA := ⟨2, 3, [], false⟩ } }
  (s.hrt.restart = .power) ∧
    (s.hrt.image.valid = false) ∧
    (s.hrt.other.valid = true) := by decide

theorem test_wit_TheHearthRestartsAndUpdates_error :
  let s : State := wSec .ownedIdle
  (s.hrt.ready = true) := by decide

theorem test_wit_TheHearthRestartsAndUpdates_done :
  let s : State := (fun (s : State) => { s with hrt := { s.hrt with ready := false, restart := .lockstep } }) (wSec .ownedIdle)
  ((s.hrt.restart = .lockstep ∨ s.hrt.restart = .power ∧ s.hrt.image.valid = true)) := by decide

theorem test_wit_TheHearthRestartsAndUpdates_done_2 :
  let s : State := State.reset
  ((s.hrt.restart = .lockstep ∨ s.hrt.restart = .power ∧ s.hrt.image.valid = true)) := by decide

theorem test_wit_TheHearthRestartsAndUpdates_6 :
  let s : State := (fun (s : State) => { s with hrt := { s.hrt with ready := false, restart := .activation 0 } }) (wSec .ownedIdle)
  let t : Nat := 0
  (s.hrt.restart = .activation t) ∧
    (s.now < t + 2000000000) := by decide

theorem test_wit_TheHearthRestartsAndUpdates_active :
  let s : State := (fun (s : State) => { s with hrt := { s.hrt with ready := false, restart := .activation 0 } }) (wSec .ownedIdle)
  let t : Nat := 0
  (s.hrt.restart = .activation t) ∧
    (s.now < t + 2000000000) := by decide

theorem test_wit_TheHearthRestartsAndUpdates_fallback :
  let s : State := (fun (s : State) => { s with hrt := { s.hrt with ready := false, restart := .activation 0 }, time := { s.time with now := 2000000000 } }) (wSec .ownedIdle)
  let t : Nat := 0
  (s.hrt.restart = .activation t) ∧
    (t + 2000000000 ≤ s.now) := by decide

theorem test_wit_TheHearthRestartsAndUpdates_svn :
  let s : State := (fun (s : State) => { s with hrt := { s.hrt with imageA := ⟨2, 3, [], true⟩ }, time := { s.time with now := 3600000000000 } }) (wSec .ownedIdle)
  (s.hrt.ready = true) ∧
    (s.hrt.upSince + 3600000000000 ≤ s.now) ∧
    (s.hrt.fuseSvn.ult s.hrt.image.svn = true) := by decide

theorem test_wit_TheHearthRestartsAndUpdates_update :
  let s : State := wSec .ownedIdle
  let sess : Option Nat := some 0
  let img : FwOffer := ⟨2, 3, [7], [8]⟩
  ((s.hrt.ready = true ∨ s.hrt.restart = .power ∧ s.hrt.noImage = true)) ∧
    (s.fwOpen sess = true) := by decide

theorem test_wit_TheHearthRestartsAndUpdates_update_2 :
  let s : State := { State.reset with hrt := { Hrt.reset with imageA := ⟨2, 3, [], false⟩, imageB := ⟨2, 3, [], false⟩ } }
  let sess : Option Nat := none
  let img : FwOffer := ⟨2, 3, [7], [8]⟩
  ((s.hrt.ready = true ∨ s.hrt.restart = .power ∧ s.hrt.noImage = true)) ∧
    (s.fwOpen sess = true) := by decide

theorem test_wit_TheHearthRestartsAndUpdates_11 :
  let s : State := wSec .ownedIdle
  let sess : Option Nat := none
  let img : FwOffer := ⟨2, 3, [7], [8]⟩
  (s.hrt.ready = true) ∧
    (s.fwOpen sess = false) := by decide

theorem test_wit_TheHearthRestartsAndUpdates_12 :
  let s : State := wSec .ownedIdle
  let sess : Option Nat := none
  (s.hrt.ready = true) ∧
    ((s.fwOpen sess = false ∨ s.sec.st = .handover ∨ s.hrt.other.valid = false)) := by decide

theorem test_wit_TheHearthRestartsAndUpdates_12_2 :
  let s : State := (fun (s : State) => { s with hrt := { s.hrt with imageB := ⟨2, 3, [], false⟩ } }) (wSec .ownedIdle)
  let sess : Option Nat := some 0
  (s.hrt.ready = true) ∧
    ((s.fwOpen sess = false ∨ s.sec.st = .handover ∨ s.hrt.other.valid = false)) := by decide

theorem test_wit_TheHearthRestartsAndUpdates_13 :
  let s : State := (fun (s : State) => { s with hrt := { s.hrt with imageB := ⟨2, 3, [], true⟩, locks := [⟨1, 0, 5, 7, 0⟩] } }) (wSec .ownedIdle)
  let sess : Option Nat := some 0
  (s.hrt.ready = true) ∧
    (s.fwOpen sess = true) ∧
    (s.sec.st ≠ .handover) ∧
    (s.hrt.other.valid = true) ∧
    (s.hrt.locks ≠ []) ∧
    (s.hrt.locks.length < 65) := by decide

theorem test_wit_TheHearthRestartsAndUpdates_activate :
  let s : State := (fun (s : State) => { s with hrt := { s.hrt with imageB := ⟨2, 3, [], true⟩ } }) (wSec .ownedIdle)
  let sess : Option Nat := some 0
  (s.hrt.ready = true) ∧
    (s.fwOpen sess = true) ∧
    (s.sec.st ≠ .handover) ∧
    (s.hrt.other.valid = true) ∧
    (s.hrt.locks = []) := by decide

theorem test_wit_TheHearthRestartsAndUpdates_15 :
  let s : State := wSec .ownedIdle
  let sess : Option Nat := some 0
  let w : Nat := 6501
  (s.hrt.ready = true) ∧
    ((s.isOwner sess = false ∨ w < 1000 ∨ 6500 < w)) := by decide

theorem test_wit_TheHearthRestartsAndUpdates_limit :
  let s : State := wSec .ownedIdle
  let sess : Option Nat := some 0
  let w : Nat := 1000
  (s.hrt.ready = true) ∧
    (s.isOwner sess = true) ∧
    (1000 ≤ w) ∧
    (w ≤ 6500) := by decide

theorem test_wit_TheHearthRestartsAndUpdates_limit_2 :
  let s : State := wSec .ownedIdle
  let sess : Option Nat := some 0
  let w : Nat := 6500
  (s.hrt.ready = true) ∧
    (s.isOwner sess = true) ∧
    (1000 ≤ w) ∧
    (w ≤ 6500) := by decide

theorem test_wit_EventsAreStagedCommittedAndRead_1 :
  let s : State := wSec .ownedIdle
  let e : EvRec := ⟨0x0501, 2, 0, 0, 0⟩
  (e.skind < 13) ∧
    (e.sidx < 2 ^ 28) := by decide

theorem test_wit_EventsAreStagedCommittedAndRead_stage :
  let s : State := wSec .ownedIdle
  let e : EvRec := ⟨0x0501, 2, 0, 0, 0⟩
  (e.skind < 13) ∧
    (e.sidx < 2 ^ 28) ∧
    (s.hrt.ready = true) ∧
    ((evInfo e.code).2 = 3) ∧
    (s.hrt.coalMs ≠ 0) ∧
    ((s.hrt.staging.any fun x => x.ev = e) = false) := by decide

theorem test_wit_EventsAreStagedCommittedAndRead_count :
  let s : State := (fun (s : State) => { s with hrt := { s.hrt with staging := [⟨⟨0x0501, 2, 0, 0, 0⟩, 0, 4095, 9⟩] } }) (wSec .ownedIdle)
  let e : EvRec := ⟨0x0501, 2, 0, 0, 0⟩
  let x : Staging := ⟨⟨0x0501, 2, 0, 0, 0⟩, 0, 4095, 9⟩
  let rest : List Staging := []
  (e.skind < 13) ∧
    (e.sidx < 2 ^ 28) ∧
    (s.hrt.ready = true) ∧
    (s.hrt.staging = x :: rest) ∧
    (x.ev = e) := by decide

theorem test_wit_EventsAreStagedCommittedAndRead_4 :
  let s : State := (fun (s : State) => { s with hrt := { s.hrt with staging := [⟨⟨0x0501, 2, 0, 0, 0⟩, 0, 2, 0⟩] } }) (wSec .ownedIdle)
  let i : Nat := 0
  let x : Staging := ⟨⟨0x0501, 2, 0, 0, 0⟩, 0, 2, 0⟩
  (s.hrt.staging[i]? = some x) ∧
    (s.hrt.ready = true) ∧
    (x.due ≤ s.now) := by decide

theorem test_wit_EventsAreStagedCommittedAndRead_expire :
  let s : State := (fun (s : State) => { s with hrt := { s.hrt with staging := [⟨⟨0x0501, 2, 0, 0, 0⟩, 0, 2, 0⟩] } }) (wSec .ownedIdle)
  let i : Nat := 0
  let x : Staging := ⟨⟨0x0501, 2, 0, 0, 0⟩, 0, 2, 0⟩
  (s.hrt.staging[i]? = some x) ∧
    (s.hrt.ready = true) ∧
    (x.due ≤ s.now) ∧
    (s.hrt.ring.length < ringCap) := by decide

theorem test_wit_EventsAreStagedCommittedAndRead_rate :
  let s : State := (fun (s : State) => { s with hrt := { s.hrt with buckets := [((1, 7), ⟨0, 0, 3⟩)] }, time := { s.time with now := 1000000000 } }) (wSec .ownedIdle)
  (s.hrt.ready = true) ∧
    (s.recurs .rate = true) := by decide

theorem test_wit_EventsAreStagedCommittedAndRead_7 :
  let s : State := (fun (s : State) => { s with hrt := { s.hrt with logDrop := some (0, [1, 0, 0, 2]), coalMs := 0 }, time := { s.time with now := 1000000000 } }) (wSec .ownedIdle)
  let t : Nat := 0
  let cs : List Nat := [1, 0, 0, 2]
  (s.hrt.ready = true) ∧
    (s.hrt.logDrop = some (t, cs)) ∧
    (t + 1000000000 ≤ s.now) := by decide

theorem test_wit_EventsAreStagedCommittedAndRead_drop :
  let s : State := (fun (s : State) => { s with hrt := { s.hrt with logDrop := some (0, [1, 0, 0, 2]), coalMs := 0 }, time := { s.time with now := 1000000000 } }) (wSec .ownedIdle)
  let t : Nat := 0
  let cs : List Nat := [1, 0, 0, 2]
  (s.hrt.ready = true) ∧
    (s.hrt.logDrop = some (t, cs)) ∧
    (t + 1000000000 ≤ s.now) ∧
    (s.hrt.ring.length + 1 < ringCap) := by decide

theorem test_wit_EventsAreStagedCommittedAndRead_9 :
  let s : State := wSec .ownedIdle
  let v : W32 := 1
  let tee : Bool := false
  (HostMay s .hrt tee) := by decide

theorem test_wit_EventsAreStagedCommittedAndRead_head :
  let s : State := (fun (s : State) => { s with hrt := { s.hrt with hlogHead := 0xFFFFFFFF, hlogTail := 1 } }) (wSec .ownedIdle)
  let v : W32 := 1
  let tee : Bool := false
  (HostMay s .hrt tee) ∧
    ((v - s.hrt.hlogHead).toNat ≤ (s.hrt.hlogTail - s.hrt.hlogHead).toNat) := by decide

theorem test_wit_EventsAreStagedCommittedAndRead_write :
  let s : State := (fun (s : State) => { s with hrt := { s.hrt with hlogEn := true, hlogQueue := [⟨⟨0x0501, 2, 0, 0, 0⟩, 0, 0, 3, 0, 1⟩], hlogTail := 15 } }) (wSec .ownedIdle)
  let r : LogRec := ⟨⟨0x0501, 2, 0, 0, 0⟩, 0, 0, 3, 0, 1⟩
  let rest : List LogRec := []
  (s.hrt.hlogQueue = r :: rest) ∧
    (s.hrt.ready = true) ∧
    (s.hrt.hlogEn = true) ∧
    (s.computeOn = true) ∧
    (s.t3Denied = false) ∧
    ((s.hrt.hlogTail - s.hrt.hlogHead).toNat < 2 ^ s.hrt.hrsz) := by decide

theorem test_wit_LocksTestsAndSweeps_1 :
  let s : State := wSec .ownedIdle
  let act : Nat := 7
  let scope : W16 := 47
  let tee : Bool := false
  (act < 8) ∧
    (HostMay s .hrt tee) := by decide

theorem test_wit_LocksTestsAndSweeps_2 :
  let s : State := wSec .ownedIdle
  let act : Nat := 7
  let scope : W16 := 47
  let tee : Bool := false
  (act < 8) ∧
    (HostMay s .hrt tee) := by decide

theorem test_wit_LocksTestsAndSweeps_3 :
  let s : State := wSec .ownedIdle
  let d : Nat := 7
  (d < 8) ∧
    (s.hrt.ready = true) := by decide

theorem test_wit_LocksTestsAndSweeps_4 :
  let s : State := wSec .ownedIdle
  let kind : Nat := 9
  let idx : Nat := 5
  let tee : Bool := false
  let pre : Bool := true
  (kind < 16) ∧
    (idx < 65536) ∧
    (HostMay s .bist tee) := by decide

theorem test_wit_LocksTestsAndSweeps_5 :
  let s : State := wSec .ownedIdle
  let kind : Nat := 3
  let idx : Nat := 48
  let eid : Nat := 9
  let pre : Bool := true
  (kind < 16) ∧
    (idx < 65536) := by decide

theorem test_wit_LocksTestsAndSweeps_6 :
  let s : State := wSec .ownedIdle
  let kind : Nat := 3
  let idx : Nat := 0
  let pass : Bool := false
  (kind < 16) ∧
    (idx < 65536) ∧
    (s.hrt.ready = true) := by decide

theorem test_wit_LocksTestsAndSweeps_take :
  let s : State := wSec .ownedIdle
  let act : Nat := 5
  let scope : W16 := 47
  let tee : Bool := false
  (act < 8) ∧
    (HostMay s .hrt tee) ∧
    (lockScopeOk act scope.toNat = true) ∧
    (s.lockHeldBy ⟨1, 0, act, scope.toNat, 0⟩ = none) ∧
    ((act = actSweep → s.dieBusy scope.toNat = false)) := by decide

theorem test_wit_LocksTestsAndSweeps_take_2 :
  let s : State := (fun (s : State) => { s with load := { s.load with prects := [] } }) (wSec .ownedIdle)
  let act : Nat := 1
  let scope : W16 := 7
  let tee : Bool := false
  (act < 8) ∧
    (HostMay s .hrt tee) ∧
    (lockScopeOk act scope.toNat = true) ∧
    (s.lockHeldBy ⟨1, 0, act, scope.toNat, 0⟩ = none) ∧
    ((act = actSweep → s.dieBusy scope.toNat = false)) := by decide

theorem test_wit_LocksTestsAndSweeps_release :
  let s : State := (fun (s : State) => { s with hrt := { s.hrt with locks := [⟨1, 0, 6, 7, 0⟩] } }) (wSec .ownedIdle)
  let act : Nat := 6
  let scope : W16 := 7
  let tee : Bool := false
  (act < 8) ∧
    (HostMay s .hrt tee) ∧
    (lockScopeOk act scope.toNat = true) ∧
    (s.hrt.locks.contains ⟨1, 0, act, scope.toNat, 0⟩ = true) ∧
    ((act = actSweep → (s.hrt.sweeps.any fun (x : Sweep) => x.die = scope.toNat) = true)) := by decide

theorem test_wit_LocksTestsAndSweeps_release_2 :
  let s : State := (fun (s : State) => { s with hrt := { s.hrt with locks := [⟨1, 0, 1, 7, 0⟩], sweeps := [⟨7, 770, 720, 0⟩] } }) (wSec .ownedIdle)
  let act : Nat := 1
  let scope : W16 := 7
  let tee : Bool := false
  (act < 8) ∧
    (HostMay s .hrt tee) ∧
    (lockScopeOk act scope.toNat = true) ∧
    (s.hrt.locks.contains ⟨1, 0, act, scope.toNat, 0⟩ = true) ∧
    ((act = actSweep → (s.hrt.sweeps.any fun (x : Sweep) => x.die = scope.toNat) = true)) := by decide

theorem test_wit_LocksTestsAndSweeps_sweep :
  let s : State := (fun (s : State) => { s with hrt := { s.hrt with sweeps := [⟨7, 640, 720, 0⟩] }, time := { s.time with now := 10000000 } }) (wSec .ownedIdle)
  let d : Nat := 7
  let w : Sweep := ⟨7, 640, 720, 0⟩
  (d < 8) ∧
    (s.hrt.ready = true) ∧
    ((s.hrt.sweeps.find? fun (x : Sweep) => x.die = d) = some w) ∧
    (w.since + 10000000 ≤ s.now) ∧
    (s.dieFast d = false) ∧
    (w.mv < 780) := by decide

theorem test_wit_LocksTestsAndSweeps_slow :
  let s : State := (fun (s : State) => { s with hrt := { s.hrt with sweeps := [⟨7, 780, 720, 0⟩] }, time := { s.time with now := 10000000 } }) (wSec .ownedIdle)
  let d : Nat := 7
  let w : Sweep := ⟨7, 780, 720, 0⟩
  (d < 8) ∧
    (s.hrt.ready = true) ∧
    ((s.hrt.sweeps.find? fun (x : Sweep) => x.die = d) = some w) ∧
    (w.since + 10000000 ≤ s.now) ∧
    (s.dieFast d = false) ∧
    (780 ≤ w.mv) := by decide

theorem test_wit_LocksTestsAndSweeps_host :
  let s : State := (fun (s : State) => { s with hrt := { s.hrt with dieMv := [(0, 720)] } }) (wSec .ownedIdle)
  let kind : Nat := 0
  let idx : Nat := 5
  let tee : Bool := false
  (kind < 6) ∧
    (idx < 65536) ∧
    (s.bistOpen kind idx = true) ∧
    (bistUnitOk kind idx = true) ∧
    (s.bistReady kind idx = true) ∧
    (HostMay s .bist tee) ∧
    (s.lockHeldBy ⟨1, 0, actBist, idx, kind⟩ = none) := by decide

theorem test_wit_LocksTestsAndSweeps_host_2 :
  let s : State := wSec .ownedIdle
  let kind : Nat := 5
  let idx : Nat := 0
  let tee : Bool := false
  (kind < 6) ∧
    (idx < 65536) ∧
    (s.bistOpen kind idx = true) ∧
    (bistUnitOk kind idx = true) ∧
    (s.bistReady kind idx = true) ∧
    (HostMay s .bist tee) ∧
    (s.lockHeldBy ⟨1, 0, actBist, idx, kind⟩ = none) := by decide

theorem test_wit_LocksTestsAndSweeps_mctp :
  let s : State := wSec .ownedIdle
  let kind : Nat := 3
  let idx : Nat := 47
  let eid : Nat := 9
  (kind < 6) ∧
    (idx < 65536) ∧
    (s.bistOpen kind idx = true) ∧
    (bistUnitOk kind idx = true) ∧
    (s.bistReady kind idx = true) ∧
    (s.hrt.ready = true) ∧
    (s.lockHeldBy ⟨4, eid, actBist, idx, kind⟩ = none) := by decide

theorem test_wit_LocksTestsAndSweeps_end :
  let s : State := (fun (s : State) => { s with hrt := { s.hrt with bists := [⟨3, 0, true, 0⟩], bistStat := .abandoned }, time := { s.time with now := 1100000000 } }) (wSec .ownedIdle)
  let kind : Nat := 3
  let idx : Nat := 0
  let b : BistRun := ⟨3, 0, true, 0⟩
  (kind < 16) ∧
    (idx < 65536) ∧
    (s.hrt.ready = true) ∧
    ((s.hrt.bists.find? fun b => b.kind = kind && b.idx = idx) = some b) ∧
    (b.since + bistNs kind ≤ s.now) ∧
    ((kind = 3 → s.pwr.lasersOk.contains (idx / 6) = true)) := by decide

theorem test_wit_MonitorsSensorsAndTheBellows_window :
  let s : State := { wSec .ownedIdle with time := { RefTime.reset with now := 4096 } }
  let w : BrmWindow := ⟨[(5000, 9), (4916, 1), (5000, 0), (5000, 0), (5000, 0), (5000, 0), (5000, 0), (6000, 7)], [(28672, 4000, 3)]⟩
  let d : Nat := 7
  let p : Nat := 28672
  (w.dies.length = 8) ∧
    ((w.tiles.all fun x => ptileOk x.1) = true) ∧
    (s.time.window < s.now / 4096) ∧
    (d ∈ s.liveDies) ∧
    (physDie p = d) := by decide +kernel

theorem test_wit_MonitorsSensorsAndTheBellows_window_2 :
  let s : State := { wSec .ownedIdle with time := { RefTime.reset with now := 4096 } }
  let w : BrmWindow := ⟨[(5000, 9), (4916, 1), (5000, 0), (5000, 0), (5000, 0), (5000, 0), (5000, 0), (6000, 7)], [(28672, 4000, 3)]⟩
  let d : Nat := 7
  let p : Nat := 28673
  (w.dies.length = 8) ∧
    ((w.tiles.all fun x => ptileOk x.1) = true) ∧
    (s.time.window < s.now / 4096) ∧
    (d ∈ s.liveDies) ∧
    (physDie p = d) := by decide +kernel

theorem test_wit_MonitorsSensorsAndTheBellows_window_3 :
  let s : State := { wSec .ownedIdle with brm := [(5, ⟨9, 9, 9, 9, true, true⟩)], time := { RefTime.reset with now := 4096 } }
  let w : BrmWindow := ⟨[(5000, 9), (4916, 1), (5000, 0), (5000, 0), (5000, 0), (5000, 0), (5000, 0), (6000, 7)], [(28672, 4000, 3)]⟩
  let d : Nat := 0
  let p : Nat := 5
  (w.dies.length = 8) ∧
    ((w.tiles.all fun x => ptileOk x.1) = true) ∧
    (s.time.window < s.now / 4096) ∧
    (d ∈ s.liveDies) ∧
    (physDie p = d) := by decide +kernel

theorem test_wit_MonitorsSensorsAndTheBellows_clear :
  let s : State := { wSec .ownedIdle with brmDie := [(0, ⟨9, 9, 9, 9, true, true⟩)] }
  let p : Nat := 5
  let tee : Bool := false
  (ptileOk p = true) ∧
    (HostMay s .brm tee) := by decide +kernel

theorem test_wit_MonitorsSensorsAndTheBellows_sensors :
  let s : State := wSec .ownedIdle
  let vs : List (Nat × W16) := [(136, 0x7FF), (133, 39999)]
  ((vs.all fun x => sensorOk x.1) = true) ∧
    (s.hrt.ready = true) := by decide +kernel

theorem test_wit_MonitorsSensorsAndTheBellows_seen :
  let s : State := (fun (s : State) => { s with hrt := { s.hrt with seen := 7, alarm := 1 } }) (wSec .ownedIdle)
  let w : W32 := 3
  let tee : Bool := false
  (HostMay s .hrt tee) := by decide +kernel

theorem test_wit_MonitorsSensorsAndTheBellows_bellows :
  let s : State := (fun (s : State) => { s with hrt := { s.hrt with dieMv := [(0, 685), (7, 780)] }, time := { s.time with now := 100000 } }) (wSec .ownedIdle)
  let b : BellowsTick := ⟨[-10, 0, 0, 0, 0, 0, 0, 10], 900⟩
  let d : Nat := 0
  (b.deltas.length = 8) ∧
    ((b.deltas.all fun x => decide (-10 ≤ x) && decide (x ≤ 10)) = true) ∧
    (s.time.bellows < s.now / 100000) ∧
    (s.hrt.ready = true) ∧
    (d < 8) ∧
    (s.dieMv d ≠ 0) ∧
    ((s.hrt.sweeps.any fun (x : Sweep) => x.die = d) = false) := by decide +kernel

theorem test_wit_MonitorsSensorsAndTheBellows_bellows_2 :
  let s : State := (fun (s : State) => { s with hrt := { s.hrt with dieMv := [(0, 685), (7, 780)] }, time := { s.time with now := 100000 } }) (wSec .ownedIdle)
  let b : BellowsTick := ⟨[-10, 0, 0, 0, 0, 0, 0, 10], 900⟩
  let d : Nat := 7
  (b.deltas.length = 8) ∧
    ((b.deltas.all fun x => decide (-10 ≤ x) && decide (x ≤ 10)) = true) ∧
    (s.time.bellows < s.now / 100000) ∧
    (s.hrt.ready = true) ∧
    (d < 8) ∧
    (s.dieMv d ≠ 0) ∧
    ((s.hrt.sweeps.any fun (x : Sweep) => x.die = d) = false) := by decide +kernel

theorem test_wit_HostAccessesReachTheBlock_1 :
  let s : State := wQueue
  let r : Nat := 1
  let tee : Bool := false
  (r < 256) ∧
    (HostMay s .hif tee) := by decide

theorem test_wit_HostAccessesReachTheBlock_1_2 :
  let s : State := { wQueue with load := Load.reset }
  let r : Nat := 0
  let tee : Bool := false
  (r < 256) ∧
    (HostMay s .hif tee) := by decide

theorem test_wit_HostAccessesReachTheBlock_2 :
  let s : State := wQueue
  let v : W32 := 25600
  let tee : Bool := false
  (HostMay s .dev tee) := by decide

theorem test_wit_HostAccessesReachTheBlock_2_2 :
  let s : State := wQueue
  let v : W32 := 0x8000
  let tee : Bool := false
  (HostMay s .dev tee) := by decide

theorem test_wit_HostAccessesReachTheBlock_3 :
  let s : State := wQueue
  let vec : Nat := 2047
  let tee : Bool := false
  (vec < 2048) ∧
    (HostMay s .hif tee) := by decide

theorem test_wit_HostAccessesReachTheBlock_4 :
  let s : State := wQueue
  let bar : Nat := 0
  let o : Nat := 0xC02000
  let mask : Nat := 0
  let item : RegItem := .devFlt
  let v : W32 := 0
  let tee : Bool := false
  let pre : Bool := false
  (bar < 2) ∧
    (regAt bar o = some (item, mask)) ∧
    ((Instr.registerWrite ⟨decide (bar = 1), o, 4, 15, v.setWidth 64, tee, pre⟩).wf = true) ∧
    (HostMay s item tee) := by decide

theorem test_wit_HostAccessesReachTheBlock_4_2 :
  let s : State := wQueue
  let bar : Nat := 1
  let o : Nat := 0x18
  let mask : Nat := 0xFF800000
  let item : RegItem := .queue
  let v : W32 := 5
  let tee : Bool := false
  let pre : Bool := false
  (bar < 2) ∧
    (regAt bar o = some (item, mask)) ∧
    ((Instr.registerWrite ⟨decide (bar = 1), o, 4, 15, v.setWidth 64, tee, pre⟩).wf = true) ∧
    (HostMay s item tee) := by decide

theorem test_wit_HostAccessesReachTheBlock_5 :
  let s : State := wQueue
  let a : HostAcc := ⟨false, 3, 2, 1, 7, false, false⟩
  ((Instr.registerWrite a).wf = true) := by decide

theorem test_wit_HostAccessesReachTheBlock_5_2 :
  let s : State := wQueue
  let a : HostAcc := ⟨true, 0x10, 8, 255, 0x1000, false, false⟩
  ((Instr.registerWrite a).wf = true) := by decide

theorem test_wit_HostAccessesReachTheBlock_abi :
  let s : State := { wQueue with load := Load.reset }
  let r : Nat := 1
  let tee : Bool := false
  (r < 256) ∧
    (HostMay s .hif tee) ∧
    (s.load.program = false) ∧
    (r ≠ 0) := by decide

theorem test_wit_HostAccessesReachTheBlock_abi_2 :
  let s : State := { wQueue with load := Load.reset }
  let r : Nat := 255
  let tee : Bool := false
  (r < 256) ∧
    (HostMay s .hif tee) ∧
    (s.load.program = false) ∧
    (r ≠ 0) := by decide

theorem test_wit_HostAccessesReachTheBlock_wide :
  let s : State := wQueue
  let v : W64 := 0x123456789000
  let tee : Bool := false
  let pre : Bool := false
  (HostMay s .dev tee) ∧
    (s.load.st = .idle) ∧
    (fld v 0 12 = 0) := by decide

theorem test_wit_HostAccessesReachTheBlock_word :
  let s : State := wQueue
  let v : W32 := 0xFFFFF000
  let tee : Bool := false
  let pre : Bool := false
  (HostMay s .dev tee) ∧
    (s.load.st = .idle) ∧
    (fld v 0 12 = 0) := by decide

theorem test_wit_HostAccessesReachTheBlock_remap :
  let s : State := wQueue
  let v : W32 := 25599
  let tee : Bool := false
  (HostMay s .dev tee) ∧
    (tileOk v.toNat = true) := by decide

theorem test_wit_HostAccessesReachTheBlock_unmask :
  let s : State := (fun (s : State) => { s with hif := { s.hif with msixEn := true, pba := [2047] } }) wQueue
  let vec : Nat := 2047
  let tee : Bool := false
  (vec < 2048) ∧
    (HostMay s .hif tee) := by decide

theorem test_wit_HostAccessesReachTheBlock_11 :
  let s : State := (fun (s : State) => { s with sec := { s.sec with tdi := .run } }) wQueue
  let l : Nat := 41
  (30 ≤ l) ∧
    (l ≤ 41) ∧
    (s.hif.linkUp = true) ∧
    (s.pwr.dom = .on) := by decide

theorem test_wit_HostAccessesReachTheBlock_12 :
  let s : State := wQueue
  let o : Nat := 0xFFC
  let v : W32 := 4
  (o < 4096) ∧
    (o % 4 = 0) ∧
    (s.hif.linkUp = true) ∧
    (s.pwr.dom = .on) := by decide

theorem test_wit_HostAccessesReachTheBlock_13 :
  let s : State := wQueue
  let off : Nat := 0
  let n : Nat := 5
  let tee : Bool := false
  let e : OpRes := .tier 1 []
  (bar4Ok off n = true) := by decide

theorem test_wit_HostAccessesReachTheBlock_14 :
  let s : State := wQueue
  let off : Nat := 8
  let bs : List (Option Byte) := [some 1, none]
  let tee : Bool := false
  let e : OpRes := .path 0 []
  (bar4Ok off bs.length = true) := by decide

theorem test_wit_HostAccessesReachTheBlock_resize :
  let s : State := wQueue
  let l : Nat := 30
  (30 ≤ l) ∧
    (l ≤ 41) ∧
    (s.hif.linkUp = true) ∧
    (s.pwr.dom = .on) ∧
    (s.cfgLocked = false) ∧
    (winFits s.hif.winBase l = true) := by decide

theorem test_wit_HostAccessesReachTheBlock_resize_2 :
  let s : State := wQueue
  let l : Nat := 41
  (30 ≤ l) ∧
    (l ≤ 41) ∧
    (s.hif.linkUp = true) ∧
    (s.pwr.dom = .on) ∧
    (s.cfgLocked = false) ∧
    (winFits s.hif.winBase l = true) := by decide

theorem test_wit_HostAccessesReachTheBlock_config :
  let s : State := wQueue
  let o : Nat := 4
  let v : W32 := 4
  (o < 4096) ∧
    (o % 4 = 0) ∧
    (s.hif.linkUp = true) ∧
    (s.pwr.dom = .on) ∧
    ((s.cfgLocked = false ∨ Config.tdispLocks o = false)) := by decide

theorem test_wit_HostAccessesReachTheBlock_read :
  let s : State := { wQueue with hif := { wQueue.hif with winEn := true, winBase := 0x20000000000 }, mem := { wQueue.mem with objs := [(5, ⟨0, 2, 0, false, false, false, false, 0x100000, 1⟩)], pages := [(pageKey 5 0, ⟨some (.t2 6), none, 9, [(3, 7)], []⟩)] } }
  let t : State := (State.winRead ({ wQueue with hif := { wQueue.hif with winEn := true, winBase := 0x20000000000 }, mem := { wQueue.mem with objs := [(5, ⟨0, 2, 0, false, false, false, false, 0x100000, 1⟩)], pages := [(pageKey 5 0, ⟨some (.t2 6), none, 9, [(3, 7)], []⟩)] } }) ⟨false, true, .job⟩ 0 0x20000000000 5).1
  let off : Nat := 0
  let n : Nat := 5
  let tee : Bool := false
  let bs : List Byte := [0, 0, 0, 7, 0]
  (s.barShut tee = false) ∧
    (s.hif.winEn = true) ∧
    (s.sec.st = .tenanted) ∧
    ((s.ctx? s.hif.winCtx).isSome = true) ∧
    (off + n ≤ 2 ^ s.hif.log2) ∧
    (1 ≤ n) ∧
    (n ≤ 4096) ∧
    (off + n ≤ 2 ^ 41) ∧
    ((s.hif.winBase + off) % pageSize + n ≤ pageSize) ∧
    ((localRange (s.hif.winBase + off) = .t1 ∨ localRange (s.hif.winBase + off) = .t2)) ∧
    (s.winRead ⟨false, true, .job⟩ s.hif.winCtx (s.hif.winBase + off) n = (t, .got bs [])) := by decide

theorem test_wit_HostAccessesReachTheBlock_write :
  let s : State := { wQueue with hif := { wQueue.hif with winEn := true, winBase := 0x20000000000 }, mem := { wQueue.mem with objs := [(5, ⟨0, 2, 0, false, false, false, false, 0x100000, 1⟩)], pages := [(pageKey 5 0, ⟨some (.t2 6), none, 9, [(3, 7)], []⟩)] } }
  let t : State := (State.winWrite ({ wQueue with hif := { wQueue.hif with winEn := true, winBase := 0x20000000000 }, mem := { wQueue.mem with objs := [(5, ⟨0, 2, 0, false, false, false, false, 0x100000, 1⟩)], pages := [(pageKey 5 0, ⟨some (.t2 6), none, 9, [(3, 7)], []⟩)] } }) ⟨false, false, .job⟩ 0 0x20000000008 [1, 2] []).1
  let off : Nat := 8
  let tee : Bool := false
  let bs : List Byte := [1, 2]
  (s.barShut tee = false) ∧
    (s.hif.winEn = true) ∧
    (s.sec.st = .tenanted) ∧
    ((s.ctx? s.hif.winCtx).isSome = true) ∧
    (off + bs.length ≤ 2 ^ s.hif.log2) ∧
    (1 ≤ bs.length) ∧
    (bs.length ≤ 4096) ∧
    (off + bs.length ≤ 2 ^ 41) ∧
    ((s.hif.winBase + off) % pageSize + bs.length ≤ pageSize) ∧
    ((localRange (s.hif.winBase + off) = .t1 ∨ localRange (s.hif.winBase + off) = .t2)) ∧
    (s.winWrite ⟨false, false, .job⟩ s.hif.winCtx (s.hif.winBase + off) bs [] = (t, .done)) := by decide

theorem test_wit_HostReadsComplete_1 :
  let s : State := { wQueue with descs := [(0, ⟨.queue 0 0, ⟨0, 1, 2, 0, 0, 0, 0, 0⟩, .move ⟨1, 2, 2, 0x100, 0x200, 32, 1, 0, 0, 0, 0⟩ ⟨0, 0, 1, 0, 0, [(0, ⟨0, 0, 0, 32, 0, .reading (.t3 5)⟩)], 1, false, 0, false⟩, .running, .ok, 0, false, none, false, none, none, none⟩)], hif := { wQueue.hif with t3 := [(5, ⟨some (0, 0), 0x100, 32, 0⟩)] } , time := { wQueue.time with now := 50000000 } }
  let tag : Nat := 5
  let x : T3Read := ⟨some (0, 0), 0x100, 32, 0⟩
  let e : T3Res := .unsupported
  (SMap.get? s.hif.t3 tag = some x) ∧
    ((s.hif.linkUp = false ∨ x.since + s.hif.cplTmo ≤ s.now)) := by decide

theorem test_wit_HostReadsComplete_2 :
  let s : State := { wQueue with descs := [(0, ⟨.queue 0 0, ⟨0, 1, 2, 0, 0, 0, 0, 0⟩, .move ⟨1, 2, 2, 0x100, 0x200, 32, 1, 0, 0, 0, 0⟩ ⟨0, 0, 1, 0, 0, [(0, ⟨0, 0, 0, 32, 0, .reading (.t3 5)⟩)], 1, false, 0, false⟩, .running, .ok, 0, false, none, false, none, none, none⟩)], hif := { wQueue.hif with t3 := [(5, ⟨some (0, 0), 0x100, 32, 0⟩)] }  }
  let tag : Nat := 5
  let x : T3Read := ⟨some (0, 0), 0x100, 32, 0⟩
  let e : T3Res := .poisoned (List.replicate 32 3)
  (SMap.get? s.hif.t3 tag = some x) ∧
    (s.hif.linkUp = true) ∧
    (s.now < x.since + s.hif.cplTmo) := by decide

theorem test_wit_HostReadsComplete_2_2 :
  let s : State := { wQueue with descs := [(0, ⟨.queue 0 0, ⟨0, 1, 2, 0, 0, 0, 0, 0⟩, .move ⟨1, 2, 2, 0x100, 0x200, 32, 1, 0, 0, 0, 0⟩ ⟨0, 0, 1, 0, 0, [(0, ⟨0, 0, 0, 32, 0, .reading (.t3 5)⟩)], 1, false, 0, false⟩, .running, .ok, 0, false, none, false, none, none, none⟩)], hif := { wQueue.hif with t3 := [(5, ⟨some (0, 0), 0x100, 32, 0⟩)] }  }
  let tag : Nat := 5
  let x : T3Read := ⟨some (0, 0), 0x100, 32, 0⟩
  let e : T3Res := .unsupported
  (SMap.get? s.hif.t3 tag = some x) ∧
    (s.hif.linkUp = true) ∧
    (s.now < x.since + s.hif.cplTmo) := by decide

theorem test_wit_HostReadsComplete_3 :
  let s : State := { wQueue with descs := [(0, ⟨.queue 0 0, ⟨0, 1, 2, 0, 0, 0, 0, 0⟩, .move ⟨1, 2, 2, 0x100, 0x200, 32, 1, 0, 0, 0, 0⟩ ⟨0, 0, 1, 0, 0, [(0, ⟨0, 0, 0, 32, 0, .reading (.t3 5)⟩)], 1, false, 0, false⟩, .running, .ok, 0, false, none, false, none, none, none⟩)], hif := { wQueue.hif with t3 := [(5, ⟨some (0, 0), 0x100, 32, 0⟩)] } , time := { wQueue.time with now := 50000000 } }
  let tag : Nat := 5
  let x : T3Read := ⟨some (0, 0), 0x100, 32, 0⟩
  (SMap.get? s.hif.t3 tag = some x) ∧
    (x.since + s.hif.cplTmo ≤ s.now) := by decide

theorem test_wit_HostReadsComplete_4 :
  let s : State := wQueue
  let tag : Nat := 5
  let c : Instr := .t3CompletionTimeout 5
  let e : T3Res := .unsupported
  (SMap.get? s.hif.t3 tag = none) ∧
    (c = .t3CompletionTimeout tag ∨ c = .t3ReadCompletion tag e) := by decide

theorem test_wit_HostReadsComplete_5 :
  let s : State := (fun (s : State) => { s with hif := { s.hif with linkUp := false } }) wQueue
  let rate : Nat := 1
  let width : Nat := 4
  let flit : Bool := false
  (1 ≤ rate) ∧
    (rate ≤ 6) ∧
    (([1, 2, 4, 8, 16].contains width) = true) ∧
    (s.hif.linkUp = false) ∧
    (s.pwr.dom = .on) := by decide

theorem test_wit_HostReadsComplete_6 :
  let s : State := (fun (s : State) => { s with hif := { s.hif with linkUp := false, downSince := some 0 }, time := { s.time with now := 100000001 } }) wQueue
  let t : Nat := 0
  (s.hif.downSince = some t) ∧
    (s.hif.linkUp = false) ∧
    (t + 100000000 < s.now) := by decide

theorem test_wit_HostReadsComplete_8 :
  let s : State := wQueue
  (s.hif.linkUp = true) := by decide

theorem test_wit_HostReadsComplete_data :
  let s : State := { wQueue with descs := [(0, ⟨.queue 0 0, ⟨0, 1, 2, 0, 0, 0, 0, 0⟩, .move ⟨1, 2, 2, 0x100, 0x200, 32, 1, 0, 0, 0, 0⟩ ⟨0, 0, 1, 0, 0, [(0, ⟨0, 0, 0, 32, 0, .reading (.t3 5)⟩)], 1, false, 0, false⟩, .running, .ok, 0, false, none, false, none, none, none⟩)], hif := { wQueue.hif with t3 := [(5, ⟨some (0, 0), 0x100, 32, 0⟩)] }  }
  let tag : Nat := 5
  let id : Nat := 0
  let k : Nat := 0
  let x : T3Read := ⟨some (0, 0), 0x100, 32, 0⟩
  let d : Desc := ⟨.queue 0 0, ⟨0, 1, 2, 0, 0, 0, 0, 0⟩, .move ⟨1, 2, 2, 0x100, 0x200, 32, 1, 0, 0, 0, 0⟩ ⟨0, 0, 1, 0, 0, [(0, ⟨0, 0, 0, 32, 0, .reading (.t3 5)⟩)], 1, false, 0, false⟩, .running, .ok, 0, false, none, false, none, none, none⟩
  let b : MoveBody := ⟨1, 2, 2, 0x100, 0x200, 32, 1, 0, 0, 0, 0⟩
  let r : MoveRun := ⟨0, 0, 1, 0, 0, [(0, ⟨0, 0, 0, 32, 0, .reading (.t3 5)⟩)], 1, false, 0, false⟩
  let bs : List Byte := List.replicate 32 3
  (SMap.get? s.hif.t3 tag = some x) ∧
    (x.who = some (id, k)) ∧
    (s.t3Piece id k tag = true) ∧
    (s.desc? id = some d) ∧
    (d.body = .move b r) ∧
    (s.fab.served = []) ∧
    (s.hif.bar4 = []) ∧
    (s.hif.linkUp = true) ∧
    (s.now < x.since + s.hif.cplTmo) ∧
    (s.t3Denied = false) ∧
    (bs.length = x.n) ∧
    (r.stop = false) := by decide

theorem test_wit_HostReadsComplete_late :
  let s : State := { wQueue with descs := [(0, ⟨.queue 0 0, ⟨0, 1, 2, 0, 0, 0, 0, 0⟩, .move ⟨1, 2, 2, 0x100, 0x200, 32, 1, 0, 0, 0, 0⟩ ⟨0, 0, 1, 0, 0, [(0, ⟨0, 0, 0, 32, 0, .reading (.t3 5)⟩)], 1, false, 0, false⟩, .running, .ok, 0, false, none, false, none, none, none⟩)], hif := { wQueue.hif with t3 := [(5, ⟨some (0, 0), 0x100, 32, 0⟩)] } , time := { wQueue.time with now := 50000000 } }
  let tag : Nat := 5
  let id : Nat := 0
  let k : Nat := 0
  let x : T3Read := ⟨some (0, 0), 0x100, 32, 0⟩
  let d : Desc := ⟨.queue 0 0, ⟨0, 1, 2, 0, 0, 0, 0, 0⟩, .move ⟨1, 2, 2, 0x100, 0x200, 32, 1, 0, 0, 0, 0⟩ ⟨0, 0, 1, 0, 0, [(0, ⟨0, 0, 0, 32, 0, .reading (.t3 5)⟩)], 1, false, 0, false⟩, .running, .ok, 0, false, none, false, none, none, none⟩
  let b : MoveBody := ⟨1, 2, 2, 0x100, 0x200, 32, 1, 0, 0, 0, 0⟩
  let r : MoveRun := ⟨0, 0, 1, 0, 0, [(0, ⟨0, 0, 0, 32, 0, .reading (.t3 5)⟩)], 1, false, 0, false⟩
  (SMap.get? s.hif.t3 tag = some x) ∧
    (x.who = some (id, k)) ∧
    (s.t3Piece id k tag = true) ∧
    (s.desc? id = some d) ∧
    (d.body = .move b r) ∧
    (s.fab.served = []) ∧
    (s.hif.bar4 = []) ∧
    (x.since + s.hif.cplTmo ≤ s.now) := by decide

theorem test_wit_HostReadsComplete_down :
  let s : State := wQueue
  (s.hif.linkUp = true) := by decide

theorem test_wit_HostReadsComplete_up :
  let s : State := (fun (s : State) => { s with hif := { s.hif with linkUp := false, msixEn := true, pba := [7], msix := [(31, 0)], held := [.t3Read 5 0x100 32] } }) wQueue
  let rate : Nat := 6
  let width : Nat := 16
  let flit : Bool := true
  (1 ≤ rate) ∧
    (rate ≤ 6) ∧
    (([1, 2, 4, 8, 16].contains width) = true) ∧
    (s.hif.linkUp = false) ∧
    (s.pwr.dom = .on) ∧
    (s.fab.served = []) ∧
    (s.hif.bar4 = []) := by decide

theorem test_wit_HostReadsComplete_timeout :
  let s : State := (fun (s : State) => { s with hif := { s.hif with linkUp := false, downSince := some 0 }, time := { s.time with now := 100000001 } }) wQueue
  let t : Nat := 0
  (s.hif.downSince = some t) ∧
    (s.hif.linkUp = false) ∧
    (t + 100000000 < s.now) ∧
    (s.computeOn = true) := by decide

theorem test_wit_HostReadsComplete_hot :
  let s : State := wQueue
  (s.computeOn = true) := by decide

theorem test_wit_HostReadsComplete_flr :
  let s : State := wQueue
  (s.computeOn = true) ∧
    (s.hif.linkUp = true) := by decide

theorem test_wit_DiesAreResetAndTheDevice_1 :
  let s : State := wQueue
  let die : Nat := 0
  (die < 8) := by decide

theorem test_wit_DiesAreResetAndTheDevice_2 :
  let s : State := wQueue
  let die : Nat := 3
  let tee : Bool := false
  (die < 8) ∧
    (HostMay s .dev tee) := by decide

theorem test_wit_DiesAreResetAndTheDevice_3 :
  let s : State := wQueue
  let die : Nat := 3
  let tee : Bool := false
  (die < 8) ∧
    (HostMay s .dev tee) := by decide

theorem test_wit_DiesAreResetAndTheDevice_4 :
  let s : State := wQueue
  let die : Nat := 3
  (die < 8) := by decide

theorem test_wit_DiesAreResetAndTheDevice_5 :
  let s : State := wQueue
  let die : Nat := 3
  ((s.die die).rst = none ∨ (s.die die).trip = true ∨ s.now < (s.die die).since + 20000000) ∧
    (die < 8) := by decide

theorem test_wit_DiesAreResetAndTheDevice_6 :
  let s : State := wQueue
  let tee : Bool := false
  (HostMay s .dev tee) := by decide

theorem test_wit_DiesAreResetAndTheDevice_fault :
  let s : State := wSec .ownedIdle
  let die : Nat := 7
  (die < 8) ∧
    (s.computeOn = true) ∧
    ((s.die die).rst = none) := by decide

theorem test_wit_DiesAreResetAndTheDevice_asked :
  let s : State := wQueue
  let die : Nat := 0
  let tee : Bool := false
  (die < 8) ∧
    (HostMay s .dev tee) ∧
    (s.pwr.warm = none) ∧
    ((s.die die).rst = none) := by decide

theorem test_wit_DiesAreResetAndTheDevice_back :
  let s : State := (fun (s : State) => { s with pwr := { s.pwr with dies := [(7, { Die.reset with rst := some 5 })] }, time := { s.time with now := 20000000 } }) wQueue
  let die : Nat := 7
  let src : Nat := 5
  (die < 8) ∧
    (s.computeOn = true) ∧
    ((s.die die).rst = some src) ∧
    ((s.die die).trip = false) ∧
    ((s.die die).since + 20000000 ≤ s.now) ∧
    (s.fab.served = []) ∧
    (s.hif.bar4 = []) := by decide

theorem test_wit_DiesAreResetAndTheDevice_warm :
  let s : State := wQueue
  let tee : Bool := false
  (HostMay s .dev tee) ∧
    (s.pwr.warm = none) := by decide

theorem test_wit_DiesAreResetAndTheDevice_end :
  let s : State := (fun (s : State) => { s with pwr := { s.pwr with warm := some 1 }, time := { s.time with now := 150000000 } }) wQueue
  let src : Nat := 1
  (s.pwr.warm = some src) ∧
    (s.pwr.warmSince + 150000000 ≤ s.now) ∧
    (s.fab.served = []) ∧
    (s.hif.bar4 = []) := by decide

theorem test_wit_DiesAreResetAndTheDevice_end_2 :
  let s : State := (fun (s : State) => { s with pwr := { s.pwr with warm := some 6 }, sec := { s.sec with exiting := true }, time := { s.time with now := 150000000 } }) (wSec .maintenance)
  let src : Nat := 6
  (s.pwr.warm = some src) ∧
    (s.pwr.warmSince + 150000000 ≤ s.now) ∧
    (s.fab.served = []) ∧
    (s.hif.bar4 = []) := by decide

theorem test_wit_DiesAreResetAndTheDevice_cause :
  let s : State := wQueue
  let tee : Bool := false
  (HostMay s .dev tee) := by decide

theorem test_wit_DiesParkAndWake_1 :
  let s : State := (fun (s : State) => { s with load := { s.load with prects := [] }, pwr := { s.pwr with dies := [(7, ⟨.waking, false, none, false, 0⟩)] }, time := { s.time with now := 0 } }) wQueue
  let die : Nat := 7
  let tee : Bool := false
  (die < 8) ∧
    (HostMay s .dev tee) := by decide

theorem test_wit_DiesParkAndWake_2 :
  let s : State := (fun (s : State) => { s with load := { s.load with prects := [] }, pwr := { s.pwr with dies := [(7, ⟨.entering, false, none, false, 0⟩)] }, time := { s.time with now := 0 } }) wQueue
  let die : Nat := 7
  let tee : Bool := false
  (die < 8) ∧
    (HostMay s .dev tee) := by decide

theorem test_wit_DiesParkAndWake_3 :
  let s : State := (fun (s : State) => { s with load := { s.load with prects := [] }, pwr := { s.pwr with dies := [(7, ⟨.entering, false, none, false, 0⟩)] }, time := { s.time with now := 0 } }) wQueue
  let die : Nat := 7
  let tee : Bool := false
  (die < 8) ∧
    (HostMay s .dev tee) := by decide

theorem test_wit_DiesParkAndWake_3_2 :
  let s : State := (fun (s : State) => { s with load := { s.load with prects := [] }, pwr := { s.pwr with dies := [(7, Die.reset)] }, time := { s.time with now := 0 } }) wQueue
  let die : Nat := 7
  let tee : Bool := false
  (die < 8) ∧
    (HostMay s .dev tee) := by decide

theorem test_wit_DiesParkAndWake_4 :
  let s : State := (fun (s : State) => { s with load := { s.load with prects := [] }, pwr := { s.pwr with dies := [(7, Die.reset)] }, time := { s.time with now := 0 } }) wQueue
  let die : Nat := 7
  (die < 8) ∧
    ((s.die die).park ≠ .entering) := by decide

theorem test_wit_DiesParkAndWake_5 :
  let s : State := (fun (s : State) => { s with load := { s.load with prects := [] }, pwr := { s.pwr with dies := [(7, ⟨.entering, true, none, false, 0⟩)] }, time := { s.time with now := 0 } }) wQueue
  let die : Nat := 7
  (die < 8) ∧
    ((s.die die).park = .entering) := by decide

theorem test_wit_DiesParkAndWake_6 :
  let s : State := (fun (s : State) => { s with load := { s.load with prects := [] }, pwr := { s.pwr with dies := [(7, ⟨.waking, true, none, false, 0⟩)] }, time := { s.time with now := 3000000 } }) wQueue
  let die : Nat := 7
  (die < 8) ∧
    ((s.die die).park = .waking) ∧
    ((s.die die).since + (if (s.die die).deep then 3000000 else 20000) ≤ s.now) := by decide

theorem test_wit_DiesParkAndWake_7 :
  let s : State := (fun (s : State) => { s with load := { s.load with prects := [] }, pwr := { s.pwr with dies := [(7, ⟨.waking, true, none, false, 0⟩)] }, time := { s.time with now := 2999999 } }) wQueue
  let die : Nat := 7
  (die < 8) ∧
    ((s.die die).park ≠ .waking ∨ s.now < (s.die die).since + (if (s.die die).deep then 3000000 else 20000)) := by decide

theorem test_wit_DiesParkAndWake_idle :
  let s : State := (fun (s : State) => { s with load := { s.load with prects := [] }, pwr := { s.pwr with dies := [(7, Die.reset)] }, time := { s.time with now := 0 } }) wQueue
  let die : Nat := 7
  let tee : Bool := false
  (die < 8) ∧
    (HostMay s .dev tee) ∧
    (s.parkBusy die = false) ∧
    ((s.die die).park = .run) := by decide

theorem test_wit_DiesParkAndWake_deep :
  let s : State := (fun (s : State) => { s with load := { s.load with prects := [] }, pwr := { s.pwr with dies := [(7, Die.reset)] }, time := { s.time with now := 0 } }) wQueue
  let die : Nat := 7
  let tee : Bool := false
  (die < 8) ∧
    (HostMay s .dev tee) ∧
    (s.parkBusy die = false) ∧
    ((s.die die).park = .run ∨ (s.die die).park = .idle) := by decide

theorem test_wit_DiesParkAndWake_deep_2 :
  let s : State := (fun (s : State) => { s with load := { s.load with prects := [] }, pwr := { s.pwr with dies := [(7, ⟨.idle, false, none, false, 0⟩)] }, time := { s.time with now := 0 } }) wQueue
  let die : Nat := 7
  let tee : Bool := false
  (die < 8) ∧
    (HostMay s .dev tee) ∧
    (s.parkBusy die = false) ∧
    ((s.die die).park = .run ∨ (s.die die).park = .idle) := by decide

theorem test_wit_DiesParkAndWake_entry :
  let s : State := (fun (s : State) => { s with load := { s.load with prects := [] }, pwr := { s.pwr with dies := [(7, ⟨.entering, false, none, false, 0⟩)] }, time := { s.time with now := 0 } }) wQueue
  let die : Nat := 7
  (die < 8) ∧
    ((s.die die).park = .entering) ∧
    ((s.die die).deep = false) := by decide

theorem test_wit_DiesParkAndWake_deepentry :
  let s : State := (fun (s : State) => { s with tiles := [(28672, { Tile.reset with pc := 9 })] }) ((fun (s : State) => { s with load := { s.load with prects := [] }, pwr := { s.pwr with dies := [(7, ⟨.entering, true, none, false, 0⟩)] }, time := { s.time with now := 0 } }) wQueue)
  let die : Nat := 7
  let p : Nat := 28672
  (die < 8) ∧
    ((s.die die).park = .entering) ∧
    ((s.die die).deep = true) ∧
    (physDie p = die) ∧
    (SMap.wf s.tiles = true) := by decide

theorem test_wit_DiesParkAndWake_wake :
  let s : State := (fun (s : State) => { s with load := { s.load with prects := [] }, pwr := { s.pwr with dies := [(7, ⟨.idle, false, none, false, 0⟩)] }, time := { s.time with now := 0 } }) wQueue
  let die : Nat := 7
  let tee : Bool := false
  (die < 8) ∧
    (HostMay s .dev tee) ∧
    ((s.die die).park = .idle ∨ (s.die die).park = .deep) := by decide

theorem test_wit_DiesParkAndWake_wake_2 :
  let s : State := (fun (s : State) => { s with load := { s.load with prects := [] }, pwr := { s.pwr with dies := [(7, ⟨.deep, true, none, false, 0⟩)] }, time := { s.time with now := 0 } }) wQueue
  let die : Nat := 7
  let tee : Bool := false
  (die < 8) ∧
    (HostMay s .dev tee) ∧
    ((s.die die).park = .idle ∨ (s.die die).park = .deep) := by decide

theorem test_wit_DiesParkAndWake_done :
  let s : State := (fun (s : State) => { s with load := { s.load with prects := [] }, pwr := { s.pwr with dies := [(7, ⟨.waking, false, none, false, 0⟩)] }, time := { s.time with now := 20000 } }) wQueue
  let die : Nat := 7
  (die < 8) ∧
    ((s.die die).park = .waking) ∧
    ((s.die die).since + (if (s.die die).deep then 3000000 else 20000) ≤ s.now) ∧
    (s.fab.served = []) ∧
    (s.hif.bar4 = []) := by decide

theorem test_wit_DiesParkAndWake_done_2 :
  let s : State := (fun (s : State) => { s with load := { s.load with prects := [] }, pwr := { s.pwr with dies := [(7, ⟨.waking, true, none, false, 0⟩)] }, time := { s.time with now := 3000000 } }) wQueue
  let die : Nat := 7
  (die < 8) ∧
    ((s.die die).park = .waking) ∧
    ((s.die die).since + (if (s.die die).deep then 3000000 else 20000) ≤ s.now) ∧
    (s.fab.served = []) ∧
    (s.hif.bar4 = []) := by decide

theorem test_wit_PowerGoesAndComes_1 :
  let s : State := wQueue
  let tee : Bool := false
  (HostMay s .dev tee) := by decide

theorem test_wit_PowerGoesAndComes_2 :
  let s : State := wSec .tenanted
  let who : MgmtFrom := .other
  (s.hrt.ready = true) := by decide

theorem test_wit_PowerGoesAndComes_2_2 :
  let s : State := { wSec .tenanted with pwr := { (wSec .tenanted).pwr with dom := .rising } }
  let who : MgmtFrom := .sideband
  (s.hrt.ready = true) := by decide

theorem test_wit_PowerGoesAndComes_3 :
  let s : State := wSec .tenanted
  let who : MgmtFrom := .other
  (s.hrt.ready = true) ∧
    (s.mayCompute who = false) := by decide

theorem test_wit_PowerGoesAndComes_4 :
  let s : State := wSec .tenanted
  let k : Nat := 3
  let n : Nat := 132
  (3 ≤ k) ∧
    (k ≤ 6) ∧
    (sensorOk n = true) ∧
    (s.pwr.dom ≠ .off) := by decide

theorem test_wit_PowerGoesAndComes_5 :
  let s : State := wSec .ownedIdle
  let die : Nat := 7
  let k : TripKind := .rail
  ((Instr.dieTrip die k).wf = true) ∧
    (s.pwr.dom = .on) := by decide

theorem test_wit_PowerGoesAndComes_5_2 :
  let s : State := (fun (s : State) => { s with pwr := { s.pwr with dies := [(7, { Die.reset with rst := some 1 })] } }) wQueue
  let die : Nat := 7
  let k : TripKind := .diode 63
  ((Instr.dieTrip die k).wf = true) ∧
    (s.pwr.dom = .on) := by decide

theorem test_wit_PowerGoesAndComes_6 :
  let s : State := (fun (s : State) => { s with load := { s.load with prects := [] }, pwr := { s.pwr with dies := [(7, ⟨.run, false, some 5, true, 0⟩)] }, time := { s.time with now := 20000000 } }) wQueue
  let die : Nat := 7
  (die < 8) ∧
    ((s.die die).trip = true) ∧
    (s.cooled die = true) := by decide

theorem test_wit_PowerGoesAndComes_7 :
  let s : State := { State.reset with hrt := { Hrt.reset with ready := true }, pwr := { Pwr.reset with latch := true } }
  let c : Nat := 4
  (s.hrt.ready = true) ∧
    (s.pwr.dom = .off) ∧
    (s.powerUnmet = some c) := by decide

theorem test_wit_PowerGoesAndComes_8 :
  let s : State := wQueue
  (s.pwr.dom ≠ .rising ∨ s.now < s.pwr.domSince + 64000000) := by decide

theorem test_wit_PowerGoesAndComes_standby :
  let s : State := wQueue
  let tee : Bool := false
  (HostMay s .dev tee) := by decide

theorem test_wit_PowerGoesAndComes_effecter :
  let s : State := wSec .tenanted
  let who : MgmtFrom := .session 0
  (s.hrt.ready = true) ∧
    (s.mayCompute who = true) ∧
    (s.pwr.dom = .on) := by decide

theorem test_wit_PowerGoesAndComes_effecter_2 :
  let s : State := wSec .tenanted
  let who : MgmtFrom := .sideband
  (s.hrt.ready = true) ∧
    (s.mayCompute who = true) ∧
    (s.pwr.dom = .on) := by decide

theorem test_wit_PowerGoesAndComes_on :
  let s : State := wSec .tenanted
  let who : MgmtFrom := .sideband
  (s.hrt.ready = true) ∧
    (s.mayCompute who = true) := by decide

theorem test_wit_PowerGoesAndComes_under :
  let s : State := wSec .tenanted
  (s.pwr.dom ≠ .off) := by decide

theorem test_wit_PowerGoesAndComes_cut :
  let s : State := wSec .tenanted
  (s.pwr.dom ≠ .off) := by decide

theorem test_wit_PowerGoesAndComes_trip :
  let s : State := wSec .tenanted
  let k : Nat := 6
  let n : Nat := 137
  (3 ≤ k) ∧
    (k ≤ 6) ∧
    (sensorOk n = true) ∧
    (s.pwr.dom ≠ .off) := by decide

theorem test_wit_PowerGoesAndComes_die :
  let s : State := wSec .ownedIdle
  let die : Nat := 7
  let n : Nat := 63
  (die < 8) ∧
    (n / 8 = die) ∧
    (s.computeOn = true) ∧
    ((s.die die).rst = none) := by decide

theorem test_wit_PowerGoesAndComes_16 :
  let s : State := (fun (s : State) => { s with hrt := { s.hrt with sensors := [(63, ⟨true, 1440⟩)] } }) ((fun (s : State) => { s with load := { s.load with prects := [] }, pwr := { s.pwr with dies := [(7, ⟨.run, false, some 5, true, 0⟩)] }, time := { s.time with now := 20000000 } }) wQueue)
  let die : Nat := 7
  (die < 8) ∧
    (s.cooled die = false) := by decide

theorem test_wit_PowerGoesAndComes_release :
  let s : State := (fun (s : State) => { s with load := { s.load with prects := [] }, pwr := { s.pwr with dies := [(7, ⟨.run, false, some 5, true, 0⟩)] }, time := { s.time with now := 20000000 } }) wQueue
  let die : Nat := 7
  (die < 8) ∧
    ((s.die die).trip = true) ∧
    (s.cooled die = true) ∧
    (s.fab.served = []) ∧
    (s.hif.bar4 = []) := by decide

theorem test_wit_PowerGoesAndComes_rise :
  let s : State := { State.reset with hrt := { Hrt.reset with ready := true } }
  (s.hrt.ready = true) ∧
    (s.pwr.dom = .off) ∧
    (s.powerUnmet = none) := by decide

theorem test_wit_PowerGoesAndComes_up :
  let s : State := { State.reset with pwr := { Pwr.reset with dom := .rising }, time := { RefTime.reset with now := 64000000 } }
  (s.pwr.dom = .rising) ∧
    (s.pwr.domSince + 64000000 ≤ s.now) ∧
    (s.pwr.standbyReq = none) := by decide

theorem test_wit_PowerGoesAndComes_up_2 :
  let s : State := { State.reset with pwr := { Pwr.reset with dom := .rising, powerOn := false, laserRecs := [3] }, time := { RefTime.reset with now := 64000000 } }
  (s.pwr.dom = .rising) ∧
    (s.pwr.domSince + 64000000 ≤ s.now) ∧
    (s.pwr.standbyReq = none) := by decide

theorem test_wit_PowerOnAndTheLaserUnits_2 :
  let s : State := wFab
  let d : Nat := 0
  (d < 8) ∧
    (s.pwr.lasers.contains d = true) ∧
    (s.pwr.dom = .on) := by decide

theorem test_wit_PowerOnAndTheLaserUnits_3 :
  let s : State := { wFab with pwr := { wFab.pwr with lasersOk := [] } }
  let d : Nat := 0
  (d < 8) ∧
    (s.pwr.lasers.contains d = true) ∧
    (s.pwr.lasersOk.contains d = false) := by decide

theorem test_wit_PowerOnAndTheLaserUnits_4 :
  let s : State := { wFab with pwr := { wFab.pwr with lasers := [] } }
  let d : Nat := 0
  let c : Instr := .laserUnitRemoved 0
  (d < 8) ∧
    ((c, s.pwr.lasers.contains d, s.pwr.lasersOk.contains d) ∈ [(Instr.laserUnitRemoved d, false, false), (.laserUnitRemoved d, false, true), (.laserUnitInserted d, true, true), (.laserUnitInserted d, true, false), (.laserReady d, true, true), (.laserReady d, false, false), (.laserReady d, false, true)]) := by decide

theorem test_wit_PowerOnAndTheLaserUnits_out :
  let s : State := wFab
  let d : Nat := 0
  (d < 8) ∧
    (s.pwr.lasers.contains d = true) := by decide

theorem test_wit_PowerOnAndTheLaserUnits_in :
  let s : State := { wFab with pwr := { wFab.pwr with lasers := [] } }
  let d : Nat := 7
  (d < 8) ∧
    (s.pwr.lasers.contains d = false) := by decide

theorem test_wit_PowerOnAndTheLaserUnits_ready :
  let s : State := { wFab with pwr := { wFab.pwr with lasersOk := [] } }
  let d : Nat := 7
  (d < 8) ∧
    (s.pwr.lasers.contains d = true) ∧
    (s.pwr.lasersOk.contains d = false) := by decide

theorem test_wit_EmptyQueueIdles_1 : wOn.pending = [] := by decide
theorem test_wit_EmptyQueueIdles_2 : State.reset.pwr.dom = .off := by decide
theorem test_wit_EmptyQueueIdles_3 : wOn.pwr.dom ≠ .off ∧ wOn.stages = [] ∧ wOn.sch.parts = [] ∧ wOn.fab.ports = [] ∧ wOn.fab.served = [] ∧ wOn.hif.bar4 = [] ∧ wOn.time.st = .free := by decide
theorem test_wit_SecretsStayConfined : wOn.secretsConfined = true ∧ (match step ({ wQueue with sec := { Sec.reset with st := .tenanted, tkey := some [1], memKeys := true }, pending := [.powerOnReset] } : State) with | .next u => u.secretsConfined | _ => false) = true := by decide
theorem test_wit_NothingEntersAShutInterface : (Instr.doorbellWrite 0 1 false).hostTee = some false ∧ wOn.hif.linkUp = true ∧ (({ wOn with sec := { Sec.reset with tdi := .run } } : State).sec.tdi = .run) ∧ State.reset.hif.linkUp = false ∧ State.reset.pwr.dom ≠ .on ∧ ({ wOn with sec := { Sec.reset with tdi := .error } } : State).sec.tdi = .error := by decide
theorem test_wit_CommandsRunAndKeepTheQueue_1 : (match exec .powerOnReset ({ State.reset with pending := [.cycleBoundary] } : State) with | .next u => decide (u.pending = [.cycleBoundary]) | _ => false) = true := by decide
theorem test_wit_CommandsRunAndKeepTheQueue_2 : (Instr.doorbellWrite 262144 0 false).wf = false := by decide

/-! Ill-formed commands: one for each check, which the check refuses; such a command does nothing. -/

theorem test_illformed_packetOk : (Instr.packetForward 0 ⟨[], [], []⟩).wf = false := by decide
theorem test_illformed_packet_pay : (Instr.packetForward 0 ⟨List.replicate 8 0, List.replicate 256 0, [0, 0, 0, 0]⟩).wf = false := by decide
theorem test_illformed_accOk : (Instr.registerWrite ⟨false, 0x4000000, 4, 15, 0, false, false⟩).wf = false := by decide
theorem test_illformed_accOk_bar2 : (Instr.registerWrite ⟨true, 0x1000000, 4, 15, 0, false, false⟩).wf = false := by decide
theorem test_illformed_ptileOk : (Instr.brmMinClr 3328 false).wf = false := by decide
theorem test_illformed_brmWindow : (Instr.brmWindowEnd ⟨[], []⟩).wf = false := by decide
theorem test_illformed_bellows : (Instr.bellowsTick ⟨[11, 0, 0, 0, 0, 0, 0, 0], 0⟩).wf = false := by decide
theorem test_illformed_tileOk : (Instr.ctlNop 25600).wf = false := by decide
theorem test_illformed_queueOk : (Instr.doorbellWrite 262144 0 false).wf = false := by decide
theorem test_illformed_entryBytes_short : (Instr.descNop 0 (.bytes [])).wf = false := by decide
theorem test_illformed_entryBytes_status : (Instr.descNop 0 (.failed .ok)).wf = false := by decide
theorem test_illformed_ctxOk : (Instr.stepComplete 1024).wf = false := by decide
theorem test_illformed_partOk : (Instr.autoqQuench 1024).wf = false := by decide
theorem test_illformed_stageOk : (Instr.stageArbiterDecide 256 (.failed .denied)).wf = false := by decide
theorem test_illformed_entryOk : (Instr.slotOpen 512).wf = false := by decide
theorem test_illformed_vecOk : (Instr.loadStart 2048 false false).wf = false := by decide
theorem test_illformed_dieOk : (Instr.dieFaultReset 8).wf = false := by decide
theorem test_illformed_portOk : (Instr.identSendTick 48).wf = false := by decide
theorem test_illformed_tier : (Instr.backgroundEvict 3).wf = false := by decide
theorem test_illformed_frame : (Instr.frameRetireMoveLanded 1 1000000 ⟨0, [], [], none⟩).wf = false := by decide
theorem test_illformed_flit : (Instr.flitNakReceive 0 ⟨[], 0, false⟩).wf = false := by decide
theorem test_illformed_fence_dev : (Instr.fenceKeyAgeOut 0 0 16384).wf = false := by decide
theorem test_illformed_margins : (Instr.opticalMarginSample 0 []).wf = false := by decide
theorem test_illformed_handover_step : (Instr.handoverComplete [(10, [])]).wf = false := by decide
theorem test_illformed_eid : (Instr.spdmKeyExchange none 1024 false).wf = false := by decide
theorem test_illformed_sensorOk : (Instr.sensorSample [(138, 0)]).wf = false := by decide
theorem test_illformed_activity : (Instr.lockTake 8 0 false).wf = false := by decide
theorem test_illformed_bist : (Instr.bistRequest (.mctp 0) 16 0 false).wf = false := by decide
theorem test_illformed_event : (Instr.eventRecordSubmit ⟨0, 13, 0, 0, 0⟩).wf = false := by decide
theorem test_illformed_bar4_none : (Instr.bar4Read 0 0 false .ok).wf = false := by decide
theorem test_illformed_bar4_long : (Instr.bar4Read 0 4097 false .ok).wf = false := by decide
theorem test_illformed_bar4_size : (Instr.bar4Resize 29).wf = false := by decide
theorem test_illformed_abi : (Instr.abiNegotiate 256 false).wf = false := by decide
theorem test_illformed_cfg_off : (Instr.configSpaceWrite 2 0).wf = false := by decide
theorem test_illformed_container : (Instr.loadCheckDone (.read ⟨[], [], [], []⟩)).wf = false := by decide
theorem test_illformed_link_width : (Instr.linkUp 6 3 false).wf = false := by decide
theorem test_illformed_trip_kind : (Instr.moduleTrip 7 0).wf = false := by decide
theorem test_illformed_trip_diode : (Instr.dieTrip 0 (.diode 8)).wf = false := by decide
theorem test_illformed_does_nothing : (match exec (.dieFaultReset 8) wOn with | .next u => decide (u = wOn) | _ => false) = true := by decide

/-! Single steps -/

theorem test_step_empty_without_power : (match step State.reset with | .next u => decide (u = State.reset) | _ => false) = true := by decide
theorem test_step_empty_with_power : (match step wOn with | .next u => decide (u.time.now = 1) | _ => false) = true := by decide
theorem test_step_takes_the_front :
    (match step ({ State.reset with pending := [.cycleBoundary, .svnRaise] } : State) with | .next u => decide (u.pending = [.svnRaise]) | _ => false) = true := by
  decide
theorem test_table_gives_no_bits : decodeTableWord 32 0 = none := by decide
theorem test_fetch_word_spells_nothing : State.reset.withFetchWord 32 0 = State.reset := by decide
theorem test_hearth_restart_of_power_on :
    (match exec .hearthRestartDone State.reset with | .next u => u.hrt.ready | _ => false) = true := by decide

/-! Values the standards and the spec's tables give -/

/-- The check value of CRC-32C over the nine ASCII digits. -/
theorem test_crc32c : crc32c [0x31, 0x32, 0x33, 0x34, 0x35, 0x36, 0x37, 0x38, 0x39] = 0xE3069283 := by decide
/-- FIPS 197, appendix C.3. -/
theorem test_aes256 :
    aesWith (aesKeys (List.range 32)) [0x00, 0x11, 0x22, 0x33, 0x44, 0x55, 0x66, 0x77, 0x88, 0x99, 0xaa, 0xbb, 0xcc, 0xdd, 0xee, 0xff] =
      [0x8e, 0xa2, 0xb7, 0xca, 0x51, 0x67, 0x45, 0xbf, 0xea, 0xfc, 0x49, 0x90, 0x4b, 0x49, 0x60, 0x89] := by decide +kernel
/-- RFC 8452, appendix C.2: the tag of nothing at all. -/
theorem test_gcm_siv :
    sivSeal (1 :: List.replicate 31 0) (3 :: List.replicate 11 0) [] [] =
      ([], [0x07, 0xf5, 0xf4, 0x16, 0x9b, 0xbf, 0x55, 0xa8, 0x40, 0x0c, 0xd4, 0x7e, 0xa6, 0xfd, 0x40, 0x0f]) := by decide +kernel
/-- FIPS 180-4's example message of three letters. -/
theorem test_sha384 :
    leNat (sha384 [0x61, 0x62, 0x63]).reverse =
      0xcb00753f45a35e8bb5a03d699ac65007272c32ab0eded1631a8b605a43ff5bed8086072ba1e7cc2358baeca134c825a7 := by
  decide +kernel
/-- R404's example: a mean of 5,437 W reads 5,450 W; ties go upward; -17/16 °C is -2 °C. -/
theorem test_quantOf : quantOf 200 (5437, 1) = 5450 ∧ quantOf 200 (10850, 2) = 5450 ∧ quantOf 63 (-17, 1) = 0xFFE0 := by decide
/-- R361: three incidents of one bin within 24 hours, with nine of others between. -/
theorem test_three_alike :
    threeAlike (alikeNow ([(13, 0), (13, 5)] ++ List.replicate 9 (12, 6)) 13 86400000000000) 13 = true ∧
    threeAlike (alikeNow [(13, 0), (13, 5)] 13 86400000000001) 13 = false := by decide

end
end

section
/-! SUPPORT. Power-on, and what ports that lose their light or get it back leave alone (R33, R408, R458, R464, R477). -/
namespace Sys2Proof

/-- A Hearth that is restarting stays so while it is sent a record: the record waits in the FIFO, or is dropped (R416). -/
theorem Hrt.submit_of_restarting (h : Hrt) (fine : Bool) (e : EvRec) (now : Nat) (hr : h.ready = false) :
    (h.submit fine e now).ready = false ∧ (h.submit fine e now).restart = h.restart := by
  rw [Hrt.submit, if_neg (by simp [hr])]
  split
  · exact ⟨hr, rfl⟩
  · exact ⟨hr, rfl⟩

theorem SecSt.powerOn_eq (x : SecSt) : x.powerOn = if x = .unowned then .unowned else .ownedIdle := by
  cases x <;> rfl

/-- The handover record of a tenancy that power-on ends (R408; log entry 130). -/
theorem Sec.powerOn_record_of_lent (x : Sec) (h : x.st.lent = true) :
    x.powerOn.record.tenancy = x.tenancy ∧ x.powerOn.record.result = 0xE0 ∧ x.powerOn.record.cause = 2 := by
  rw [Sec.powerOn, if_pos h]
  exact ⟨rfl, rfl, rfl⟩

end Sys2Proof

namespace Sys2Proof.Machine

/-! What a change of ports leaves alone -/

/-- The state without what a change of ports may touch: the fabric, the Hearth with its log and locks, the outputs, and
the removals of laser units that are still to be recorded. Two states that agree here differ in those alone. -/
def State.besidePorts (s : State) : State :=
  { s with fab := Fab.reset, hrt := Hrt.reset, out := [], pwr := { s.pwr with laserRecs := [] } }

@[simp] theorem State.emit_besidePorts (s : State) (o : Out) : (s.emit o).besidePorts = s.besidePorts := rfl

@[simp] theorem State.event_besidePorts (s : State) (e : EvRec) : (s.event e).besidePorts = s.besidePorts := rfl

@[simp] theorem State.lockEv_besidePorts (s : State) (l : Lock) (what : Nat) :
    (s.lockEv l what).besidePorts = s.besidePorts := rfl

@[simp] theorem State.laserRecord_besidePorts (s : State) (d : Nat) : (s.laserRecord d).besidePorts = s.besidePorts := rfl

theorem State.foldl_besidePorts {α : Type} (f : State → α → State) (h : ∀ s a, (f s a).besidePorts = s.besidePorts)
    (l : List α) (s : State) : (l.foldl f s).besidePorts = s.besidePorts :=
  l.foldlRecOn (motive := fun u => u.besidePorts = s.besidePorts) f rfl fun u hu a _ => (h u a).trans hu

@[simp] theorem State.fabEffs_besidePorts (s : State) (es : List FEff) : (s.fabEffs es).besidePorts = s.besidePorts :=
  State.foldl_besidePorts _ (fun s e =>
    match e with
    | .out o => s.emit_besidePorts o
    | .event e => s.event_besidePorts e
    | .reroute _ => rfl) es s

@[simp] theorem State.onFab_besidePorts (s : State) (f : Fab → Fab × List FEff) :
    (s.onFab f).besidePorts = s.besidePorts := State.fabEffs_besidePorts _ _

@[simp] theorem State.lockDrop_besidePorts (s : State) (f : Lock → Bool) : (s.lockDrop f).besidePorts = s.besidePorts :=
  State.foldl_besidePorts _ (fun s l => s.lockEv_besidePorts l 0) _ _

/-- A port's row changes the fabric, and releases locks (R432). -/
@[simp] theorem State.onPortRow_besidePorts (s : State) (p : Nat) (g : Port → Port × List FEff) :
    (s.onPortRow p g).besidePorts = s.besidePorts := by
  simp only [State.onPortRow, apply_ite State.besidePorts, State.lockDrop_besidePorts, State.onFab_besidePorts, ite_self]

@[simp] theorem State.refreshAlarm_besidePorts (s : State) : s.refreshAlarm.besidePorts = s.besidePorts := by
  rw [State.refreshAlarm]
  split <;> rfl

theorem State.workKept_of_besidePorts {s u : State} (h : u.besidePorts = s.besidePorts) : WorkKept s u :=
  ⟨congrArg (·.tiles) h, congrArg (·.queues) h, congrArg (·.ctxs) h, congrArg (·.descs) h, congrArg (·.mem) h⟩

theorem State.dom_of_besidePorts {s u : State} (h : u.besidePorts = s.besidePorts) : u.pwr.dom = s.pwr.dom :=
  congrArg (·.pwr.dom) h

theorem State.lasers_of_besidePorts {s u : State} (h : u.besidePorts = s.besidePorts) : u.pwr.lasers = s.pwr.lasers :=
  congrArg (·.pwr.lasers) h

theorem State.lasersOk_of_besidePorts {s u : State} (h : u.besidePorts = s.besidePorts) :
    u.pwr.lasersOk = s.pwr.lasersOk := congrArg (·.pwr.lasersOk) h

/-! The six ports of a laser unit (Table 17.7) -/

/-- The ports of unit `d` lose their light (R33). -/
def State.unitDark (s : State) (d : Nat) : State :=
  (List.range 6).foldl (fun (s : State) i => s.onPortRow (6 * d + i) fun x => x.lightLost (6 * d + i) 31 s.now) s

/-- The light of the ports of unit `d` returns (R477). -/
def State.unitLit (s : State) (d : Nat) : State :=
  (List.range 6).foldl (fun (s : State) i => s.onPortRow (6 * d + i) fun x => x.lightReturn (6 * d + i) 31 s.now) s

@[simp] theorem State.unitDark_besidePorts (s : State) (d : Nat) : (s.unitDark d).besidePorts = s.besidePorts :=
  State.foldl_besidePorts _ (fun s i => s.onPortRow_besidePorts (6 * d + i) _) _ _

@[simp] theorem State.unitLit_besidePorts (s : State) (d : Nat) : (s.unitLit d).besidePorts = s.besidePorts :=
  State.foldl_besidePorts _ (fun s i => s.onPortRow_besidePorts (6 * d + i) _) _ _

/-- Unit `d` is no longer present, and not at its output limit. -/
def State.unitOut (s : State) (d : Nat) : State :=
  { s with pwr := { s.pwr with lasers := s.pwr.lasers.filter (· ≠ d), lasersOk := s.pwr.lasersOk.filter (· ≠ d) } }

/-- Unit `d` has reached its output limit. -/
def State.unitReady (s : State) (d : Nat) : State := { s with pwr := { s.pwr with lasersOk := s.pwr.lasersOk ++ [d] } }

theorem State.workKept_of_unitOut {s u : State} {d : Nat} (h : WorkKept (s.unitOut d) u) : WorkKept s u := h

theorem State.workKept_of_unitReady {s u : State} {d : Nat} (h : WorkKept (s.unitReady d) u) : WorkKept s u := h

/-- The removal of unit `d` is recorded at once while the domain is on, and otherwise once the power-up completes
(R33, Table 17.7). -/
def State.noteRemoval (s : State) (d : Nat) : State :=
  if s.pwr.dom = .on then s.laserRecord d else { s with pwr := { s.pwr with laserRecs := s.pwr.laserRecs ++ [d] } }

@[simp] theorem State.noteRemoval_besidePorts (s : State) (d : Nat) : (s.noteRemoval d).besidePorts = s.besidePorts := by
  rw [State.noteRemoval]
  split <;> rfl

/-! The commands about laser units -/

theorem exec_laserUnitRemoved (s : State) (d : Nat) :
    exec (.laserUnitRemoved d) s = guardWf (dieOk d) s
      (if !s.pwr.lasers.contains d then s else (((s.unitOut d).unitDark d).noteRemoval d).refreshAlarm) := by
  change execLaserUnitRemoved d s = _
  unfold execLaserUnitRemoved State.noteRemoval State.unitDark State.unitOut
  dsimp only

theorem exec_laserUnitRemoved_absent (s : State) (d : Nat) (hp : s.pwr.lasers.contains d = false) :
    exec (.laserUnitRemoved d) s = .next s := by
  simp only [exec_laserUnitRemoved, hp, Bool.not_false, if_true, guardWf, ite_self]

theorem exec_laserUnitRemoved_present (s : State) (d : Nat) (hd : d < 8) (hp : s.pwr.lasers.contains d = true) :
    exec (.laserUnitRemoved d) s = .next (((s.unitOut d).unitDark d).noteRemoval d).refreshAlarm := by
  simp only [exec_laserUnitRemoved, hp, Bool.not_true, Bool.false_eq_true, if_false, guardWf, dieOk, hd, decide_true, if_true]

theorem exec_laserUnitRemoved_of_on (s : State) (d : Nat) (hd : d < 8) (hp : s.pwr.lasers.contains d = true)
    (hon : s.pwr.dom = .on) :
    exec (.laserUnitRemoved d) s = .next (((s.unitOut d).unitDark d).laserRecord d).refreshAlarm := by
  have hdark : ((s.unitOut d).unitDark d).besidePorts = (s.unitOut d).besidePorts := State.unitDark_besidePorts _ _
  have hdom : ((s.unitOut d).unitDark d).pwr.dom = .on := (State.dom_of_besidePorts hdark).trans hon
  rw [exec_laserUnitRemoved_present s d hd hp, State.noteRemoval, if_pos hdom]

/-- A removal takes the unit from both lists and leaves the work alone, whatever the domain does. -/
theorem exec_laserUnitRemoved_frame (s : State) (d : Nat) (hd : d < 8) (hp : s.pwr.lasers.contains d = true) :
    ∃ u, exec (.laserUnitRemoved d) s = .next u ∧ u.pwr.lasers = (s.unitOut d).pwr.lasers ∧
      u.pwr.lasersOk = (s.unitOut d).pwr.lasersOk ∧ WorkKept s u := by
  have h : (((s.unitOut d).unitDark d).noteRemoval d).refreshAlarm.besidePorts = (s.unitOut d).besidePorts := by simp
  exact ⟨_, exec_laserUnitRemoved_present s d hd hp, State.lasers_of_besidePorts h, State.lasersOk_of_besidePorts h,
    State.workKept_of_unitOut (State.workKept_of_besidePorts h)⟩

theorem exec_laserUnitInserted_present (s : State) (d : Nat) (hp : s.pwr.lasers.contains d = true) :
    exec (.laserUnitInserted d) s = .next s := by
  change execLaserUnitInserted d s = _
  simp only [execLaserUnitInserted, hp, if_true, guardWf, ite_self]

theorem exec_laserUnitInserted_absent (s : State) (d : Nat) (hd : d < 8) (hp : s.pwr.lasers.contains d = false) :
    exec (.laserUnitInserted d) s = .next { s with pwr := { s.pwr with lasers := s.pwr.lasers ++ [d] } } := by
  change execLaserUnitInserted d s = _
  simp only [execLaserUnitInserted, guardWf, dieOk, hd, decide_true, if_true, hp, Bool.false_eq_true, if_false]

theorem exec_laserReady (s : State) (d : Nat) :
    exec (.laserReady d) s = guardWf (dieOk d) s
      (if !s.pwr.lasers.contains d || s.pwr.lasersOk.contains d then s else ((s.unitReady d).unitLit d).refreshAlarm) := by
  change execLaserReady d s = _
  unfold execLaserReady State.unitLit State.unitReady
  dsimp only

theorem exec_laserReady_ignored (s : State) (d : Nat)
    (h : s.pwr.lasers.contains d = false ∨ s.pwr.lasersOk.contains d = true) : exec (.laserReady d) s = .next s := by
  have hc : (!s.pwr.lasers.contains d || s.pwr.lasersOk.contains d) = true := by
    rcases h with h | h <;> simp only [h, Bool.not_false, Bool.true_or, Bool.or_true]
  simp only [exec_laserReady, hc, if_true, guardWf, ite_self]

theorem exec_laserReady_present (s : State) (d : Nat) (hd : d < 8) (hp : s.pwr.lasers.contains d = true)
    (hr : s.pwr.lasersOk.contains d = false) :
    exec (.laserReady d) s = .next ((s.unitReady d).unitLit d).refreshAlarm := by
  simp only [exec_laserReady, hp, hr, Bool.not_true, Bool.or_false, Bool.false_eq_true, if_false, guardWf, dieOk, hd,
    decide_true, if_true]

theorem exec_laserReady_frame (s : State) (d : Nat) (hd : d < 8) (hp : s.pwr.lasers.contains d = true)
    (hr : s.pwr.lasersOk.contains d = false) :
    ∃ u, exec (.laserReady d) s = .next u ∧ u.pwr.lasersOk = (s.unitReady d).pwr.lasersOk ∧ WorkKept s u := by
  have h : ((s.unitReady d).unitLit d).refreshAlarm.besidePorts = (s.unitReady d).besidePorts := by simp
  exact ⟨_, exec_laserReady_present s d hd hp hr, State.lasersOk_of_besidePorts h,
    State.workKept_of_unitReady (State.workKept_of_besidePorts h)⟩

/-! Power-on -/

/-- A module right after power-on, before the record of a tenancy that ended: everything at reset but what flash holds
(R390 to R392, R464), the model's own trace and queue, and the laser units in their bays. -/
def State.poweredOn (s : State) : State :=
  let t := s.restartTime
  ({ State.reset with
    pending := t.pending, free := t.free, out := t.out
    mem := { MemSys.reset with retired1 := t.mem.retired1, retired2 := t.mem.retired2 }
    flt := { Flt.reset with retired := t.flt.retired, due := t.flt.due, health := t.flt.health }
    sec := t.sec.powerOn
    hrt := t.hrt.powerOn
    pwr := { Pwr.reset with lasers := t.pwr.lasers, lasersOk := t.pwr.lasersOk } } : State).rebuildRemap

theorem exec_powerOnReset_eq (s : State) :
    exec .powerOnReset s = .next (if s.sec.st.lent then s.poweredOn.ev 0x0701 11 0 (s.poweredOn.sec.st.code * 2 ^ 16) 0
      else s.poweredOn) := rfl

/-- Power-on leaves `State.poweredOn`; the record of a tenancy that ended touches only the Hearth, which is starting. -/
theorem exec_powerOnReset (s : State) :
    ∃ h, exec .powerOnReset s = .next { s.poweredOn with hrt := h } ∧ h.ready = false ∧ h.restart = .power := by
  rw [exec_powerOnReset_eq]
  split
  · exact ⟨_, rfl, Hrt.submit_of_restarting s.poweredOn.hrt _ _ _ rfl⟩
  · exact ⟨s.poweredOn.hrt, rfl, rfl, rfl⟩

/-- Tiles due to be retired outlive power-on (R387, R464; log entry 178); only their times are counted anew. -/
theorem State.poweredOn_due (s : State) : s.poweredOn.flt.due.map (·.ptile) = s.flt.due.map (·.ptile) := by
  change (s.flt.due.map fun x => { x with since := x.since - s.time.now }).map (·.ptile) = _
  rw [List.map_map]
  rfl

theorem State.poweredOn_record_of_tenanted (s : State) (h : s.sec.st = .tenanted) :
    s.poweredOn.sec.record.tenancy = s.sec.tenancy ∧ s.poweredOn.sec.record.result = 0xE0 ∧
      s.poweredOn.sec.record.cause = 2 := by
  have hlent : s.restartTime.sec.st.lent = true := by
    change s.sec.st.lent = true
    rw [h]
    rfl
  exact Sec.powerOn_record_of_lent s.restartTime.sec hlent

/-! The statement -/

/-- Settles O55: power-on by the state it leaves, the laser units by one equation for each command and case. -/
theorem powerOnAndTheLaserUnits : Obligations.PowerOnAndTheLaserUnits := by
  refine ⟨fun s => ?powerOn, fun s d hd hp hon => exec_laserUnitRemoved_of_on s d hd hp hon,
    fun s d hd hp hr => exec_laserReady_present s d hd hp hr, fun s d c hd hc => ?ignored,
    fun s d hd hp => exec_laserUnitRemoved_frame s d hd hp, fun s d hd hp => exec_laserUnitInserted_absent s d hd hp,
    fun s d hd hp hr => exec_laserReady_frame s d hd hp hr⟩
  case powerOn =>
    obtain ⟨h, hexec, hready, hrestart⟩ := exec_powerOnReset s
    exact ⟨_, hexec, rfl, rfl, rfl, rfl, rfl, rfl, rfl, rfl, rfl, rfl, hready, hrestart, rfl, s.poweredOn_due, rfl, rfl, rfl,
      SecSt.powerOn_eq s.sec.st, s.poweredOn_record_of_tenanted, rfl, rfl⟩
  case ignored =>
    simp only [List.mem_cons, List.not_mem_nil, or_false, Prod.mk.injEq] at hc
    rcases hc with ⟨rfl, hp, -⟩ | ⟨rfl, hp, -⟩ | ⟨rfl, hp, -⟩ | ⟨rfl, hp, -⟩ | ⟨rfl, -, hr⟩ | ⟨rfl, hp, -⟩ | ⟨rfl, hp, -⟩
    · exact exec_laserUnitRemoved_absent s d hp
    · exact exec_laserUnitRemoved_absent s d hp
    · exact exec_laserUnitInserted_present s d hp
    · exact exec_laserUnitInserted_present s d hp
    · exact exec_laserReady_ignored s d (.inr hr)
    · exact exec_laserReady_ignored s d (.inl hp)
    · exact exec_laserReady_ignored s d (.inl hp)

end Sys2Proof.Machine
end

section
/-! SUPPORT. Reference time: what a packet that arrives comes to, exchanges of time, and readings of the counter (R53, R54,
R56, R273 to R275). -/
namespace Sys2Proof

/-- A sent packet is of the class it was built for. -/
theorem cls_mkPacket {cls : Nat} (op src dst ctx : Nat) (epoch seq : W32) (addr aux : Nat) (pay : List W32)
    (hc : cls < 16) :
    (mkPacket cls op src dst ctx epoch seq addr aux pay).cls = cls := by
  change (BitVec.ofNat 32 (pay.length * 2 ^ 16 + op * 2 ^ 8 + cls * 16 + 1)).toNat >>> 4 % 2 ^ 4 = cls
  rw [BitVec.toNat_ofNat, Nat.shiftRight_eq_div_pow]
  omega

/-- A port takes a packet unless it is the service port and the class is neither TIME nor CTRL (R236). -/
theorem port_takes {p cls : Nat} (h : p = 3 → cls = 3 ∨ cls = 5) : ¬(p = 3 && cls ≠ 3 && cls ≠ 5) = true := by
  simp only [Bool.and_eq_true, decide_eq_true_eq]
  rintro ⟨⟨h3, hn3⟩, hn5⟩
  exact (h h3).elim hn3 hn5

/-- A check that TIME and CTRL packets do not meet passes for them, and for any other packet that meets it (R251). -/
theorem ctxCheck_passes {cls : Nat} {fails : Bool} (h : cls = 3 ∨ cls = 5 ∨ fails = false) :
    ¬(cls ≠ 3 && cls ≠ 5 && fails) = true := by
  rcases h with h | h | h <;> simp [h]

/-- A packet that its port takes joins its channel's queue. -/
theorem Fab.queue_enqueue_self (f : Fab) {p : Nat} (e : TxPkt) (h : p = 3 → e.pkt.cls = 3 ∨ e.pkt.cls = 5) :
    ((f.enqueue p e).port p).queue e.pkt.chan = (f.port p).queue e.pkt.chan ++ [e] := by
  rw [Fab.enqueue, if_neg (port_takes h), Fab.port, Fab.setPort, SMap.getD_setD_self, Port.queue, SMap.modD, SMap.getD_setD_self]
  rfl

/-- Joining a queue changes the ports alone. -/
theorem Fab.enqueue_eq (f : Fab) (p : Nat) (e : TxPkt) : f.enqueue p e = { f with ports := (f.enqueue p e).ports } := by
  rw [Fab.enqueue]
  split <;> rfl

/-- An exchange in LOCKED with an offset of at most 1 µs stays in LOCKED and holds the offset as it is (Table 2.4). -/
theorem RefTime.next_of_locked (r : RefTime) {theta : Int} (hst : r.st = .locked) (hlo : -1000 ≤ theta) (hhi : theta ≤ 1000) :
    (r.next theta).st = .locked ∧ (r.next theta).offset = theta := by
  have hnear : ¬(theta < -1000 ∨ 1000 < theta) := by omega
  refine ⟨?_, ?_⟩
  · simp [RefTime.next, hst, hnear]
  · change clampOff theta = theta
    rw [clampOff]
    omega

end Sys2Proof

namespace Sys2Proof.Machine

/-! Packets that arrive -/

/-- A packet that meets every check has its row's effect once it is taken. -/
theorem State.packetRow_of_packetIn {s : State} {p : Nat} {k x : Packet} {cls op : Nat} (h : PacketIn s p k x cls op)
    {ops : Nat → Bool} (hop : ops op = true) (f : State → Packet → State) :
    s.packetRow p k cls ops f = f (s.takePkt p k) x := by
  obtain ⟨-, -, hhead, hcls, rfl, hroute, hserv, hopen, hcheck, hctx⟩ := h
  have htaken : (s.takePkt p k).opened k = some x := hopen
  have hmine : ¬(!s.atHead p k || k.cls ≠ cls || !ops k.op || s.fab.route false k ≠ .deliver) = true := by
    simp [hhead, hcls, hop, hroute]
  have hepoch : cls = 3 ∨ cls = 5 ∨ (s.takePkt p k).wrongEpoch x = false := hctx.imp_right (.imp_right And.left)
  have hfence : cls = 3 ∨ cls = 5 ∨ (s.takePkt p k).srcFenced x = false := hctx.imp_right (.imp_right And.right)
  rw [State.packetRow, if_neg hmine]
  simp only [if_neg (port_takes hserv), htaken, hcheck, if_neg (ctxCheck_passes hepoch), if_neg (ctxCheck_passes hfence)]

/-- A command about a packet that meets every check is well formed. -/
theorem packetIn_wf {s : State} {p : Nat} {k x : Packet} {cls op : Nat} (h : PacketIn s p k x cls op) :
    (portOk p && packetOk k) = true := by
  obtain ⟨hp, hk, -⟩ := h
  rw [hp, hk]
  rfl

@[simp] theorem State.takePkt_now (s : State) (p : Nat) (k : Packet) : (s.takePkt p k).now = s.now := rfl

@[simp] theorem State.takePkt_dmax (s : State) (p : Nat) (k : Packet) : (s.takePkt p k).fab.dmax = s.fab.dmax := rfl

@[simp] theorem State.takePkt_treqs (s : State) (p : Nat) (k : Packet) :
    (s.takePkt p k).fab.treqs = s.fab.treqs := rfl

/-! Requests of time (R273, R275) -/

/-- A TIME packet joins its port's queue unsealed. -/
theorem State.queueOn_of_time (s : State) (p : Nat) (cls : TCls) {k : Packet} (h : k.cls = 3) :
    s.queueOn p cls k = { s with fab := s.fab.enqueue p ⟨k, none, cls⟩ } := if_pos h

/-- The TREQ that port `p` sends now. -/
def State.treqPkt (s : State) (p : Nat) : Packet :=
  mkPacket 3 1 s.fab.self (s.fab.port p).peerDev 0 0 0 0 0 (words64 s.now)

/-- A TREQ of port `p` is outstanding since now. -/
def State.treqNoted (s : State) (p : Nat) : State :=
  { s with fab := { s.fab with treqs := SMap.set s.fab.treqs p s.now } }

theorem State.treqPkt_cls (s : State) (p : Nat) : (s.treqPkt p).cls = 3 := cls_mkPacket _ _ _ _ _ _ _ _ _ (by decide)

/-- Port `p` is given a TREQ when it is UP, and the TREQ is noted either way. -/
def State.treqSent (s : State) (p : Nat) : State :=
  if s.fab.isUp p then (s.treqNoted p).queueOn p .job (s.treqPkt p) else s.treqNoted p

/-- A TREQ still outstanding counts as an invalid exchange before the next one goes. -/
theorem State.sendTreq_eq (s : State) (p : Nat) :
    s.sendTreq p = (if (SMap.get? s.fab.treqs p).isSome then s.badExchange p else s).treqSent p := rfl

theorem State.sendTreq_first {s : State} {p : Nat} (hnone : SMap.get? s.fab.treqs p = none) (hup : s.fab.isUp p = true) :
    s.sendTreq p = { s.treqNoted p with fab := (s.treqNoted p).fab.enqueue p ⟨s.treqPkt p, none, .job⟩ } := by
  rw [State.sendTreq_eq, hnone]
  exact (if_pos hup).trans (State.queueOn_of_time _ _ _ (s.treqPkt_cls p))

theorem State.badExchange_parents (s : State) (p : Nat) :
    (s.badExchange p).fab.primary = s.fab.primary ∧ (s.badExchange p).fab.backup = s.fab.backup := by
  rw [State.badExchange]
  dsimp only
  split
  · split <;> exact ⟨rfl, rfl⟩
  · exact ⟨rfl, rfl⟩

theorem State.treqSent_parents (s : State) (p : Nat) :
    (s.treqSent p).fab.primary = s.fab.primary ∧ (s.treqSent p).fab.backup = s.fab.backup := by
  rw [State.treqSent, State.queueOn_of_time _ _ _ (s.treqPkt_cls p), Fab.enqueue_eq]
  split <;> exact ⟨rfl, rfl⟩

/-- Sending a TREQ leaves the choice of primary and backup as it is. -/
theorem State.sendTreq_parents (s : State) (p : Nat) :
    (s.sendTreq p).fab.primary = s.fab.primary ∧ (s.sendTreq p).fab.backup = s.fab.backup := by
  rw [State.sendTreq_eq]
  split
  · obtain ⟨hprimary, hbackup⟩ := s.badExchange_parents p
    rw [← hprimary, ← hbackup]
    exact State.treqSent_parents _ p
  · exact s.treqSent_parents p

theorem exec_treqSendTick (s : State) (h : s.fab.idValid = true) :
    exec .treqSendTick s = .next (if s.fab.onBackup = true ∧ s.fab.backup ≠ s.fab.primary then
      (s.sendTreq s.fab.primary.toNat).sendTreq s.fab.backup.toNat else s.sendTreq s.fab.primary.toNat) := by
  obtain ⟨hprimary, hbackup⟩ := s.sendTreq_parents s.fab.primary.toNat
  change execTreqSendTick s = _
  simp [execTreqSendTick, h, hprimary, hbackup]

theorem exec_treqSendTick_unidentified (s : State) (h : s.fab.idValid = false) : exec .treqSendTick s = .next s := by
  change execTreqSendTick s = _
  simp [execTreqSendTick, h]

/-- A module whose parent is its primary sends one TREQ, with the time at which it does. -/
theorem exec_treqSendTick_first {s : State} {p : Nat} (hid : s.fab.idValid = true) (hback : s.fab.onBackup = false)
    (hp : p = s.fab.primary.toNat) (hnone : SMap.get? s.fab.treqs p = none) (hup : s.fab.isUp p = true) :
    exec .treqSendTick s =
      .next { s.treqNoted p with fab := (s.treqNoted p).fab.enqueue p ⟨s.treqPkt p, none, .job⟩ } := by
  rw [exec_treqSendTick s hid, if_neg (by simp [hback]), ← hp, State.sendTreq_first hnone hup]

/-! Exchanges (R53, R54, R274, R275) -/

/-- The answer to a TREQ `x` at the state `s`: its T1, T2 and T3, and the counter's state and offset (R274). -/
theorem exec_timeTreq {s : State} {p : Nat} {k x : Packet} (h : PacketIn s p k x 3 1) :
    exec (.timeTreq p k) s = .next ((s.takePkt p k).queueOn p .job (mkPacket 3 2 s.fab.self x.src 0 0 0 0 0
      (x.pay.take 2 ++ words64 s.now ++ words64 s.now ++
        [BitVec.ofNat 32 (rtCode s.time.st), BitVec.ofNat 32 (ofS 32 s.time.offset)]))) := by
  change execTimeTreq p k s = _
  rw [execTimeTreq, guardWf_next (packetIn_wf h), State.packetRow_of_packetIn h rfl]
  rfl

/-- The exchange that a TRSP `x` ends when it comes: offset and delay. -/
def State.exchange (s : State) (x : Packet) : Int × Nat :=
  timeExchange (x.pw64 0) (x.pw64 2) (x.pw64 4) s.now (x.pw 7).toInt

/-- A TRSP `x` is a valid answer to the TREQ of `t1` (R274, R275): in time, with a delay within FAB_RT_DMAX, from a sender
sure of its time. -/
def State.exchangeOk (s : State) (t1 : Nat) (x : Packet) : Bool :=
  decide (x.pw64 0 = t1) && decide (s.now ≤ t1 + 100000) && decide ((s.exchange x).2 ≤ s.fab.dmax.toNat * 100) &&
    decide (s.fab.dmax ≠ 0) && ((x.pw 6).getLsbD 3 || decide (fld (x.pw 6) 0 3 = 2))

/-- A TRSP is judged against the TREQ outstanding on its port; without one it only leaves its port. -/
theorem exec_timeTrsp {s : State} {p op : Nat} {k x : Packet} (h : PacketIn s p k x 3 op) (hop : op ≠ 1) :
    exec (.timeTrsp p k) s = .next ((SMap.get? s.fab.treqs p).elim (s.takePkt p k) fun t1 =>
      if s.exchangeOk t1 x = true then (s.takePkt p k).goodExchange p (s.exchange x).1 (s.exchange x).2
      else (s.takePkt p k).badExchange p) := by
  have hopen : s.opened k = some x := by
    obtain ⟨-, -, -, -, -, -, -, hopen, -⟩ := h
    exact hopen
  change execTimeTrsp p k s = _
  rw [execTimeTrsp, guardWf_next (packetIn_wf h)]
  dsimp only
  rw [hopen, if_neg (by simp), State.packetRow_of_packetIn h (decide_eq_true hop), State.takePkt_treqs]
  simp only [State.takePkt_now, State.takePkt_dmax, State.exchangeOk, State.exchange]
  split
  · next hget => rw [hget, Option.elim_none]
  · next t1 hget =>
    rw [hget, Option.elim_some]
    rfl

theorem State.exchangeOk_iff (s : State) (t1 : Nat) (x : Packet) : s.exchangeOk t1 x = true ↔
    x.pw64 0 = t1 ∧ s.now ≤ t1 + 100000 ∧ (s.exchange x).2 ≤ s.fab.dmax.toNat * 100 ∧ s.fab.dmax ≠ 0 ∧
      ((x.pw 6).getLsbD 3 = true ∨ fld (x.pw 6) 0 3 = 2) := by
  simp only [State.exchangeOk, Bool.and_eq_true, Bool.or_eq_true, decide_eq_true_eq, and_assoc]

theorem exec_timeTrsp_valid {s : State} {p op t1 : Nat} {k x : Packet} (h : PacketIn s p k x 3 op) (hop : op ≠ 1)
    (hget : SMap.get? s.fab.treqs p = some t1) (hok : s.exchangeOk t1 x = true) :
    exec (.timeTrsp p k) s = .next ((s.takePkt p k).goodExchange p (s.exchange x).1 (s.exchange x).2) := by
  rw [exec_timeTrsp h hop, hget, Option.elim_some, if_pos hok]

/-- A valid exchange in LOCKED with an offset of at most 1 µs: the offset is stored and slewed off, the exchange counts, and
its TREQ is answered. -/
theorem State.goodExchange_of_locked (s : State) (p : Nat) {theta : Int} (delay : Nat) (hst : s.time.st = .locked)
    (hlo : -1000 ≤ theta) (hhi : theta ≤ 1000) :
    let u := s.goodExchange p theta delay
    u.time.st = .locked ∧ u.time.offset = theta ∧ u.time.slew = -theta ∧ u.time.lastValid = s.now ∧ u.time.now = s.now ∧
      u.fab.valid = s.fab.valid + 1 ∧ u.fab.treqs = SMap.erase s.fab.treqs p ∧ WorkKept s u := by
  obtain ⟨hlocked, hoffset⟩ := s.time.next_of_locked hst hlo hhi
  simp only [State.goodExchange, hlocked, reduceCtorEq, decide_false, Bool.false_and, Bool.false_eq_true, if_false, if_true]
  exact ⟨trivial, hoffset, trivial, rfl, rfl, trivial, trivial, rfl, rfl, rfl, rfl, rfl⟩

/-! The counter (R54, R56) -/

theorem exec_rtHoldoverTimeout {s : State} (hst : s.time.st = .locked) (hold : s.time.lastValid + 250000000 ≤ s.now) :
    exec .rtHoldoverTimeout s = .next { s with time := { s.time with st := .holdover } } := by
  change execRtHoldoverTimeout s = _
  simp [execRtHoldoverTimeout, hst, hold]

theorem exec_rtNowLoRead_host {s : State} {tee : Bool} (h : s.barShut tee = false) :
    exec (.rtNowLoRead .host tee) s = .next { s with
      time := { s.time with hostLatch := BitVec.ofNat 32 (s.now / 2 ^ 32) }
      out := s.out ++ [.hostRead 0 0x200100 (BitVec.ofNat 64 (s.now % 2 ^ 32))] } := by
  change execRtNowLoRead .host tee s = _
  simp only [execRtNowLoRead, h]
  rfl

/-- The low half of the counter goes to a Hearth processor in 32 bits. -/
theorem setWidth_nowLo (n : Nat) : (BitVec.ofNat 64 (n % 2 ^ 32)).setWidth 32 = BitVec.ofNat 32 (n % 2 ^ 32) :=
  BitVec.setWidth_ofNat_of_le (by decide) _

theorem exec_rtNowLoRead_hearth (s : State) (two tee : Bool) :
    exec (.rtNowLoRead (.hearth two) tee) s = .next { s with
      time := if two then { s.time with hearthLatch2 := BitVec.ofNat 32 (s.now / 2 ^ 32) }
        else { s.time with hearthLatch := BitVec.ofNat 32 (s.now / 2 ^ 32) }
      out := s.out ++ [.hearthRead two 0x100 (BitVec.ofNat 32 (s.now % 2 ^ 32))] } := by
  rw [← setWidth_nowLo]
  cases two <;> rfl

theorem exec_rtNowLoRead_hearthHi (s : State) (two tee : Bool) :
    exec (.rtNowLoRead (.hearthHi two) tee) s = .next { s with
      out := s.out ++ [.hearthRead two 0x104 (if two then s.time.hearthLatch2 else s.time.hearthLatch)] } := by
  cases two <;> rfl

/-! The statement -/

/-- Settles O37: one equation for each command and case; what an exchange in LOCKED leaves is read off
`State.goodExchange_of_locked`. -/
theorem timeIsExchangedAndRead : Obligations.TimeIsExchangedAndRead := by
  refine ⟨exec_treqSendTick, exec_treqSendTick_unidentified, fun s p hid hback hp hp3 hnone hup => ?first,
    fun s p k x h => exec_timeTreq h, fun s p op t1 k x h hop hget => ?judged, fun s p op k x h hop hget => ?unasked,
    fun s p t1 k x h hget hecho hnow hdelay hdmax hsure hst hlo hhi => ?locked, fun s => exec_rtHoldoverTimeout,
    fun s tee => exec_rtNowLoRead_host, exec_rtNowLoRead_hearth, exec_rtNowLoRead_hearthHi⟩
  case first =>
    refine ⟨_, exec_treqSendTick_first hid hback hp hnone hup, ?_, ?_, ⟨rfl, rfl, rfl, rfl, rfl⟩, rfl⟩
    · rw [Fab.enqueue_eq]
      rfl
    · exact Fab.queue_enqueue_self _ _ fun h3 => absurd h3 hp3
  case judged =>
    rw [exec_timeTrsp h hop, hget, Option.elim_some, State.exchangeOk, State.exchange]
  case unasked =>
    rw [exec_timeTrsp h hop, hget, Option.elim_none]
  case locked =>
    have hok : s.exchangeOk t1 x = true :=
      (s.exchangeOk_iff t1 x).mpr ⟨hecho, hnow, hdelay, hdmax, .inr hsure⟩
    exact ⟨_, exec_timeTrsp_valid h (by decide) hget hok,
      (s.takePkt p k).goodExchange_of_locked p (s.exchange x).2 hst hlo hhi⟩

end Sys2Proof.Machine
end

section
/-! SUPPORT. The control core's waits, patches and readings of time (R58, R124, R126, R128 to R130). -/
namespace Sys2Proof

/-! Bits -/

theorem nbit_of_nbits_zero {w i n : Nat} (h : nbits w i (n + 1) = 0) : nbit w i = false := by
  rw [nbits, Nat.pow_succ'] at h
  have h2 : (w >>> i) % 2 = 0 := by
    rw [← Nat.mod_mul_right_mod (w >>> i) 2 (2 ^ n), h]
  simp [nbit, nbits, h2]

/-! Index registers -/

@[simp] theorem Tile.xr_xw_self (t : Tile) (i : Nat) (v : W32) : (t.xw i v).xr i = v := SMap.getD_setD_self t.x i v 0

theorem Tile.xr_xw_ne (t : Tile) {i j : Nat} (v : W32) (h : j ≠ i) : (t.xw i v).xr j = t.xr j :=
  SMap.getD_setD_ne t.x v 0 h

/-- The tile after CTL.TIME: registers `i` and `i + 1` hold the 64-bit value `v`, the lower half first. -/
def Tile.takeTime (t : Tile) (i : Nat) (v : W64) : Tile :=
  ((t.xw i (v.setWidth 32)).xw (i + 1) ((v >>> 32).setWidth 32)).advance 16

theorem Tile.takeTime_value (t : Tile) (i : Nat) (v : W64) :
    ((t.takeTime i v).xr i).toNat + ((t.takeTime i v).xr (i + 1)).toNat * 2 ^ 32 = v.toNat := by
  have hlo : (t.takeTime i v).xr i = v.setWidth 32 :=
    (Tile.xr_xw_ne _ _ (Nat.ne_of_lt i.lt_succ_self)).trans (t.xr_xw_self i _)
  have hhi : (t.takeTime i v).xr (i + 1) = (v >>> 32).setWidth 32 := Tile.xr_xw_self _ _ _
  rw [hlo, hhi, BitVec.toNat_setWidth, BitVec.toNat_setWidth, BitVec.toNat_ushiftRight, Nat.shiftRight_eq_div_pow]
  omega

theorem Tile.takeTime_keeps (t : Tile) (i : Nat) (v : W64) : (t.takeTime i v).pc = t.pc + 16 ∧
    (t.takeTime i v).wait = none ∧ (t.takeTime i v).patches = [] ∧ (t.takeTime i v).sems = t.sems ∧
    (t.takeTime i v).spd = t.spd :=
  ⟨rfl, rfl, rfl, rfl, rfl⟩

/-- A tile whose part of its LAUNCH is over. -/
def Tile.partOver (t : Tile) : Tile := { t with cpState := .idle, wait := none, patches := [], launch := none }

/-! The instructions on their tile -/

theorem pfxSlots_ne_nil {w b : Nat} (hb : b ∈ [8, 25, 42]) (h : nbit w b = true) : pfxSlots w ≠ [] := by
  have : b ∈ [8, 25, 42].filter fun b => nbit w b := List.mem_filter.mpr ⟨hb, h⟩
  rw [pfxSlots, Ne, List.map_eq_nil_iff]
  exact List.ne_nil_of_mem this

/-- CTL.PFX with no slot enabled only advances (R124). -/
theorem Tile.ctlPfx_none (t : Tile) {w : Nat} (hf : onlyFields w [(0, 8), (8, 17), (25, 17), (42, 17)] = true)
    (h8 : nbits w 8 17 = 0) (h25 : nbits w 25 17 = 0) (h42 : nbits w 42 17 = 0) : t.ctlPfx w = .done (t.advance 16) := by
  have hslots : pfxSlots w = [] := by
    simp [pfxSlots, nbit_of_nbits_zero h8, nbit_of_nbits_zero h25, nbit_of_nbits_zero h42]
  simp [Tile.ctlPfx, hf, h8, h25, h42, hslots]

/-- CTL.PFX whose slots fit the following instruction records their patches for it (R124). -/
theorem Tile.ctlPfx_some (t : Tile) {w o n x : Nat} (hf : onlyFields w [(0, 8), (8, 17), (25, 17), (42, 17)] = true)
    (hidle : ∀ b ∈ [8, 25, 42], nbit w b = true ∨ nbits w b 17 = 0) (hany : ∃ b ∈ [8, 25, 42], nbit w b = true)
    (ho : o = (t.spd.rd (t.pc + 16)).toNat) (ho7 : o ≠ 7) (hn : n = (opcWords o).getD 1) (hin : t.pc + 32 ≤ spdSize)
    (hx : x = t.rdLe (t.pc + 16) (16 * n))
    (hfit : ∀ e ∈ pfxSlots w, e.2.1 ≠ 0 ∧ 8 ≤ e.1 ∧ e.1 + e.2.1 ≤ 128 * n ∧ nbits x e.1 e.2.1 + (t.xr e.2.2).toNat < 2 ^ e.2.1)
    (hdis : pfxOverlap (pfxSlots w) = false) :
    t.ctlPfx w = .done { t.advance 16 with patches := (pfxSlots w).map fun e => ⟨e.1, e.2.1, t.xr e.2.2⟩ } := by
  obtain ⟨b, hb, hset⟩ := hany
  have hslots : (pfxSlots w).isEmpty = false := List.isEmpty_eq_false_iff.mpr (pfxSlots_ne_nil hb hset)
  have hnone : ∀ b ∈ [8, 25, 42], (!nbit w b && nbits w b 17 != 0) = false := by
    intro b hb
    rcases hidle b hb with h | h <;> simp [h]
  have hend : ¬t.pc + 16 + 16 > spdSize := by omega
  have hok : ((pfxSlots w).any fun e => e.2.1 = 0 || decide (e.1 < 8) ||
      decide (e.1 + e.2.1 > 128 * n) || decide (nbits x e.1 e.2.1 + (t.xr e.2.2).toNat ≥ 2 ^ e.2.1)) = false := by
    refine List.any_eq_false.mpr fun e he => ?_
    obtain ⟨hw, hpos, hlen, hsum⟩ := hfit e he
    simp only [Bool.or_eq_true, decide_eq_true_eq]
    omega
  rw [Tile.ctlPfx, hf, hslots]
  simp only [← ho, ← hn, ← hx, hnone 8 (by decide), hnone 25 (by decide), hnone 42 (by decide), hok, hdis, hend, ho7,
    if_false, Bool.not_true, Bool.or_self, Bool.false_eq_true, decide_false]

/-- CTL.SEMWAIT takes COUNT from a semaphore that holds it (R126). -/
theorem Tile.ctlSemwait_held (t : Tile) {w : Nat} (hf : onlyFields w [(0, 8), (8, 7), (16, 16)] = true)
    (h : nbits w 16 16 ≤ (t.sem (nbits w 8 7)).toNat) :
    t.ctlSemwait w = .done ((t.semW (nbits w 8 7) (t.sem (nbits w 8 7) - BitVec.ofNat 16 (nbits w 16 16))).advance 16) := by
  simp [Tile.ctlSemwait, hf, h]

/-- CTL.SEMWAIT waits for COUNT at its semaphore (R126). -/
theorem Tile.ctlSemwait_short (t : Tile) {w : Nat} (hf : onlyFields w [(0, 8), (8, 7), (16, 16)] = true)
    (h : (t.sem (nbits w 8 7)).toNat < nbits w 16 16) : t.ctlSemwait w = .wait (.sem (nbits w 8 7) (nbits w 16 16)) := by
  simp [Tile.ctlSemwait, hf, h]

end Sys2Proof

namespace Sys2Proof.Machine

/-! What a unit that asks nothing of the block changes -/

/-- A unit that asks nothing of the block changes its tile, and the block's notes of waits. -/
theorem State.onTile_tileOnly {s : State} {l p : Nat} {f : Tile → TStep} (hp : s.phys l = some p)
    (hf : (f (s.ptile p)).2 = []) : (s.onTile l f).ptile p = (f (s.ptile p)).1 ∧ TileOnly s (s.onTile l f) p := by
  have htile : (s.onTile l f).ptile p = (f (s.ptile p)).1 := by
    rw [State.onTile_quiet hp hf, State.noteWait_eq]
    exact s.ptile_setPtile_self p _
  refine ⟨htile, ?_⟩
  rw [TileOnly, htile, State.onTile_quiet hp hf, State.noteWait_eq]
  rfl

theorem State.ctl_done {s : State} {l p o w len : Nat} {f : Tile → Nat → CtlRes} {t : Tile} (h : AtInstr s l p o w len)
    (hf : f (s.ptile p) w = .done t) : (s.ctl l o f).ptile p = t ∧ TileOnly s (s.ctl l o f) p := by
  obtain ⟨-, hp, hmay, hfetch, ho⟩ := h
  have hctl : s.ctl l o f = s.onTile l fun _ => (t, []) := by
    rw [State.ctl, State.issue_instr hp hmay hfetch (decide_eq_true ho), hf]
  rw [hctl]
  exact State.onTile_tileOnly hp rfl

theorem State.ctl_wait {s : State} {l p o w len : Nat} {f : Tile → Nat → CtlRes} {k : TileWait} (h : AtInstr s l p o w len)
    (hf : f (s.ptile p) w = .wait k) :
    (s.ctl l o f).ptile p = (s.ptile p).waitFor k ∧ TileOnly s (s.ctl l o f) p := by
  obtain ⟨-, hp, hmay, hfetch, ho⟩ := h
  have hctl : s.ctl l o f = s.onTile l fun t => (t.waitFor k, []) := by
    rw [State.ctl, State.issue_instr hp hmay hfetch (decide_eq_true ho), hf]
  rw [hctl]
  exact State.onTile_tileOnly hp rfl

theorem tileOnly_keeps {s u : State} {p : Nat} (h : TileOnly s u p) :
    u.time = s.time ∧ u.queues = s.queues ∧ u.ctxs = s.ctxs ∧ u.descs = s.descs ∧ u.mem = s.mem :=
  ⟨(congrArg State.time h).trans rfl, (congrArg State.queues h).trans rfl, (congrArg State.ctxs h).trans rfl,
    (congrArg State.descs h).trans rfl, (congrArg State.mem h).trans rfl⟩

/-! The commands -/

theorem tileOk_of_lt {l : Nat} (h : l < 25600) : tileOk l = true := decide_eq_true h

theorem exec_ctlPfx {s : State} {l : Nat} (hl : l < 25600) : exec (.ctlPfx l) s = .next (s.ctl l 0x07 Tile.ctlPfx) :=
  guardWf_next (tileOk_of_lt hl)

theorem exec_ctlSemwait {s : State} {l : Nat} (hl : l < 25600) :
    exec (.ctlSemwait l) s = .next (s.ctl l 0x09 Tile.ctlSemwait) :=
  guardWf_next (tileOk_of_lt hl)

/-- CTL.END on its tile (R129). -/
theorem exec_ctlEnd {s : State} {l : Nat} (hl : l < 25600) : exec (.ctlEnd l) s =
    .next (s.ctl l 0x01 fun _ w => if ctlBareOk w then .wait .fin else .bad .rsvdSet) :=
  guardWf_next (tileOk_of_lt hl)

theorem exec_ctlStep {s : State} {l p w : Nat} (h : AtInstr s l p 0x0A w 16) (hw : ctlBareOk w = true)
    (hin : s.inStep ((s.ptile p).ctx.getD 0) l = true) :
    exec (.ctlStep l) s = .next (s.onTile l fun t => (t.waitFor .step, [])) := by
  obtain ⟨hl, hp, hmay, hfetch, ho⟩ := h
  change execCtlStep l s = _
  rw [execCtlStep, guardWf_next (tileOk_of_lt hl), State.issue_instr hp hmay hfetch (decide_eq_true ho)]
  simp [hw, hin]

/-! Reference time on a tile (R58, R128) -/

/-- The value that CTL.TIME of logical tile `l` reads: near the counter, and not below the tile's last reading. -/
def State.timeRead (s : State) (l : Nat) : W64 :=
  let read := BitVec.ofNat 64 (s.now + (Sys2Proof.Config.freeValue s.free).toNat % 17 - 8)
  let last := SMap.getD s.time.lastRead l 0
  if read.ult last then last else read

/-- The free value is drawn, and the reading noted for logical tile `l`. -/
def State.timeNoted (s : State) (l : Nat) : State :=
  { s with free := s.free + 1, time := { s.time with lastRead := SMap.set s.time.lastRead l (s.timeRead l) } }

@[simp] theorem State.timeNoted_ptile (s : State) (l p : Nat) : (s.timeNoted l).ptile p = s.ptile p := rfl

/-- A reading is the last one or within 8 ns of the counter, and never below the last one. -/
theorem State.timeRead_bounds (s : State) (l : Nat) (hnow : s.now + 8 < 2 ^ 64) :
    (SMap.getD s.time.lastRead l 0).toNat ≤ (s.timeRead l).toNat ∧
      ((s.timeRead l).toNat = (SMap.getD s.time.lastRead l 0).toNat ∨
        ((s.timeRead l).toNat ≤ s.now + 8 ∧ s.now ≤ (s.timeRead l).toNat + 8)) := by
  have hread : (BitVec.ofNat 64 (s.now + (Sys2Proof.Config.freeValue s.free).toNat % 17 - 8)).toNat =
      s.now + (Sys2Proof.Config.freeValue s.free).toNat % 17 - 8 := by
    rw [BitVec.toNat_ofNat]
    omega
  rw [State.timeRead]
  split
  · exact ⟨Nat.le_refl _, .inl rfl⟩
  · next h =>
    simp only [BitVec.ult, hread, decide_eq_true_eq] at h ⊢
    omega

theorem timeCheck_eq_ok {w r : Nat} (h : (timeCheck w).toOption = some r) : timeCheck w = .ok r := by
  cases hc : timeCheck w with
  | error e => rw [hc] at h; cases h
  | ok x =>
    rw [hc] at h
    cases h
    rfl

theorem exec_ctlTime {s : State} {l p w r : Nat} (h : AtInstr s l p 0x0B w 16) (hr : timeCheck w = .ok r) :
    exec (.ctlTime l) s = .next ((s.timeNoted l).onTile l fun t => (t.takeTime r (s.timeRead l), [])) := by
  obtain ⟨hl, hp, hmay, hfetch, ho⟩ := h
  change execCtlTime l s = _
  rw [execCtlTime, guardWf_next (tileOk_of_lt hl), State.issue_instr hp hmay hfetch (decide_eq_true ho), hr]
  rfl

/-! The end of a tile's part (R129) -/

theorem exec_ctlEndDrained {s : State} {l p id : Nat} (hl : l < 25600) (hp : s.phys l = some p)
    (hst : (s.ptile p).cpState = .waiting) (hfin : (s.ptile p).wait = some .fin) (hidle : (s.ptile p).unitsIdle = true)
    (hexec : s.execCount l = 0) (hid : (s.ptile p).launch = some id) :
    exec (.ctlEndDrained l) s = .next ((s.onTile l fun t => (t.partOver, [])).partDone l id) := by
  have htile : s.tile l = s.ptile p := by rw [State.tile, hp]
  change execCtlEndDrained l s = _
  rw [execCtlEndDrained, guardWf_next (tileOk_of_lt hl)]
  simp only [htile, hst, hfin, hidle, hexec, hid, decide_true, Bool.and_self, if_true]
  rfl

/-- The LAUNCH loses the tile from those still running; without any left it is finished (R129, Table 5.6). -/
theorem State.desc?_partDone {s : State} {l id e g n : Nat} {args : List W32} {left : List Nat} {d : Desc}
    (hd : s.desc? id = some d) (hb : d.body = .launch e g args left n) :
    (s.partDone l id).desc? id = some { d with
      body := .launch e g args (left.filter (· ≠ l)) (n + 1), detail := BitVec.ofNat 32 (n + 1)
      st := if (left.filter (· ≠ l)).isEmpty then .finished else d.st } := by
  rw [State.desc?] at hd
  rw [State.desc?, State.partDone, State.modDesc_descs, SMap.get?_adj, if_pos rfl, hd, Option.map_some, hb]

/-! The statement -/

/-- Settles O10: every clause is its command's equation, with what a unit on one tile leaves alone. -/
theorem controlCorePatchesTimeAndWaits : Obligations.ControlCorePatchesTimeAndWaits := by
  refine ⟨fun s l p w hat hf h8 h25 h42 => ?pfxNone,
    fun s l p w o n x hat hf hidle hany ho ho7 hn hin hx hfit hdis => ?pfxSome, fun s l p w hat hr hnow => ?time,
    fun s l p w hat hw => ?fin, fun s l p w hat hf h => ?semHeld, fun s l p w hat hf h => ?semShort,
    fun s l p w hat hw hin => ?step,
    fun s l p id e g n c args left d hl hp hst hfin hidle hexec hid hc hd hb => ?drained⟩
  case pfxNone => exact ⟨_, exec_ctlPfx hat.1, State.ctl_done hat (Tile.ctlPfx_none _ hf h8 h25 h42)⟩
  case pfxSome =>
    exact ⟨_, exec_ctlPfx hat.1, State.ctl_done hat (Tile.ctlPfx_some _ hf hidle hany ho ho7 hn hin hx hfit hdis)⟩
  case time =>
    obtain ⟨-, hp, -⟩ := id hat
    obtain ⟨htile, honly⟩ := State.onTile_tileOnly (s := s.timeNoted l)
      (f := fun t => (t.takeTime (nbits w 8 3) (s.timeRead l), [])) hp rfl
    obtain ⟨htime, hqueues, hctxs, hdescs, hmem⟩ := tileOnly_keeps honly
    obtain ⟨hpc, hwait, hpatches, hsems, hspd⟩ := (s.ptile p).takeTime_keeps (nbits w 8 3) (s.timeRead l)
    refine ⟨_, exec_ctlTime hat (timeCheck_eq_ok hr), ?_⟩
    rw [htile, State.timeNoted_ptile]
    refine ⟨?_, hpc, hwait, hpatches, hsems, hspd, (congrArg RefTime.now htime).trans rfl, hqueues, hctxs, hdescs, hmem⟩
    dsimp only
    rw [Tile.takeTime_value]
    exact s.timeRead_bounds l hnow
  case fin => exact ⟨_, exec_ctlEnd hat.1, State.ctl_wait hat (if_pos hw)⟩
  case semHeld => exact ⟨_, exec_ctlSemwait hat.1, State.ctl_done hat (Tile.ctlSemwait_held _ hf h)⟩
  case semShort => exact ⟨_, exec_ctlSemwait hat.1, State.ctl_wait hat (Tile.ctlSemwait_short _ hf h)⟩
  case step =>
    obtain ⟨-, hp, -⟩ := id hat
    exact ⟨_, exec_ctlStep hat hw hin, State.onTile_tileOnly hp rfl⟩
  case drained =>
    obtain ⟨htile, honly⟩ := State.onTile_tileOnly (s := s) (f := fun t => (t.partOver, [])) hp rfl
    obtain ⟨-, hqueues, hctxs, hdescs, hmem⟩ := tileOnly_keeps honly
    have hdesc : (s.onTile l fun t => (t.partOver, [])).desc? id = some d := (congrArg (SMap.get? · id) hdescs).trans hd
    exact ⟨_, exec_ctlEndDrained hl hp hst hfin hidle hexec hid, htile, State.desc?_partDone hdesc hb, hqueues, hctxs, hmem⟩

end Sys2Proof.Machine
end

section
/-! SUPPORT. The block right after power-on reset, domain by domain (R52, R390, R458, R464). -/
namespace Sys2Proof.Machine

/-- No owner, no fabric key, no session, no challenge, debug shut and the TDISP interface unlocked (R390). -/
theorem reset_unowned : State.reset.sec.st = .unowned ∧ State.reset.sec.owner = none ∧ State.reset.sec.ofab = none ∧
    State.reset.sec.sessions = [] ∧ State.reset.sec.debugOpen = false ∧ State.reset.sec.challenge = 0 ∧
    State.reset.sec.tdi = .unlocked :=
  ⟨rfl, rfl, rfl, rfl, rfl, rfl, rfl⟩

/-- Without keys of a tenancy and without an EXIT_MAINT, the secrets are where they may be. -/
theorem confined_of_empty (x : Sec) (hkey : x.tkey = none) (hload : x.tload = none) (hfab : x.tfab = none)
    (hprev : x.tfabPrev = none) (hmem : x.memKeys = false) (hlog : x.logKey = false) (hexit : x.exiting = false) :
    x.confined = true := by
  simp [Sec.confined, hkey, hload, hfab, hprev, hmem, hlog, hexit]

theorem reset_secretsConfined : State.reset.secretsConfined = true :=
  confined_of_empty State.reset.sec rfl rfl rfl rfl rfl rfl rfl

/-- A tile that nothing has written since reset has its reset values. -/
theorem reset_ptile (p : Nat) : State.reset.ptile p = Tile.reset := rfl

/-- A queue that nothing has written since reset has its reset values. -/
theorem reset_queue (q : Nat) : State.reset.queue q = Queue.reset := rfl

/-- Settles O56: each register's value at reset, and the secrets of a tenancy confined since there are none. -/
theorem resetState : Obligations.ResetState := by
  obtain ⟨hst, howner, hofab, hsessions, hdebug, hchallenge, htdi⟩ := reset_unowned
  refine ⟨⟨hst, howner, hofab, hsessions, hdebug, hchallenge, htdi, reset_secretsConfined⟩, ?timeAndPower, ?engines,
    reset_ptile, reset_queue, ?empty⟩
  case timeAndPower => exact ⟨rfl, rfl, rfl, rfl, rfl, rfl, rfl, rfl, rfl⟩
  case engines => exact ⟨rfl, rfl, rfl, rfl, rfl, rfl, rfl, rfl, rfl, rfl, rfl, rfl⟩
  case empty => exact ⟨rfl, rfl, rfl, rfl, rfl, rfl, rfl⟩

end Sys2Proof.Machine
end


section
/-! SUPPORT. What the effects that a tile's unit asks for do to the tiles, and the program fault among them (R138, R176,
R360, R361). -/
namespace Sys2Proof

/-- An entry that a filtered change of a map passes over reads as before. -/
theorem SMap.get?_changed_other {α : Type} [DecidableEq α] {f : Nat → α → Bool} {g : α → α} {d v : α} {k : Nat}
    (hf : f k v = false) (hd : v ≠ d) : ∀ {m : SMap α}, SMap.get? m k = some v →
    SMap.get? ((m.map fun e => if f e.1 e.2 then (e.1, g e.2) else e).filter fun e => e.2 ≠ d) k = some v := by
  intro m
  induction m with
  | nil => exact id
  | cons e m ih =>
    intro h
    rw [SMap.get?_cons] at h
    by_cases hk : e.1 = k
    · obtain rfl : e.2 = v := Option.some.inj ((if_pos hk).symm.trans h)
      simp [hk, hf, hd, SMap.get?_cons]
    · have hrest := ih ((if_neg hk).symm.trans h)
      have hkey : (if f e.1 e.2 then (e.1, g e.2) else e).1 ≠ k := by split <;> exact hk
      rw [List.map_cons]
      generalize (if f e.1 e.2 then (e.1, g e.2) else e) = e' at hkey ⊢
      rw [List.filter_cons]
      split
      · rw [SMap.get?_cons, if_neg hkey, hrest]
      · exact hrest

/-- The tile's program is to fault. -/
def TEff.isFault : TEff → Bool
  | .fault _ _ => true
  | _ => false

end Sys2Proof

namespace Sys2Proof.Machine

/-- The tiles, and where logical tiles stand. -/
def State.placed (s : State) : SMap Tile × SMap (Option Nat) := (s.tiles, s.remap)

theorem State.ptile_of_placed {s u : State} (h : u.placed = s.placed) (p : Nat) : u.ptile p = s.ptile p := by
  rw [State.ptile, (Prod.mk.inj h).1, State.ptile]

theorem State.phys_of_placed {s u : State} (h : u.placed = s.placed) (l : Nat) : u.phys l = s.phys l := by
  rw [State.phys, (Prod.mk.inj h).2, State.phys]

/-! Effects other than a fault -/

@[simp] theorem State.setFlag_placed (s : State) (c : Nat) (psn : Bool) : (s.setFlag c psn).placed = s.placed := by
  unfold State.setFlag
  split
  · rfl
  · extract_lets fresh late t
    split <;> rfl

@[simp] theorem State.setHealth_placed (s : State) (p : Nat) (h : Health) : (s.setHealth p h).placed = s.placed := rfl

@[simp] theorem State.addScore_placed (s : State) (p w : Nat) : (s.addScore p w).placed = s.placed := by
  unfold State.addScore
  dsimp only
  split <;> rfl

@[simp] theorem State.dueTile_placed (s : State) (p cause : Nat) : (s.dueTile p cause).placed = s.placed := by
  unfold State.dueTile
  split <;> rfl

@[simp] theorem State.incident_placed (s : State) (p rows tbin nbr : Nat) :
    (s.incident p rows tbin nbr).placed = s.placed := by
  unfold State.incident
  dsimp only
  split <;> simp

@[simp] theorem State.correctedReads_placed (s : State) (p n : Nat) : (s.correctedReads p n).placed = s.placed := by
  unfold State.correctedReads
  dsimp only
  split <;> simp

/-- No effect but a fault changes a tile. -/
theorem State.applyEff_placed (s : State) (l p : Nat) {e : TEff} (h : e.isFault = false) :
    (s.applyEff l p e).placed = s.placed := by
  cases e with
  | fault st pc => cases h
  | signal sem pc => rfl
  | event code a => rfl
  | incident rows tb nb => exact s.incident_placed p rows tb nb
  | ue st => exact s.dueTile_placed p 3
  | ce n => exact s.correctedReads_placed p n
  | ovf | psn =>
    unfold State.applyEff
    dsimp only
    split
    · exact State.setFlag_placed _ _ _
    · rfl
  | skipped =>
    unfold State.applyEff
    dsimp only
    split <;> rfl

theorem State.applyEffs_placed (s : State) (l p : Nat) {es : List TEff} (h : ∀ e ∈ es, e.isFault = false) :
    (es.foldl (fun s e => s.applyEff l p e) s).placed = s.placed :=
  List.foldlRecOn (motive := fun u : State => u.placed = s.placed) es _ rfl
    fun u hu e he => (u.applyEff_placed l p (h e he)).trans hu

/-! The fault of a tile program (R138) -/

/-- A faulted program is not among those that a change of active tiles reaches. -/
theorem State.mapTiles_ptile_faulted (s : State) {p : Nat} {f : Nat → Tile → Bool} (g : Tile → Tile)
    (h : (s.ptile p).cpState = .faulted) (hf : f p (s.ptile p) = false) : (s.mapTiles f g).ptile p = s.ptile p := by
  have hne : s.ptile p ≠ Tile.reset := fun heq => by
    rw [heq] at h
    cases h
  have hget : SMap.get? s.tiles p = some (s.ptile p) := by
    cases hc : SMap.get? s.tiles p with
    | none => exact absurd (by rw [State.ptile, SMap.getD, hc]; rfl) hne
    | some t => rw [State.ptile, SMap.getD, hc]; rfl
  rw [State.ptile, SMap.getD, State.mapTiles, SMap.get?_changed_other hf hne hget]
  rfl

/-- The entry of a context into the faulted state stops other programs only. -/
theorem State.enterFaulted_ptile (s : State) (c : Nat) (st : Status) (src : Nat) (lead : Option Nat) {p : Nat}
    (h : (s.ptile p).cpState = .faulted) : (s.enterFaulted c st src lead).ptile p = s.ptile p := by
  have hmap : (s.mapTiles (fun _ t => t.ctx = some c && t.active) fun t => t.fault .ok t.faultPc.toNat).ptile p =
      s.ptile p := s.mapTiles_ptile_faulted _ h (by simp [Tile.active, h])
  unfold State.enterFaulted
  split
  · rfl
  · refine Eq.trans ?_ hmap
    exact List.foldlRecOn (motive := fun u : State => u.ptile p = State.ptile _ p) _ _ rfl
      fun u hu id _ => by split <;> exact hu

/-- The program of a mapped tile stands faulted, with its status and address. -/
theorem State.faultTile_ptile {s : State} {l p : Nat} (st : Status) (pc : Nat) (hp : s.phys l = some p) :
    (s.faultTile l st pc).ptile p = (s.ptile p).fault st pc := by
  have hset : (s.setTile l ((s.tile l).fault st pc)).ptile p = (s.ptile p).fault st pc := by
    simp [State.setTile, State.tile, hp]
  unfold State.faultTile
  dsimp only
  split
  · exact (State.enterFaulted_ptile _ _ _ _ _ (by rw [hset]; rfl)).trans hset
  · exact hset

/-! A unit's step -/

theorem State.noteWait_placed (s : State) (p l : Nat) (a b : Tile) : (s.noteWait p l a b).placed = s.placed := by
  rw [State.noteWait_eq]
  rfl

/-- A unit whose wait is as it was leaves no note. -/
theorem State.noteWait_same (s : State) (p l : Nat) {a b : Tile} (h : b.wait = a.wait) : s.noteWait p l a b = s := by
  unfold State.noteWait
  simp only [h, if_true]
  split <;> rfl

/-- A unit that asks for nothing leaves the tile it answers, and changes nothing else. -/
theorem State.onTile_step {s : State} {l p : Nat} {f : Tile → TStep} {t : Tile} (hp : s.phys l = some p)
    (hf : f (s.ptile p) = (t, [])) : (s.onTile l f).ptile p = t ∧ TileOnly s (s.onTile l f) p := by
  have h := State.onTile_tileOnly hp (congrArg Prod.snd hf)
  rwa [hf] at h

/-- The tiles after a unit's step whose effects hold no fault. -/
theorem State.onTile_placed {s : State} {l p : Nat} {f : Tile → TStep} {t : Tile} {es : List TEff}
    (hp : s.phys l = some p) (hf : f (s.ptile p) = (t, es)) (hes : ∀ e ∈ es, e.isFault = false) :
    (s.onTile l f).placed = (s.setPtile p t).placed := by
  have h : s.onTile l f =
      es.foldl (fun s e => s.applyEff l p e) ((s.setPtile p t).noteWait p l (s.ptile p) t) := by
    simp [State.onTile, hp, hf]
  rw [h, State.applyEffs_placed _ _ _ hes, State.noteWait_placed]

/-- Effects without a fault leave the tile as the unit answers it. -/
theorem State.onTile_ptile {s : State} {l p : Nat} {f : Tile → TStep} {t : Tile} {es : List TEff}
    (hp : s.phys l = some p) (hf : f (s.ptile p) = (t, es)) (hes : ∀ e ∈ es, e.isFault = false) :
    (s.onTile l f).ptile p = t :=
  (State.ptile_of_placed (State.onTile_placed hp hf hes) p).trans (s.ptile_setPtile_self p t)

/-- A unit's step that ends with a fault leaves its tile's program faulted. -/
theorem State.onTile_ptile_fault {s : State} {l p pc : Nat} {f : Tile → TStep} {t : Tile} {es : List TEff} {st : Status}
    (hp : s.phys l = some p) (hf : f (s.ptile p) = (t, es ++ [.fault st pc])) (hes : ∀ e ∈ es, e.isFault = false) :
    (s.onTile l f).ptile p = t.fault st pc := by
  have hbefore : s.onTile l f = (s.onTile l fun _ => (t, es)).faultTile l st pc := by
    simp [State.onTile, hp, hf, State.applyEff]
  have hplaced := State.onTile_placed (f := fun _ => (t, es)) hp rfl hes
  rw [hbefore, State.faultTile_ptile st pc ((State.phys_of_placed hplaced l).trans hp),
    State.ptile_of_placed hplaced, State.ptile_setPtile_self]

/-- A unit's step that may ask for a signal changes its tile and the signals in flight. -/
theorem State.onTile_signals {s : State} {l p sem pc : Nat} {f : Tile → TStep} {t : Tile} {b : Bool}
    (hp : s.phys l = some p) (hf : f (s.ptile p) = (t, if b then [.signal sem pc] else []))
    (hw : t.wait = (s.ptile p).wait) :
    (s.onTile l f).ptile p = t ∧
      (s.onTile l f).sigs =
        (if b then s.sigs ++ [⟨l, sem, 1, none, some pc, none, t.ctx.getD 0, none⟩] else s.sigs) ∧
      TileOnly { s with sigs := (s.onTile l f).sigs } (s.onTile l f) p := by
  have hstep : s.onTile l f = { s.setPtile p t with
      sigs := if b then s.sigs ++ [⟨l, sem, 1, none, some pc, none, t.ctx.getD 0, none⟩] else s.sigs } := by
    have hrun : s.onTile l f =
        (if b then [TEff.signal sem pc] else []).foldl (fun s e => s.applyEff l p e) (s.setPtile p t) := by
      simp [State.onTile, hp, hf, State.noteWait_same _ _ _ hw]
    rw [hrun]
    cases b with
    | false => rfl
    | true => simp [State.applyEff, State.signal]
  have htile : (s.onTile l f).ptile p = t := by
    rw [hstep]
    exact s.ptile_setPtile_self p t
  refine ⟨htile, by rw [hstep], ?_⟩
  rw [TileOnly, htile, hstep]
  rfl

theorem tileOnly_phys {s u : State} {p : Nat} (h : TileOnly s u p) (l : Nat) : u.phys l = s.phys l := by
  rw [State.phys, congrArg State.remap h, State.phys]

end Sys2Proof.Machine
end

section
/-! SUPPORT. The Anvil: passes accepted and rejected, weight blocks, rows that land, and completion (R63, R68 to R75, R78 to
R83, R127, R138). -/
namespace Sys2Proof

/-- A check that lets its encoding pass. -/
theorem eq_ok_of_toOption {α : Type} {c : Except Status α} {x : α} (h : c.toOption = some x) : c = .ok x := by
  cases c with
  | error e => cases h
  | ok y =>
    cases h
    rfl

/-! Loading and issuing (R63, R68 to R71, R78) -/

/-- An image without an uncorrectable word goes into the pending registers. -/
theorem Tile.anvLoad_clean {t : Tile} {i : Nat} {j : AnvJob} (hdue : t.anvLoadDue = some (i, j))
    (hue : t.spdUeIn j.pass.wAddr (imageBytes j.pass.wfmt) = 0) :
    t.anvLoad = ({ t with
      anvPending := some (t.readBlock j.pass)
      anvJobs := listSet t.anvJobs i { j with loaded := true } }, []) := by
  simp only [Tile.anvLoad, hdue, hue, if_true]

/-- Without an uncorrectable scratchpad word every row is usable. -/
theorem Tile.passRow_usable {t : Tile} (h : t.spdUe = []) (q : AnvPass) (b : WBlock) (m : Nat) :
    (t.passRow q b m).ue = false := by
  simp [Tile.passRow, Tile.rowUe, h]

/-- The first unissued pass, its block `b` at hand, streams all its rows. -/
theorem Tile.anvIssue_clean {t : Tile} {i : Nat} {j : AnvJob} {b : WBlock} (hue : t.spdUe = [])
    (hi : t.anvJobs.findIdx? (fun j => !j.issued) = some i) (hj : t.anvJobs[i]? = some j)
    (hb : (if j.pass.neww then (if j.loaded then t.anvPending else none) else t.anvActive) = some b) :
    t.anvIssue = ({ t with
      anvActive := some b, anvPending := if j.pass.neww then none else t.anvPending
      anvJobs := listSet t.anvJobs i
        { j with issued := true, rows := (List.range j.pass.m).map (t.passRow j.pass b) } }, []) := by
  have hbad : (((List.range j.pass.m).map (t.passRow j.pass b)).filter (·.ue)).length = 0 := by
    simp [Tile.passRow_usable hue]
  simp only [Tile.anvIssue, jobIdx, hi, hj, hb, hbad, Tile.countSpdUe, if_true]

/-! Writing a row (R63, R75) -/

/-- Between `t` and `u` nothing differs but the accumulator file: its elements and their marks. -/
def Tile.AccOnly (t u : Tile) : Prop := u = { t with acc := u.acc, accUe := u.accUe }

theorem Tile.accOnly_refl (t : Tile) : t.AccOnly t := rfl

theorem Tile.AccOnly.trans {t u v : Tile} (h : t.AccOnly u) (h' : u.AccOnly v) : t.AccOnly v := by
  rw [Tile.AccOnly] at h ⊢
  rw [h] at h'
  exact h'

theorem Tile.AccOnly.anvJobs {t u : Tile} (h : t.AccOnly u) : u.anvJobs = t.anvJobs :=
  (congrArg Tile.anvJobs h).trans rfl

theorem Tile.AccOnly.anvNonfinite {t u : Tile} (h : t.AccOnly u) : u.anvNonfinite = t.anvNonfinite :=
  (congrArg Tile.anvNonfinite h).trans rfl

theorem Tile.AccOnly.anvSkipped {t u : Tile} (h : t.AccOnly u) : u.anvSkipped = t.anvSkipped :=
  (congrArg Tile.anvSkipped h).trans rfl

theorem Tile.accOnly_foldl {α : Type} (t : Tile) (ns : List α) {g : Tile → α → Tile}
    (hg : ∀ u n, Tile.AccOnly u (g u n)) : t.AccOnly (ns.foldl g t) :=
  List.foldlRecOn (motive := fun u : Tile => t.AccOnly u) ns g t.accOnly_refl fun u hu n _ => hu.trans (hg u n)

theorem Tile.accWr_accOnly (t : Tile) (e : Nat) (v : W32) : t.AccOnly (t.accWr e v) := rfl

theorem Tile.writeRow_accOnly (t : Tile) (acc : Bool) (r : Nat) (v : List W32) : t.AccOnly (t.writeRow acc r v).1 := by
  unfold Tile.writeRow
  extract_lets bad outs
  split
  · exact t.accOnly_refl
  · exact t.accOnly_foldl _ fun u n => u.accWr_accOnly _ _

theorem Tile.writeEmpty_accOnly (t : Tile) (q : AnvPass) : t.AccOnly (t.writeEmpty q) := by
  unfold Tile.writeEmpty
  split
  · exact t.accOnly_refl
  · exact t.accOnly_foldl _ fun u _ => u.accOnly_foldl _ fun w _ => w.accWr_accOnly _ _

/-- A row that adds to nothing uncorrectable is written whole. -/
theorem Tile.writeRow_whole {t : Tile} {acc : Bool} (h : acc = false ∨ t.accUe = []) (r : Nat) (v : List W32) :
    (t.writeRow acc r v).2.1 = 0 := by
  have hbad : (if acc then (t.accUe.filter fun e => decide (16 * r ≤ e) && decide (e < 16 * r + v.length)).length
      else 0) = 0 := by
    rcases h with h | h <;> simp [h]
  unfold Tile.writeRow
  simp only [hbad, ne_eq, not_true_eq_false, if_false]

/-! Comparing a row (R82 to R84) -/

/-- A comparison that is not made counts as skipped. -/
theorem Tile.abftRow_skipped {j : AnvJob} {row : AnvRow} (h : abftCompare j.tol.toNat row.p row.c = none) (t : Tile)
    (r tbin nbr : Nat) :
    t.abftRow j row r tbin nbr = ({ t with anvSkipped := satInc t.anvSkipped, anvNonfinite := true }, j, []) := by
  simp only [Tile.abftRow, h]

/-- A check value within the tolerance changes nothing. -/
theorem Tile.abftRow_within {j : AnvJob} {row : AnvRow} (h : abftCompare j.tol.toNat row.p row.c = some false) (t : Tile)
    (r tbin nbr : Nat) : t.abftRow j row r tbin nbr = (t, j, []) := by
  simp only [Tile.abftRow, h]

/-- The tile that counts a mismatch of row `r` and captures it. -/
def Tile.mismatchAt (t : Tile) (r tbin nbr : Nat) : Tile :=
  { t with
    anvMismatches := satInc t.anvMismatches, anvMismatch := true
    anvTbin := BitVec.ofNat 5 tbin, anvNbr := BitVec.ofNat 4 nbr, anvAccRow := BitVec.ofNat 9 r }

/-- The pass that counts a mismatched row, with the captures of the first one. -/
def AnvJob.mismatchAt (j : AnvJob) (tbin nbr : Nat) : AnvJob :=
  { j with
    mism := j.mism + 1, tbin := if j.mism = 0 then tbin else j.tbin, nbr := if j.mism = 0 then nbr else j.nbr }

/-- Under ACTION 0 and 1 a mismatch is counted, and ACTION 1 sets PSN; no program faults. -/
theorem Tile.abftRow_counted {j : AnvJob} {row : AnvRow} (h : abftCompare j.tol.toNat row.p row.c = some true)
    (hact : j.act ≠ 2) (t : Tile) (r tbin nbr : Nat) :
    ∃ es : List TEff, (∀ e ∈ es, e.isFault = false) ∧ t.abftRow j row r tbin nbr =
      ({ t.mismatchAt r tbin nbr with psn := decide (j.act = 1) || t.psn }, j.mismatchAt tbin nbr, es) := by
  by_cases h1 : j.act = 1
  · refine ⟨[.event 0x0301 (t.mismatchAt r tbin nbr).abftLast, .psn], by simp [TEff.isFault], ?_⟩
    rw [Tile.abftRow, h, decide_eq_true h1]
    exact if_pos h1
  · refine ⟨[.event 0x0301 (t.mismatchAt r tbin nbr).abftLast], by simp [TEff.isFault], ?_⟩
    rw [Tile.abftRow, h, decide_eq_false h1]
    exact (if_neg h1).trans (if_neg hact)

/-- Under ACTION 2 a mismatch is counted, reported, and faults the tile program at the pass. -/
theorem Tile.abftRow_faults {j : AnvJob} {row : AnvRow} (h : abftCompare j.tol.toNat row.p row.c = some true)
    (hact : j.act = 2) (t : Tile) (r tbin nbr : Nat) :
    ∃ es : List TEff, (∀ e ∈ es, e.isFault = false) ∧ t.abftRow j row r tbin nbr =
      (t.mismatchAt r tbin nbr, j.mismatchAt tbin nbr, es ++ [.fault .abftMismatch j.pc]) := by
  refine ⟨[.event 0x0301 (t.mismatchAt r tbin nbr).abftLast,
    .incident (j.mismatchAt tbin nbr).mism (j.mismatchAt tbin nbr).tbin (j.mismatchAt tbin nbr).nbr],
    by simp [TEff.isFault], ?_⟩
  have h1 : j.act ≠ 1 := by rw [hact]; decide
  rw [Tile.abftRow, h]
  exact (if_neg h1).trans (if_pos hact)

/-! Landing (R75, R80, R82, R83) -/

/-- All rows of a pass with K = 0 land at once (R75). -/
theorem Tile.anvLand_empty {t : Tile} {i r : Nat} {j : AnvJob} (hdue : t.landDue = some (i, j, r)) (hk : j.pass.k = 0)
    (errs : List (Nat × W32)) (tbin nbr : Nat) : t.anvLand errs tbin nbr =
      ({ t.writeEmpty j.pass with anvJobs := listSet t.anvJobs i { j with landed := j.pass.m } }, []) := by
  simp only [Tile.anvLand, hdue, hk, if_true, (t.writeEmpty_accOnly j.pass).anvJobs]

/-- The tile once values `v` stand in row `r`, before they are compared. -/
def Tile.rowIn (t : Tile) (acc : Bool) (r : Nat) (v : List W32) : Tile :=
  { (t.writeRow acc r v).1 with anvNonfinite := t.anvNonfinite || (t.writeRow acc r v).2.2 }

/-- Besides the accumulator file only NONFINITE may change as a row is written. -/
theorem Tile.rowIn_eq (t : Tile) (acc : Bool) (r : Nat) (v : List W32) : t.rowIn acc r v =
    { t with
      acc := (t.writeRow acc r v).1.acc, accUe := (t.writeRow acc r v).1.accUe
      anvNonfinite := t.anvNonfinite || (t.writeRow acc r v).2.2 } :=
  congrArg (fun u : Tile => { u with anvNonfinite := t.anvNonfinite || (t.writeRow acc r v).2.2 })
    (t.writeRow_accOnly acc r v)

/-- A pass with one row more landed. -/
def AnvJob.rowLanded (j : AnvJob) : AnvJob := { j with landed := j.landed + 1 }

section
variable {t t' : Tile} {i r : Nat} {j j' : AnvJob} {row : AnvRow} {errs : List (Nat × W32)} {tbin nbr : Nat}
  {es : List TEff}

/-- A usable row that is written whole comes to what its comparison answers; its own fault empties the Anvil's queue. -/
theorem Tile.anvLand_row (hdue : t.landDue = some (i, j, r)) (hk : j.pass.k ≠ 0)
    (hrow : injectErr (j.rows.getD j.landed ⟨[], 0, true⟩) errs = row) (hue : row.ue = false)
    (hacc : j.pass.acc = false ∨ t.accUe = [])
    (habft : (t.rowIn j.pass.acc r row.p).abftRow j.rowLanded row r tbin nbr = (t', j', es)) :
    t.anvLand errs tbin nbr =
      if es.any fun e => decide (e = .fault .abftMismatch j'.pc) then ({ t' with anvJobs := [] }, es)
      else ({ t' with anvJobs := listSet t'.anvJobs i j' }, es) := by
  have hwrite : t.writeRow j.pass.acc r row.p =
      ((t.writeRow j.pass.acc r row.p).1, 0, (t.writeRow j.pass.acc r row.p).2.2) :=
    Prod.ext rfl (Prod.ext (Tile.writeRow_whole hacc r row.p) rfl)
  rw [Tile.rowIn, ← (t.writeRow_accOnly j.pass.acc r row.p).anvNonfinite, AnvJob.rowLanded] at habft
  rw [Tile.anvLand, hdue]
  dsimp only
  rw [if_neg hk, hrow, hue, hwrite]
  simp only [Bool.false_eq_true, if_false, Tile.countAccUe, if_true, habft, List.nil_append]

/-- A comparison that faults no program leaves the pass in the queue, one row further. -/
theorem Tile.anvLand_row_lands (hdue : t.landDue = some (i, j, r)) (hk : j.pass.k ≠ 0)
    (hrow : injectErr (j.rows.getD j.landed ⟨[], 0, true⟩) errs = row) (hue : row.ue = false)
    (hacc : j.pass.acc = false ∨ t.accUe = [])
    (habft : (t.rowIn j.pass.acc r row.p).abftRow j.rowLanded row r tbin nbr = (t', j', es))
    (hes : ∀ e ∈ es, e.isFault = false) :
    t.anvLand errs tbin nbr = ({ t' with anvJobs := listSet t'.anvJobs i j' }, es) := by
  rw [Tile.anvLand_row hdue hk hrow hue hacc habft, if_neg]
  rw [List.any_eq_true]
  rintro ⟨e, he, hfault⟩
  have := hes e he
  rw [of_decide_eq_true hfault] at this
  cases this

/-- A comparison that faults the tile program empties the Anvil's queue. -/
theorem Tile.anvLand_row_faults (hdue : t.landDue = some (i, j, r)) (hk : j.pass.k ≠ 0)
    (hrow : injectErr (j.rows.getD j.landed ⟨[], 0, true⟩) errs = row) (hue : row.ue = false)
    (hacc : j.pass.acc = false ∨ t.accUe = [])
    (habft : (t.rowIn j.pass.acc r row.p).abftRow j.rowLanded row r tbin nbr =
      (t', j', es ++ [.fault .abftMismatch j'.pc])) :
    t.anvLand errs tbin nbr = ({ t' with anvJobs := [] }, es ++ [.fault .abftMismatch j'.pc]) := by
  rw [Tile.anvLand_row hdue hk hrow hue hacc habft, if_pos (by simp)]

end

/-! Completion (R79, R127) -/

/-- An issued pass without a mismatch whose rows have landed leaves the queue, and signals when SIG is set. -/
theorem Tile.anvComplete_clean {t : Tile} {j : AnvJob} {js : List AnvJob} (hjobs : t.anvJobs = j :: js)
    (hissued : j.issued = true) (hdue : j.due = 0) (hmism : j.mism = 0) : t.anvComplete =
      ({ t with anvJobs := js, anvPasses := if j.pass.real then t.anvPasses + 1 else t.anvPasses },
        if j.pass.sig then [.signal j.pass.sem j.pc] else []) := by
  simp [Tile.anvComplete, hjobs, hissued, hdue, hmism]

end Sys2Proof

namespace Sys2Proof.Machine

/-! The commands -/

theorem exec_anvPass_accepts {s : State} {l p w : Nat} {q : AnvPass} (h : AtInstr s l p 0x10 w 16)
    (hq : anvCheck (s.ptile p) (broadcastTile l) w = .ok q) : exec (.anvPass l) s = .next (s.onTile l fun t =>
      if t.anvFull then (t.waitFor .unit, []) else ((t.anvAccept q t.pc).advance 16, [])) := by
  obtain ⟨hl, hp, hmay, hfetch, ho⟩ := h
  change execAnvPass l s = _
  rw [execAnvPass, guardWf_next (tileOk_of_lt hl), State.issue_instr hp hmay hfetch (decide_eq_true ho), hq]

theorem exec_anvPass_rejects {s : State} {l p w : Nat} {e : Status} (h : AtInstr s l p 0x10 w 16)
    (hq : anvCheck (s.ptile p) (broadcastTile l) w = .error e) : exec (.anvPass l) s =
      .next ((s.onTile l fun t => (t.anvRejectWith e, [])).faultTile l e (s.ptile p).pc) := by
  obtain ⟨hl, hp, hmay, hfetch, ho⟩ := h
  change execAnvPass l s = _
  rw [execAnvPass, guardWf_next (tileOk_of_lt hl), State.issue_instr hp hmay hfetch (decide_eq_true ho), hq]

theorem exec_anvWeightLoad {s : State} {l : Nat} (hl : l < 25600) :
    exec (.anvWeightLoad l []) s = .next (s.onTile l Tile.anvLoad) :=
  guardWf_next (tileOk_of_lt hl)

theorem exec_anvPassIssue {s : State} {l : Nat} (hl : l < 25600) :
    exec (.anvPassIssue l []) s = .next (s.onTile l Tile.anvIssue) :=
  guardWf_next (tileOk_of_lt hl)

theorem exec_anvRowLand {s : State} {l : Nat} {errs : List (Nat × W32)} (hl : l < 25600)
    (herrs : (errs.all fun x => decide (x.1 ≤ 16)) = true) : exec (.anvRowLand l [] errs) s =
      .next (s.onTile l fun t => t.anvLand errs (s.tbin (logDie l)) (s.nbr l)) :=
  guardWf_next (Bool.and_eq_true_iff.mpr ⟨tileOk_of_lt hl, herrs⟩)

theorem exec_anvPassComplete {s : State} {l : Nat} (hl : l < 25600) :
    exec (.anvPassComplete l) s = .next (s.onTile l Tile.anvComplete) :=
  guardWf_next (tileOk_of_lt hl)

/-! The statements -/

/-- Settles O2: an accepted pass is a unit's quiet step; a rejected one is that step and then the fault of its program. -/
theorem anvPassIsAcceptedOrFaults : Obligations.AnvPassIsAcceptedOrFaults := by
  refine ⟨fun s l p w q hat hq hroom => ?accepted, fun s l p w e hat he => ?rejected⟩
  case accepted =>
    obtain ⟨-, hp, -⟩ := id hat
    exact ⟨_, exec_anvPass_accepts hat (eq_ok_of_toOption hq), State.onTile_step hp (if_neg (by simp [hroom]))⟩
  case rejected =>
    have herr : anvCheck (s.ptile p) (broadcastTile l) w = .error e := by
      cases hc : anvCheck (s.ptile p) (broadcastTile l) w with
      | error x => rw [hc] at he; cases he; rfl
      | ok x => rw [hc] at he; cases he
    obtain ⟨-, hp, -⟩ := id hat
    obtain ⟨htile, honly⟩ := State.onTile_step (f := fun t => (t.anvRejectWith e, [])) hp rfl
    refine ⟨_, exec_anvPass_rejects hat herr, ?_⟩
    rw [State.faultTile_ptile e _ ((tileOnly_phys honly l).trans hp), htile]
    exact ⟨rfl, rfl, rfl, rfl, rfl, rfl, rfl, rfl⟩

/-- Settles O3: each command is its unit's step on the tile, met without a storage error. -/
theorem anvilLoadsAndIssues : Obligations.AnvilLoadsAndIssues := by
  refine ⟨fun s l p i j hl hp hdue hue => ?load, fun s l p i j b hl hp hue hi hj hb => ?issue⟩
  case load => exact ⟨_, exec_anvWeightLoad hl, State.onTile_step hp (Tile.anvLoad_clean hdue hue)⟩
  case issue => exact ⟨_, exec_anvPassIssue hl, State.onTile_step hp (Tile.anvIssue_clean hue hi hj hb)⟩

/-- Settles O4: a landing is its row written and then compared, case by case of the comparison. -/
theorem anvilLandsChecksAndCompletes : Obligations.AnvilLandsChecksAndCompletes := by
  refine ⟨fun s l p i r errs j hl herrs hp hdue hk hacc hue hcmp => ?within,
    fun s l p i r errs j hl herrs hp hdue hk hacc hue hcmp => ?skipped,
    fun s l p i r errs j hl herrs hp hdue hk => ?empty,
    fun s l p j js hl hp hjobs hissued hdue hmism => ?completes,
    fun s l p i r errs j hl herrs hp hdue hk _ hue hacc hact hcmp => ?counted,
    fun s l p i r errs j hl herrs hp hdue hk _ hue hacc hact _ hcmp => ?faults⟩
  case within =>
    have hland := Tile.anvLand_row_lands (tbin := s.tbin (logDie l)) (nbr := s.nbr l) hdue hk rfl hue (.inr hacc)
      (Tile.abftRow_within (j := j.rowLanded) hcmp _ _ _ _) (by simp)
    rw [Tile.rowIn, ((s.ptile p).writeRow_accOnly _ _ _).anvJobs] at hland
    exact ⟨_, exec_anvRowLand hl herrs, State.onTile_step hp hland⟩
  case skipped =>
    have hland := Tile.anvLand_row_lands (tbin := s.tbin (logDie l)) (nbr := s.nbr l) hdue hk rfl hue (.inr hacc)
      (Tile.abftRow_skipped (j := j.rowLanded) hcmp _ _ _ _) (by simp)
    have hrow := (s.ptile p).writeRow_accOnly j.pass.acc r (injectErr (j.rows.getD j.landed ⟨[], 0, true⟩) errs).p
    rw [Tile.rowIn, hrow.anvJobs, hrow.anvSkipped] at hland
    exact ⟨_, exec_anvRowLand hl herrs, State.onTile_step hp hland⟩
  case empty => exact ⟨_, exec_anvRowLand hl herrs, State.onTile_step hp (Tile.anvLand_empty hdue hk _ _ _)⟩
  case completes =>
    exact ⟨_, exec_anvPassComplete hl, State.onTile_signals hp (Tile.anvComplete_clean hjobs hissued hdue hmism) rfl⟩
  case counted =>
    obtain ⟨es, hes, habft⟩ := Tile.abftRow_counted (j := j.rowLanded) hcmp hact
      ((s.ptile p).rowIn j.pass.acc r (injectErr (j.rows.getD j.landed ⟨[], 0, true⟩) errs).p) r
      (s.tbin (logDie l)) (s.nbr l)
    have hland := Tile.anvLand_row_lands hdue hk rfl hue (.inl hacc) habft hes
    refine ⟨_, exec_anvRowLand hl herrs, ?_⟩
    rw [State.onTile_ptile hp hland hes, hacc, Tile.rowIn_eq]
    exact ⟨rfl, rfl, rfl, rfl, rfl, rfl, rfl⟩
  case faults =>
    obtain ⟨es, hes, habft⟩ := Tile.abftRow_faults (j := j.rowLanded) hcmp hact
      ((s.ptile p).rowIn j.pass.acc r (injectErr (j.rows.getD j.landed ⟨[], 0, true⟩) errs).p) r
      (s.tbin (logDie l)) (s.nbr l)
    have hland := Tile.anvLand_row_faults hdue hk rfl hue (.inl hacc) habft
    refine ⟨_, exec_anvRowLand hl herrs, ?_⟩
    rw [State.onTile_ptile_fault hp hland hes, Tile.rowIn_eq]
    exact ⟨rfl, rfl, rfl, rfl, rfl, rfl⟩

end Sys2Proof.Machine
end

section
/-! SUPPORT. The vector engine: instructions accepted, and groups of an instruction whose scalar operand could not be read
(R90, R91, R96 to R100, R102, R111). -/
namespace Sys2Proof

/-! Accepting (R111, R180) -/

/-- An accepted instruction joins the queue at its place and PC goes past it; its outcome is open only where it is a
VEC.SRST that waits for the vote. -/
theorem Tile.vecAccept_advance {t : Tile} {q : VecOp} {vote : Bool} {o : Option Bool}
    (ho : (if q.srst && vote then none else some true) = o) (step : W32) (n : Nat) :
    (t.vecAccept q t.pc vote step).advance n = { t with
      vecJobs := t.vecJobs ++ [⟨q, t.pc, t.seq, 0, none, o, none, SumAcc.empty, none, q.smv, step⟩]
      seq := t.seq + 1, pc := t.pc + n, patches := [], cpState := .running, wait := none } := by
  rw [Tile.vecAccept, ho]
  rfl

/-! What writing and counting leave alone (R90, R91, R96) -/

theorem Tile.spdWriteSet_vecJobs (t : Tile) (bs : List (Nat × Byte)) : (t.spdWriteSet bs).vecJobs = t.vecJobs := rfl

theorem Tile.storeElems_vecJobs (t : Tile) (o : VecOp) (x : Nat) (ls : List LaneRes) (rnd : Nat → W32 → Nat × Bool) :
    (t.storeElems o x ls rnd).1.vecJobs = t.vecJobs := by
  unfold Tile.storeElems
  extract_lets enc
  split
  · exact List.foldlRecOn (motive := fun u : Tile => u.vecJobs = t.vecJobs) ls _ rfl
      fun u hu _ _ => (u.spdWriteSet_vecJobs _).trans hu
  · exact t.spdWriteSet_vecJobs _

theorem Tile.storeBlock_vecJobs (t : Tile) (o : VecOp) (b : Nat) (ls : List LaneRes) :
    (t.storeBlock o b ls).1.vecJobs = t.vecJobs := by
  unfold Tile.storeBlock
  split
  · rfl
  · exact (Tile.spdWriteSet_vecJobs _ _).trans (t.storeElems_vecJobs o _ ls _)

theorem Tile.AccOnly.vecJobs {t u : Tile} (h : t.AccOnly u) : u.vecJobs = t.vecJobs :=
  (congrArg Tile.vecJobs h).trans rfl

/-- Writing a group's results leaves the queue of vector instructions alone. -/
theorem Tile.storeGroup_vecJobs (t : Tile) (j : VecJob) (ls : List LaneRes) (rnd : Nat → W32 → Nat × Bool) :
    (t.storeGroup j ls rnd).1.vecJobs = t.vecJobs := by
  unfold Tile.storeGroup
  extract_lets o
  split
  · exact (t.accOnly_foldl ls fun u n => u.accWr_accOnly _ _).vecJobs
  · split
    · exact (Tile.storeBlock_vecJobs _ _ _ _).trans (t.storeBlock_vecJobs _ _ _)
    · exact t.storeElems_vecJobs _ _ _ _
  · rfl

@[simp] theorem Tile.countSpdUe_vecJobs (t : Tile) (n : Nat) : (t.countSpdUe n).1.vecJobs = t.vecJobs := by
  unfold Tile.countSpdUe
  split <;> rfl

@[simp] theorem Tile.countAccUe_vecJobs (t : Tile) (n : Nat) : (t.countAccUe n).1.vecJobs = t.vecJobs := by
  unfold Tile.countAccUe
  split <;> rfl

theorem Tile.countSpdUe_noFault (t : Tile) (n : Nat) : ∀ e ∈ (t.countSpdUe n).2, e.isFault = false := by
  unfold Tile.countSpdUe
  split <;> simp [TEff.isFault]

theorem Tile.countAccUe_noFault (t : Tile) (n : Nat) : ∀ e ∈ (t.countAccUe n).2, e.isFault = false := by
  unfold Tile.countAccUe
  split <;> simp [TEff.isFault]

/-- No group faults its program: a lane fault does so when its instruction completes (R96). -/
theorem Tile.vecGroup_noFault (t : Tile) (now : Nat) (seed : W64) : ∀ e ∈ (t.vecGroup now seed).2, e.isFault = false := by
  have hovf : ∀ (b : Bool), ∀ e ∈ (if b then [TEff.ovf] else []), e.isFault = false := by
    intro b
    cases b <;> simp [TEff.isFault]
  unfold Tile.vecGroup
  repeat' split
  case h_2.isFalse.isFalse.isFalse =>
    exact fun e he => (List.mem_append.mp he).elim
      (fun he => (List.mem_append.mp he).elim (Tile.countSpdUe_noFault _ _ e) (Tile.countAccUe_noFault _ _ e)) (hovf _ e)
  all_goals exact fun e he => nomatch he

/-! A scalar operand that could not be read (R96, R102, R108) -/

section
variable {t : Tile} {j : VecJob} {v : W32}

/-- The operand is read once, before group 0; when that read met an uncorrectable element, every lane of every group
faults, whatever the accumulator file holds by then. -/
theorem Tile.lane_bad_of_scalar (hloc : j.op.bloc = .scalar) (hval : j.bval = some (v, true)) (i : Nat) :
    (t.lane j i).bad = true := by
  simp [Tile.lane, Tile.operand, LaneRes.bad, hloc, hval]

/-- A group of such an instruction adds nothing to its summaries. -/
theorem Tile.vecGroup_of_scalar {k : Nat} (hk : t.vecNext = some k) (hj : t.vecJobs[k]? = some j)
    (hfree : t.groupFree j = true) (hvote : j.vote.isSome = true) (hsmv : j.op.smv = false) (hloc : j.op.bloc = .scalar)
    (hval : j.bval = some (v, true)) (now : Nat) (seed : W64) :
    ∃ f, (t.vecGroup now seed).1.vecJobs = listSet t.vecJobs k { j with group := j.group + 1, lowFault := f } := by
  have hgood : (j.live.map (t.lane j)).filter (fun l => !l.bad) = [] :=
    List.filter_eq_nil_iff.mpr (by simp [Tile.lane_bad_of_scalar hloc hval])
  have hopen : j.vote.isNone = false := by rw [← Option.not_isSome, hvote]; rfl
  have hread : j.bval.isNone = false := by rw [hval]; rfl
  simp only [Tile.vecGroup, hk, hj, hfree, hopen, hsmv, hread, hgood, Tile.storeGroup_vecJobs, Tile.countSpdUe_vecJobs,
    Tile.countAccUe_vecJobs, Bool.not_true, Bool.and_false, Bool.false_eq_true, if_false, List.foldl_nil, ite_self]
  exact ⟨_, rfl⟩

end

/-! An instruction in this case -/

/-- VEC.MAP copies scalar B, accumulator element 0, to lane 0 of both its groups, element 0 among them; SUMEN and GRAD
are set. R101 leaves a scalar free to lie within the destination. -/
def scalarCopy : VecOp :=
  ⟨1, false, false, .none, .f32, 0, 0, .scalar, .f32, 0, .acc, .f32, 0, 0, 128, 1, 0, false, 0, true, true, 0, 0⟩

/-- Group 0 of the instruction has issued, and found element 0 uncorrectable: its write has cleared the mark since. -/
def scalarLostTile : Tile :=
  ((({ Tile.reset with ctx := some 0 }.vecAccept scalarCopy 0 false 0).hit [.accUe 0]).1.vecGroup 0 0).1

/-- The instruction before its second group. -/
def scalarLostJob : VecJob :=
  ⟨scalarCopy, 0, 0, 1, some (0, true), some true, none, SumAcc.empty, some 0, false, 0⟩

/-- The instruction has an encoding that passes every check of Table 4.7. -/
theorem vecMapCheck_scalarCopy : (vecMapCheck (0x20 + 2 ^ 14 + 2 ^ 15 + 128 * 2 ^ 27 + 2 ^ 116 + 2 * 2 ^ 122 + 2 ^ 128 +
    3 * 2 ^ 224)).toOption = some scalarCopy := by decide

end Sys2Proof

namespace Sys2Proof.Machine

/-! The commands -/

theorem atInstr_phys {s : State} {l p o w len : Nat} (h : AtInstr s l p o w len) : s.phys l = some p := h.2.1

theorem exec_vecMap {s : State} {l p w len : Nat} {q : VecOp} (h : AtInstr s l p 0x20 w len) (hq : vecMapCheck w = .ok q) :
    exec (.vecMap l) s = .next (s.vecHand l (s.ptile p) len (.ok q)) := by
  obtain ⟨hl, hp, hmay, hfetch, ho⟩ := h
  change execVecMap l s = _
  rw [execVecMap, guardWf_next (tileOk_of_lt hl), State.issue_instr hp hmay hfetch (decide_eq_true ho), hq]

theorem exec_vecSrst {s : State} {l p w len : Nat} {q : VecOp} (h : AtInstr s l p 0x22 w len)
    (hq : vecSrstCheck w = .ok q) : exec (.vecSrst l) s = .next (s.vecHand l (s.ptile p) len (.ok q)) := by
  obtain ⟨hl, hp, hmay, hfetch, ho⟩ := h
  change execVecSrst l s = _
  rw [execVecSrst, guardWf_next (tileOk_of_lt hl), State.issue_instr hp hmay hfetch (decide_eq_true ho), hq]

theorem exec_vecSmv {s : State} {l p w len : Nat} {q : VecOp} (h : AtInstr s l p 0x21 w len) (hq : vecSmvCheck w = .ok q)
    (hslot : (s.ptile p).smvEmpty q = false) : exec (.vecSmv l) s = .next (s.vecHand l (s.ptile p) len (.ok q)) := by
  obtain ⟨hl, hp, hmay, hfetch, ho⟩ := h
  change execVecSmv l s = _
  rw [execVecSmv, guardWf_next (tileOk_of_lt hl), State.issue_instr hp hmay hfetch (decide_eq_true ho), hq]
  simp [hslot]

theorem exec_vecGroupIssue {s : State} {l p c : Nat} {x : Ctx} (hl : l < 25600) (hp : s.phys l = some p)
    (hc : (s.ptile p).ctx = some c) (hx : s.ctx? c = some x) :
    exec (.vecGroupIssue l []) s = .next (s.onTile l fun t => t.vecGroup s.now x.seed) := by
  have hctx : (s.tile l).ctx.bind s.ctx? = some x := by simp [State.tile, hp, hc, hx]
  change execVecGroupIssue l [] s = _
  rw [execVecGroupIssue, guardWf_next (tileOk_of_lt hl), hctx]
  rfl

/-- With room in the queue a checked instruction is accepted, and nothing but its tile changes (R111). -/
theorem State.vecHand_accepts {s : State} {l p : Nat} {q : VecOp} {o : Option Bool} (hp : s.phys l = some p)
    (hroom : (s.ptile p).vecFull = false) (ho : (if q.srst && s.voting (s.ptile p) then none else some true) = o)
    (t : Tile) (len : Nat) :
    (s.vecHand l t len (.ok q)).ptile p = { s.ptile p with
        vecJobs := (s.ptile p).vecJobs ++ [⟨q, (s.ptile p).pc, (s.ptile p).seq, 0, none, o, none, SumAcc.empty, none, q.smv, s.stepOf (s.ptile p)⟩]
        seq := (s.ptile p).seq + 1, pc := (s.ptile p).pc + len, patches := [], cpState := .running, wait := none } ∧
      TileOnly s (s.vecHand l t len (.ok q)) p :=
  State.onTile_step hp (by rw [if_neg (by simp [hroom]), Tile.vecAccept_advance ho])

/-! The statements -/

/-- Settles O5: each command hands its checked instruction to the engine, which has room for it. -/
theorem vectorInstructionsAreAccepted : Obligations.VectorInstructionsAreAccepted := by
  refine ⟨fun s l p w q hat hq hroom hsrst => ?map, fun s l p w q hat hq hroom hsrst => ?srst,
    fun s l p w q hat hq hslot hroom hsrst => ?smv⟩
  case map =>
    exact ⟨_, exec_vecMap hat (eq_ok_of_toOption hq), State.vecHand_accepts (atInstr_phys hat) hroom (by simp [hsrst]) _ _⟩
  case srst =>
    exact ⟨_, exec_vecSrst hat (eq_ok_of_toOption hq), State.vecHand_accepts (atInstr_phys hat) hroom (by simp [hsrst]) _ _⟩
  case smv =>
    exact ⟨_, exec_vecSmv hat (eq_ok_of_toOption hq) hslot, State.vecHand_accepts (atInstr_phys hat) hroom (by simp [hsrst]) _ _⟩

/-- Tile 0 holds the instruction whose scalar was lost. -/
def scalarLost : State :=
  { State.reset with tiles := [(0, scalarLostTile)], ctxs := [(0, Ctx.fresh 0 none 0)] }

/-- Refutes O6: its first clause asks that no word be marked uncorrectable now, but a scalar operand is read before group
0 and its lanes fault in every later group too (R96), when the mark may be gone. Group 1 of this instruction then adds
nothing to the summaries, where the clause has element 64 added, so that ARGMAX is 64. -/
theorem not_vectorGroupsVotesAndDeposits : ¬ Obligations.VectorGroupsVotesAndDeposits := by
  rintro ⟨hgroup, -⟩
  have hp : scalarLost.phys 0 = some 0 := by decide
  have hk : (scalarLost.ptile 0).vecNext = some 0 := by decide
  have hj : (scalarLost.ptile 0).vecJobs[0]? = some scalarLostJob := by decide
  have hfree : (scalarLost.ptile 0).groupFree scalarLostJob = true := by decide
  obtain ⟨u, hu, -, -, -, -, -, -, -, hjobs, -⟩ := hgroup scalarLost 0 0 0 0 scalarLostJob (Ctx.fresh 0 none 0)
    (by decide) hp (by decide) (by decide) (by decide) (by decide) hk hj rfl hfree rfl rfl
  rw [exec_vecGroupIssue (by decide) hp (by decide) (by decide : scalarLost.ctx? 0 = some (Ctx.fresh 0 none 0))] at hu
  cases hu
  obtain ⟨f, hkept⟩ := Tile.vecGroup_of_scalar hk hj hfree rfl rfl rfl rfl scalarLost.now (Ctx.fresh 0 none 0).seed
  rw [State.onTile_ptile hp (Prod.eta _).symm (Tile.vecGroup_noFault _ _ _), hkept] at hjobs
  have hqueue : (scalarLost.ptile 0).vecJobs = [scalarLostJob] := by decide
  rw [hqueue] at hjobs
  have hargmax := congrArg (fun js : List VecJob => js.map (·.sums.argmax)) hjobs
  exact absurd ((rfl : [131071] = _).trans hargmax) (by decide)

end Sys2Proof.Machine
end

section
/-! SUPPORT. MEMCTL entries: a dispatch queue's entry is taken, and its operation begins (R205, R206, R209 to R211). -/
namespace Sys2Proof.Machine

/-! Taking an entry -/

/-- A die that runs is not woken. -/
theorem State.wakeDie_of_run {s : State} {d : Nat} (h : (s.die d).park = .run) : s.wakeDie d = s := by
  simp only [State.wakeDie, h]

/-- A queue whose die runs has nothing to wake. -/
theorem State.wakeForQueue_of_run {s : State} {q : Nat} (h : (s.die (s.queue q).die).park = .run) :
    s.wakeForQueue q = s := by
  rw [State.wakeForQueue, State.wakeDie_of_run h, ite_self]

/-- A dispatch queue's entry that passes every check of its class is taken, and the command's work on it begins. -/
theorem State.qRow_atEntry {s v : State} {q cls op : Nat} {host : Fetched} {bs : List Byte}
    (h : AtEntry s q host v bs cls op) {class5 : State → List Byte → Option Status} (h5 : class5 v bs = none)
    (start : State → DescSrc → DescHdr → List Byte → State) :
    s.qRow q host (isDesc cls op) class5 start = start (v.taken q) (.queue q (v.queue q).fetch) (DescHdr.ofBytes bs) bs := by
  obtain ⟨⟨-, -, hfetch, hpark, hfence, hread, hord⟩, hmay, hstage, hcls, hop, hcheck⟩ := h
  have htake : v.takeEntry q (v.accepts q) class5 start bs =
      start (v.taken q) (.queue q (v.queue q).fetch) (DescHdr.ofBytes bs) bs := by
    simp only [State.takeEntry, hcheck, h5, Option.orElse]
    rfl
  have hmine : isDesc cls op bs = true := Bool.and_eq_true_iff.mpr ⟨decide_eq_true hcls, decide_eq_true hop⟩
  simp only [State.qRow, State.descRow, State.wakeForQueue_of_run hpark, hmay, hfetch, hstage, hread, hmine, hord, hfence,
    htake, Bool.not_true, Bool.or_false, Bool.false_and, Bool.false_eq_true, if_true, if_false]

/-- A MEMCTL command whose entry is at hand, passing Table 7.7, answers the state in which its work has begun. -/
theorem guardWf_memctlRow {s v : State} {q op : Nat} {host : Fetched} {bs : List Byte} (h : AtEntry s q host v bs 6 op)
    (h5 : memctlClass5 v bs = none) :
    guardWf (queueOk q && entryBytesOk host) s (s.memctlRow q host op) =
      .next ((v.taken q).startMemctl (.queue q (v.queue q).fetch) (DescHdr.ofBytes bs) bs) := by
  rw [State.memctlRow, State.qRow_atEntry h h5]
  obtain ⟨⟨hq, hhost, -⟩, -⟩ := h
  exact guardWf_next (Bool.and_eq_true_iff.mpr ⟨decide_eq_true hq, hhost⟩)

/-- The operation of a MEMCTL entry is that of its header. -/
theorem memctlOp_atEntry {s v : State} {q op : Nat} {host : Fetched} {bs : List Byte} (h : AtEntry s q host v bs 6 op) :
    (MemctlBody.ofBytes bs).op = op := by
  obtain ⟨-, -, -, -, hop, -⟩ := h
  exact hop

/-- A page at hand that nothing asks to leave is not brought in again: its age restarts. -/
theorem State.bringIn_resident {s : State} {k : Nat} (hres : s.mem.resident k = true)
    (hdem : (s.mem.demands.any fun d => d.key = k && d.kind = .evict) = false) (c : TCls) :
    s.bringIn c [k] = ({ s with mem := s.mem.setPage k { s.mem.page k with age := 0 } }, []) := by
  rw [State.bringIn, List.foldl_cons, List.foldl_nil, if_pos (by rw [hres, hdem]; rfl)]

/-! The statement -/

/-- Settles O19: every MEMCTL command takes its entry, and each operation begins its own work; four of them are over at
once when they name no pages. -/
theorem memctlEntriesAreStarted : Obligations.MemctlEntriesAreStarted := by
  refine ⟨fun s v q host bs hat h5 hpin => ?place, fun s v q host bs w ws hat h5 hpin hpages hbring => ?placePinned,
    fun s v q host bs hat h5 => ?release, fun s v q host bs hat h5 => ?unpin, fun s v q host bs w hat h5 hw => ?backing,
    fun s v q host bs o w ws hat h5 ho hbring => ?pin, fun s v q host bs w ws hat h5 hbring => ?prefetch,
    fun s c k hres hdem => s.bringIn_resident hres hdem c, fun s v q host bs w ks hat h5 hdown => ?demote,
    fun s v q host bs o hat h5 ho => ?query⟩
  all_goals
    have hop := memctlOp_atEntry hat
    refine (guardWf_memctlRow hat h5).trans (congrArg _ ?_)
    rw [State.startMemctl]
  case place | backing | prefetch | demote =>
    by_cases hpages : (MemctlBody.ofBytes bs).pages = 0
    · simp only [hop, hpages]
      rfl
    · simp only [*]
      rfl
  case placePinned =>
    simp only [hop, hpages, hpin, hbring]
    rfl
  case release | unpin | pin | query =>
    rw [if_neg (by rw [hop]; exact ne_true_of_eq_false (Bool.and_false _))]
    simp only [*]
    rfl

end Sys2Proof.Machine
end

section
/-! SUPPORT. The movements of pages and the background work of the tiers where a map holds a key twice: what their
statements leave open (R213, R215 to R218, R227, R358). -/
namespace Sys2Proof.Machine

/-! A page that has two entries -/

/-- Page 0 of object 1 is on its way from T2 to T1, and a second entry for it says that it lies idle. Page 0 of object 2
waits for a frame, where no die is near enough to the object's affinity to have one. -/
def pageTwice : State :=
  { State.reset with
    pwr := { Pwr.reset with dom := .on }
    mem := { MemSys.reset with
      objs := [(1, ⟨0, 1, 0, false, false, false, false, 0, 1⟩), (2, ⟨0, 2, 100, false, false, false, false, 0x100000, 1⟩)]
      pages := [(pageKey 1 0, ⟨some (.t2 5), some ⟨.fill, .t1 0, 3⟩, 3, [], []⟩), (pageKey 1 0, ⟨some (.t2 5), none, 3, [], []⟩)]
      demands := [⟨.zfill, pageKey 2 0, .job, none, false⟩]
      pool := [(0, 1)] } }

/-- Word 0 of the source is uncorrectable. -/
def lostWord : PageErr := ⟨0, [0], [], none⟩

/-- Where a page lies after a command. -/
def locAfter (k : Nat) : Host.Outcome State Fault Refusal → Option Place
  | .next u => (u.mem.page k).loc
  | _ => none

/-- The frame of the lost word becomes due for retirement; the demand looked at then finds the idle entry as its victim and
has the page evicted, though it is moving. No fill is in flight any more, and none lands. -/
theorem pageTwice_stays :
    locAfter (pageKey 1 0) (exec (.pageFillComplete (pageKey 1 0) (.copied lostWord)) pageTwice) = some (.t2 5) := by decide

/-- Refutes O24: its first clause says nothing of the page map, and in one with two entries for the moving page the errors
met on the way can start an eviction of that page, so that it stays in T2, where the clause has it land in T1. -/
theorem not_pageMovementsLand : ¬ Obligations.PageMovementsLand := by
  rintro ⟨hfill, -⟩
  have hland := hfill pageTwice (pageTwice.moveErrs (pageKey 1 0) lostWord).1 (pageKey 1 0) ⟨.fill, .t1 0, 3⟩ lostWord
    (pageTwice.moveErrs (pageKey 1 0) lostWord).2 (by decide) (by decide) (.inl rfl) (by decide) (by decide) rfl
  have hloc := pageTwice_stays
  rw [hland] at hloc
  exact absurd hloc (by decide)

/-! A wait that has two entries -/

/-- BACKGROUND_EVICT of a tier short of free frames asks for the eviction of the victim (R218). -/
theorem exec_backgroundEvict {s : State} {t k : Nat} (hon : s.computeOn = true) (ht : t = 1 ∨ t = 2)
    (hfew : s.mem.freeCnt t < (s.mem.cnt t).lowater.toNat) (hpool : t = 2 → s.mem.chooseBacking.isSome = true)
    (hvictim : s.mem.victim s.downDies s.busy t = some k) :
    exec (.backgroundEvict t) s = .next (s.memStep fun m dn bz => m.demand dn bz .backfill .evict k) := by
  have hwf : (decide (1 ≤ t) && decide (t ≤ 2)) = true := by rcases ht with rfl | rfl <;> rfl
  have hshort : decide (s.mem.freeCnt t ≥ (s.mem.cnt t).lowater.toNat) = false := decide_eq_false (Nat.not_le.mpr hfew)
  have hfull : (decide (t = 2) && s.mem.chooseBacking.isNone) = false := by
    rw [Bool.and_eq_false_imp]
    exact fun h2 => Option.isNone_eq_false_iff.mpr (hpool (of_decide_eq_true h2))
  change execBackgroundEvict t s = _
  rw [execBackgroundEvict, guardWf_next hwf]
  simp only [hon, hshort, hfull, hvictim, Bool.not_true, Bool.or_false, Bool.false_eq_true, if_false]

/-- A page of T1 lies idle and T1 is short of free frames. Of two entries for page wait 0, whose time is over, the first has
no outcome yet and the second has one. -/
def waitTwice : State :=
  { State.reset with
    pwr := { Pwr.reset with dom := .on }
    time := { State.reset.time with now := 10 ^ 12 }
    mem := { MemSys.reset with
      objs := [(1, ⟨0, 1, 0, false, false, false, false, 0, 1⟩)]
      pages := [(pageKey 1 0, ⟨some (.t1 0), none, 3, [], []⟩)]
      waits := [(0, ⟨pageKey 2 0, .job, 0, true, none⟩), (0, ⟨pageKey 2 0, .job, 0, true, some .ok⟩)]
      t1 := TierCnt.reset 786432 } }

/-- A change of the tiers gives no outcome to a wait whose time is over (R359), and reads whether it had one at the first
entry: the second loses its own. -/
theorem waitTwice_cleared :
    ((waitTwice.memStep fun m dn bz => m.demand dn bz .backfill .evict (pageKey 1 0)).mem.waits.map (·.2.res)) =
      [none, none] := by decide

/-- Refutes O25: its second clause has BACKGROUND_EVICT change nothing but pages and says nothing of the map of waits; in one
with two entries for a wait that has lapsed, the second one's outcome is cleared. -/
theorem not_backgroundWorkOfTheTiers : ¬ Obligations.BackgroundWorkOfTheTiers := by
  rintro ⟨-, hevict, -⟩
  obtain ⟨u, hu, -, -, honly⟩ := hevict waitTwice 1 (pageKey 1 0) (.t2 0) ⟨0, 1, 0, false, false, false, false, 0, 1⟩
    (by decide) (.inl rfl) (by decide) (by decide) (by decide) (by decide) (by decide) (by decide) (by decide)
  rw [exec_backgroundEvict (k := pageKey 1 0) (by decide) (.inl rfl) (by decide) (by decide) (by decide)] at hu
  cases hu
  have hwaits := congrArg (fun x : State => x.mem.waits.map (·.2.res)) honly
  exact absurd (waitTwice_cleared.symm.trans hwaits) (by decide)

end Sys2Proof.Machine
end

section
/-! SUPPORT. A stage arbiter's decision: reading a ring entry, taking a gate's unit, starting the LAUNCH (R300, R301). -/
namespace Sys2Proof.Machine

/-! An access to the tiers -/

/-- Between `s` and `v` nothing differs but the tiers and the events that accesses to them record. -/
def State.TiersOnly (s v : State) : Prop := v = { s with mem := v.mem, hrt := v.hrt }

theorem State.tiersOnly_refl (s : State) : s.TiersOnly s := rfl

theorem State.TiersOnly.trans {s v w : State} (h : s.TiersOnly v) (h' : v.TiersOnly w) : s.TiersOnly w := by
  rw [State.TiersOnly] at h ⊢
  rw [h] at h'
  exact h'

theorem State.tiersOnly_ev (s : State) (a b c d e : Nat) : s.TiersOnly (s.ev a b c d e) := rfl

theorem State.tiersOnly_foldl {α : Type} {f : State → α → State} (hf : ∀ (u : State) (x : α), u.TiersOnly (f u x))
    (s : State) (xs : List α) : s.TiersOnly (xs.foldl f s) :=
  List.foldlRecOn (motive := fun u : State => s.TiersOnly u) xs f s.tiersOnly_refl fun u hu x _ => hu.trans (hf u x)

theorem State.memStep_tiersOnly (s : State) (f : MemSys → List Nat → (Nat → Bool) → MemSys) :
    s.TiersOnly (s.memStep f) :=
  .trans (v := { s with mem := s.keepLapsed (f s.mem s.downDies s.busy) }) rfl
    (State.tiersOnly_foldl (fun u _ => u.tiersOnly_ev _ _ _ _ _) _ _)

theorem State.dropWait?_tiersOnly (s : State) (w : Option Nat) : s.TiersOnly (s.dropWait? w) := by
  cases w with
  | none => exact s.tiersOnly_refl
  | some w =>
    let forgotten : State := { s with mem := { s.mem with waits := SMap.erase s.mem.waits w } }
    exact .trans (v := forgotten) rfl (forgotten.memStep_tiersOnly _)

theorem State.pageErrs_tiersOnly (s : State) (k o ce : Nat) (ue : List Nat) : s.TiersOnly (s.pageErrs k o ce ue) := by
  unfold State.pageErrs
  split
  · exact s.tiersOnly_refl
  · exact s.tiersOnly_refl
  · refine .trans (State.tiersOnly_foldl (fun u _ => (u.memStep_tiersOnly _).trans (State.tiersOnly_ev _ _ _ _ _ _)) s _)
      (State.tiersOnly_foldl (fun u w => ?_) _ ue)
    dsimp only
    split
    · exact u.tiersOnly_refl
    · exact (u.memStep_tiersOnly _).trans (State.tiersOnly_ev _ _ _ _ _ _)

theorem State.winErrs_tiersOnly (s : State) (c a n : Nat) (res : OpRes) : s.TiersOnly (s.winErrs c a n res).1 := by
  unfold State.winErrs
  split
  · unfold State.tierErrs
    split
    · exact s.tiersOnly_refl
    · exact s.pageErrs_tiersOnly _ _ _ _
  · extract_lets die bad
    split
    · exact s.tiersOnly_refl
    · exact s.tiersOnly_ev _ _ _ _ _
  · exact s.tiersOnly_refl

/-- A read of a window that gives its bytes: only one that waits for a page could wake a die. -/
theorem State.winRead_tiersOnly {s v : State} {o : AccFor} {c a n : Nat} {bs : List Byte} {bad : List Nat}
    (h : s.winRead o c a n = (v, .got bs bad)) : s.TiersOnly v := by
  unfold State.winRead at h
  split at h
  · cases h
  · split at h
    · cases h
    · split at h
      · cases h
      · split at h
        · cases h
        · cases h
        · cases h
          rfl

theorem State.winReadErr_tiersOnly {s v : State} {o : AccFor} {c a n : Nat} {res : OpRes} {bs : List Byte}
    {bad : List Nat} (h : s.winReadErr o c a n res = (v, .got bs bad)) : s.TiersOnly v := by
  have herrs := s.winErrs_tiersOnly c a n res
  rw [State.winReadErr] at h
  dsimp only at h
  split at h
  next u bs' bad' hread =>
    cases h
    exact herrs.trans (State.winRead_tiersOnly hread)
  next hnot => exact absurd h (hnot _ _ _)

/-! Reading a ring entry -/

/-- Between `s` and `w` the entry at FETCH of queue `q` has been read, and perhaps a gate's unit taken: nothing differs but
the tiers, the records of events, the page waits of queues, and the tiles with the notes of their waits. -/
def State.ReadAt (s w : State) (q : Nat) : Prop :=
  w = { s with tiles := w.tiles, queues := w.queues, mem := w.mem, flt := w.flt, hrt := w.hrt } ∧
    (w.queue q).fetch = (s.queue q).fetch

theorem State.ReadAt.trans {s v w : State} {q : Nat} (h : s.ReadAt v q) (h' : v.ReadAt w q) : s.ReadAt w q := by
  refine ⟨?_, h'.2.trans h.2⟩
  obtain ⟨h, -⟩ := h
  obtain ⟨h', -⟩ := h'
  rw [h] at h'
  exact h'

theorem State.TiersOnly.readAt {s v : State} (h : s.TiersOnly v) (q : Nat) : s.ReadAt v q := by
  rw [State.TiersOnly] at h
  rw [h]
  exact ⟨rfl, rfl⟩

theorem State.ReadAt.keeps {s w : State} {q : Nat} (h : s.ReadAt w q) :
    w.stages = s.stages ∧ w.nextDesc = s.nextDesc ∧ w.ctxs = s.ctxs ∧ w.remap = s.remap ∧
      ∀ g, w.lgrpTiles g = s.lgrpTiles g := by
  obtain ⟨h, -⟩ := h
  rw [h]
  exact ⟨rfl, rfl, rfl, rfl, fun _ => rfl⟩

theorem TileOnly.readAt {s v : State} {p : Nat} (h : TileOnly s v p) (q : Nat) : s.ReadAt v q := by
  rw [h]
  exact ⟨rfl, rfl⟩

theorem State.queue_modQueue_self (s : State) (q : Nat) (f : Queue → Queue) :
    (s.modQueue q f).queue q = f (s.queue q) :=
  SMap.getD_setD_self s.queues q (f (s.queue q)) Queue.reset

/-- A change of a queue that leaves its FETCH. -/
theorem State.modQueue_readAt {s : State} {q : Nat} {f : Queue → Queue} (hf : (f (s.queue q)).fetch = (s.queue q).fetch) :
    s.ReadAt (s.modQueue q f) q :=
  ⟨rfl, (congrArg Queue.fetch (s.queue_modQueue_self q f)).trans hf⟩

/-- Reading an entry changes no tile, and FETCH stays where it is. -/
theorem State.readEntry_readAt {s v : State} {q : Nat} {host : Fetched} {bs : List Byte}
    (h : s.readEntry q host = (v, .got bs)) : s.ReadAt v q ∧ v.tiles = s.tiles := by
  unfold State.readEntry at h
  extract_lets x a st u at h
  have hu : s.ReadAt u q := ((s.dropWait?_tiersOnly x.wait).readAt q).trans (State.modQueue_readAt rfl)
  have hut : u.tiles = s.tiles := (congrArg State.tiles (s.dropWait?_tiersOnly x.wait)).trans rfl
  split at h
  · obtain ⟨rfl, -⟩ := Prod.mk.inj h
    exact ⟨s.tiersOnly_refl.readAt q, rfl⟩
  · split at h
    · cases h
    · split at h
      · exact nomatch (Prod.mk.inj h).2
      · split at h
        next hread =>
          obtain ⟨rfl, -⟩ := Prod.mk.inj h
          have htiers := State.winReadErr_tiersOnly hread
          exact ⟨hu.trans (htiers.readAt q), ((congrArg State.tiles htiers).trans rfl).trans hut⟩
        · cases h
        · cases h

/-! Taking a gate's unit -/

/-- A start that no gate of U holds takes nothing. -/
theorem State.takeGate_ungated {g : Stage} {role : Nat} (h : role ≠ 4 ∨ g.gu = none) (s : State) :
    s.takeGate g role = s := by
  unfold State.takeGate
  split
  next hgu => simp [hgu] at h
  next => rfl

/-- A start that no gate of U holds waits for no other stage. -/
theorem State.gateLeft_ungated {g : Stage} {role : Nat} (h : role ≠ 4 ∨ g.gu = none) (s : State) (n : Nat) :
    s.gateLeft n g role = true := by
  unfold State.gateLeft
  split
  next hgu => simp [hgu] at h
  next => rfl

/-- A gate with a unit left stands on a tile that is mapped: an unmapped one has no units. -/
theorem State.phys_of_gateLeft {s : State} {n t k : Nat} {g : Stage} (hgu : g.gu = some (t, k))
    (hleft : s.gateLeft n g 4 = true) : ∃ p, s.phys t = some p := by
  cases hp : s.phys t with
  | some p => exact ⟨p, rfl⟩
  | none =>
    have hzero : ((s.tile t).sem k).toNat = 0 := by
      rw [State.tile, hp]
      rfl
    simp [State.gateLeft, hgu, hzero] at hleft

theorem State.tile_of_placed {s u : State} (h : u.placed = s.placed) (l : Nat) : u.tile l = s.tile l := by
  simp only [State.tile, State.phys_of_placed h, State.ptile_of_placed h]

theorem Tile.sem_semW (t : Tile) (k : Nat) (x : W16) : (t.semW k x).sem k = x := SMap.getD_setD_self t.sems k x 0

/-- The start of a gated U launch takes one unit of its tile's semaphore, and changes nothing else. -/
theorem State.takeGate_unit {s : State} {g : Stage} {t k p : Nat} (hgu : g.gu = some (t, k)) (hp : s.phys t = some p) :
    ((s.takeGate g 4).tile t).sem k = (s.tile t).sem k - 1 ∧ TileOnly s (s.takeGate g 4) p := by
  have hgate : s.takeGate g 4 = s.onTile t fun x => (x.semW k (x.sem k - 1), []) := by
    simp only [State.takeGate, hgu]
  obtain ⟨htile, honly⟩ := State.onTile_step hp
    (f := fun x => (x.semW k (x.sem k - 1), [])) (t := (s.ptile p).semW k ((s.ptile p).sem k - 1)) rfl
  rw [hgate]
  refine ⟨?_, honly⟩
  rw [State.tile, (tileOnly_phys honly t).trans hp, State.tile, hp]
  dsimp only
  rw [htile, Tile.sem_semW]

/-! The decision -/

/-- FETCH of queue `q` has passed the entry `bs`, and its LAUNCH is the running one of stage `n`, in a role. -/
def State.stageStarted (w : State) (n role q : Nat) (bs : List Byte) : State :=
  let a := (w.modQueue q fun x => { x with fetch := x.fetch + 1 }).startLaunch
    (.queue q (w.queue q).fetch) (DescHdr.ofBytes bs) bs (some (n, role))
  { a.1 with
    stages := SMap.adj a.1.stages n fun y => { y with run := some (role, a.2) }
    flt := { a.1.flt with ended := a.1.flt.ended ++ [.stage n], waitAt := SMap.erase a.1.flt.waitAt (stageKey n) } }

/-- The start itself changes no tile, no context and nothing in the tiers. -/
theorem State.stageStarted_keeps (w : State) (n role q : Nat) (bs : List Byte) :
    (w.stageStarted n role q bs).placed = w.placed ∧ (w.stageStarted n role q bs).mem = w.mem ∧
      (w.stageStarted n role q bs).ctxs = w.ctxs := by
  unfold State.stageStarted
  exact ⟨rfl, rfl, rfl⟩

/-- The arbiter of an idle stage takes the entry of its first ready role, when a gate of U has a unit left for it and the
entry passes the stage's checks. -/
theorem exec_stageArbiterDecide {s v : State} {n role q : Nat} {g : Stage} {host : Fetched} {bs : List Byte}
    (hn : n < 256) (hg : SMap.get? s.stages n = some g) (hrun : g.run = none)
    (hfence : (s.fab.ctx g.ctx).fenced = false) (hentry : EntryIn s q host v bs)
    (hready : s.readyRole g = some (role, q)) (hleft : s.gateLeft n g role = true)
    (hcheck : (v.takeGate g role).stageCheck g q bs = none) :
    exec (.stageArbiterDecide n host) s = .next ((v.takeGate g role).stageStarted n role q bs) := by
  obtain ⟨-, hhost, hfetch, hpark, -, hread, hord⟩ := hentry
  change execStageArbiterDecide n host s = _
  have hwf : (stageOk n && entryBytesOk host) = true := Bool.and_eq_true_iff.mpr ⟨decide_eq_true hn, hhost⟩
  rw [execStageArbiterDecide, guardWf_next hwf]
  simp only [State.stageDecide, hg, hrun, hfence, hready, State.wakeForQueue_of_run hpark, hfetch, hleft, hread, hord,
    hcheck, Option.isSome_none, Bool.or_false, Bool.not_true, Bool.false_eq_true, if_false]
  rfl

/-- What the start of a stage's LAUNCH is, once its entry has been read and its gate's unit taken. -/
theorem State.stageStarted_launch {s w : State} {n q : Nat} {g : Stage} (hw : s.ReadAt w q)
    (hg : SMap.get? s.stages n = some g) (role : Nat) (bs : List Byte) :
    SMap.get? (w.stageStarted n role q bs).stages n = some { g with run := some (role, s.nextDesc) } ∧
      (w.stageStarted n role q bs).queue q = { w.queue q with fetch := (s.queue q).fetch + 1 } ∧
      (w.stageStarted n role q bs).nextDesc = s.nextDesc + 1 ∧
      SMap.get? (w.stageStarted n role q bs).descs s.nextDesc = some ⟨.queue q (s.queue q).fetch, DescHdr.ofBytes bs,
        .launch (nbits (dn bs 0x14 4) 0 18) (dn bs 0x18 2)
          ((List.range 8).map fun i => BitVec.ofNat 32 (dn bs (0x1C + 4 * i) 4)) (s.lgrpTiles (dn bs 0x18 2)) 0,
        if (s.lgrpTiles (dn bs 0x18 2)).isEmpty then .finished else .waiting, .ok, 0, false, none, false, none,
        some (n, role), none⟩ := by
  obtain ⟨hstages, hnext, -, -, htiles⟩ := hw.keeps
  obtain ⟨-, hfetch⟩ := hw
  refine ⟨?stage, ?queue, congrArg (· + 1) hnext, ?desc⟩
  case stage =>
    refine (SMap.get?_adj w.stages n n fun y => { y with run := some (role, w.nextDesc) }).trans ?_
    rw [if_pos rfl, hstages, hg, hnext]
    rfl
  case queue =>
    rw [← hfetch]
    exact w.queue_modQueue_self q fun x => { x with fetch := x.fetch + 1 }
  case desc =>
    rw [← hnext, ← hfetch, ← htiles (dn bs 0x18 2)]
    exact SMap.get?_set_self _ _ _

/-- A role that no gate of U holds: B, F, W, or U of a stage without a gate. -/
theorem exec_stageArbiterDecide_ungated {s v : State} {n role q : Nat} {g : Stage} {host : Fetched} {bs : List Byte}
    (hfree : role ≠ 4 ∨ g.gu = none) (hn : n < 256) (hg : SMap.get? s.stages n = some g) (hrun : g.run = none)
    (hfence : (s.fab.ctx g.ctx).fenced = false) (hentry : EntryIn s q host v bs)
    (hready : s.readyRole g = some (role, q)) (hcheck : v.stageCheck g q bs = none) :
    exec (.stageArbiterDecide n host) s = .next (v.stageStarted n role q bs) := by
  have hgate := State.takeGate_ungated hfree v
  have h := exec_stageArbiterDecide hn hg hrun hfence hentry hready (State.gateLeft_ungated hfree s n)
  rw [hgate] at h
  exact h hcheck

/-! The statement -/

/-- Settles O21: the entry of the first ready role is read and passes the stage's checks, so its LAUNCH starts; only a gated
U launch changes a tile, whose semaphore loses the unit. -/
theorem stageArbiterStartsTheReadyRole : Obligations.StageArbiterStartsTheReadyRole := by
  refine ⟨fun s v n role q g host bs hn hg hrun hfence hentry hready hrole hcheck => ?notU,
    fun s v n role q t k g host bs hn hg hrun hfence hentry hready hrole hgu hleft hcheck => ?gatedU,
    fun s v n role q g host bs hn hg hrun hfence hentry hready _ hgu hcheck => ?freeU⟩
  all_goals
    obtain ⟨-, -, -, -, -, hread, -⟩ := id hentry
    obtain ⟨hv, htiles⟩ := State.readEntry_readAt hread
    obtain ⟨-, -, hctxs, hremap, -⟩ := hv.keeps
  case' notU => have hfree : role ≠ 4 ∨ g.gu = none := .inl hrole
  case' freeU => have hfree : role ≠ 4 ∨ g.gu = none := .inr hgu
  case notU | freeU =>
    obtain ⟨hstage, hqueue, hnext, hdesc⟩ := State.stageStarted_launch hv hg role bs
    obtain ⟨hplaced, hmem', hctxs'⟩ := v.stageStarted_keeps n role q bs
    exact ⟨_, exec_stageArbiterDecide_ungated hfree hn hg hrun hfence hentry hready hcheck, hstage, hqueue, hnext, hdesc,
      (congrArg Prod.fst hplaced).trans htiles, hmem', hctxs'.trans hctxs⟩
  case gatedU =>
    subst hrole
    obtain ⟨p, hp⟩ := State.phys_of_gateLeft hgu hleft
    have hplaced : v.placed = s.placed := Prod.ext htiles hremap
    obtain ⟨hunit, honly⟩ := State.takeGate_unit hgu ((State.phys_of_placed hplaced t).trans hp)
    obtain ⟨-, hqueues, hctxsGate, -, hmemGate⟩ := tileOnly_keeps honly
    obtain ⟨hstage, hqueue, hnext, hdesc⟩ := State.stageStarted_launch (hv.trans (TileOnly.readAt honly q)) hg 4 bs
    obtain ⟨hplaced', hmem', hctxs'⟩ := (v.takeGate g 4).stageStarted_keeps n 4 q bs
    have hwq : (v.takeGate g 4).queue q = v.queue q := by rw [State.queue, hqueues, State.queue]
    rw [hwq] at hqueue
    rw [← State.tile_of_placed hplaced' t, State.tile_of_placed hplaced t] at hunit
    exact ⟨_, exec_stageArbiterDecide hn hg hrun hfence hentry hready hleft hcheck, hstage, hqueue, hnext, hdesc,
      hunit, hmem'.trans hmemGate, (hctxs'.trans hctxsGate).trans hctxs⟩

end Sys2Proof.Machine
end

section
/-! SUPPORT. Commits and slots: what skips, overruns, changes of a partition's holder and admissions leave alone; commits and
the time at which they take effect; slots that open, admit a batch step and close; cycles (R314, R317 to R323). -/
namespace Sys2Proof.Machine

/-- What every step of a fold keeps, the fold keeps. -/
theorem State.foldl_keeps {α β : Type} (g : State → β) {f : State → α → State} (h : ∀ s a, g (f s a) = g s) (l : List α)
    (s : State) : g (l.foldl f s) = g s :=
  l.foldlRecOn (motive := fun u => g u = g s) f rfl fun u hu a _ => (h u a).trans hu

/-! What the operations on slots leave alone -/

/-- All but the contexts, the slot status and the partitions' schedule: skips, overruns and closes write nothing else. -/
def State.besideSlots (s : State) : State :=
  { s with ctxs := [], sch := { s.sch with slots := [], parts := [] } }

theorem State.modSchPart_besideSlots (s : State) (p : Nat) (f : SchPart → SchPart) :
    (s.modSchPart p f).besideSlots = s.besideSlots := rfl

@[simp] theorem State.countSkip_besideSlots (s : State) (i c : Nat) : (s.countSkip i c).besideSlots = s.besideSlots := rfl

@[simp] theorem State.overrun_besideSlots (s : State) (i c close : Nat) :
    (s.overrun i c close).besideSlots = s.besideSlots := by
  unfold State.overrun
  split <;> rfl

@[simp] theorem State.slotClose_besideSlots (s : State) (i : Nat) : (s.slotClose i).besideSlots = s.besideSlots := by
  unfold State.slotClose
  extract_lets e close u
  have hu : u.besideSlots = s.besideSlots := s.overrun_besideSlots i e.ctx close
  clear_value u
  split
  · rfl
  · split
    · split
      · exact (State.countSkip_besideSlots _ _ _).trans ((u.modSchPart_besideSlots _ _).trans hu)
      · exact hu
    · exact hu

/-! What a change of a partition's holder leaves alone -/

/-- All but the contexts, the queues, the pushes' numbers, the dies' power states and the partitions' schedule: a partition
passes to its next holder, whose context may resume, and writes nothing else. -/
def State.besideHolders (s : State) : State :=
  { s with
    ctxs := [], queues := [], fab := { s.fab with pushOrd := [] }, pwr := { s.pwr with dies := [] }
    sch := { s.sch with parts := [] } }

@[simp] theorem State.setHolder_besideHolders (s : State) (p : Nat) (h : Holder) :
    (s.setHolder p h).besideHolders = s.besideHolders := rfl

@[simp] theorem State.schResume_besideHolders (s : State) (c : Nat) : (s.schResume c).besideHolders = s.besideHolders := by
  unfold State.schResume
  extract_lets u
  split
  · split <;> rfl
  · rfl

@[simp] theorem State.passOn_besideHolders (s : State) (p : Nat) (i : Option Nat) :
    (s.passOn p i).besideHolders = s.besideHolders := by
  unfold State.passOn
  extract_lets h u
  have hu : u.besideHolders = s.besideHolders := s.setHolder_besideHolders p h
  clear_value u h
  split
  · exact (u.schResume_besideHolders _).trans hu
  · exact hu

@[simp] theorem State.wakeDie_besideHolders (s : State) (d : Nat) : (s.wakeDie d).besideHolders = s.besideHolders := by
  unfold State.wakeDie
  split <;> rfl

/-! What an admission leaves alone -/

/-- All but the contexts, the layers, the signals on their way and the Hearth's records: an admission writes nothing else. -/
def State.besideAdmission (s : State) : State :=
  { s with ctxs := [], sigs := [], hrt := Hrt.reset, sch := { s.sch with layers := [] } }

theorem State.kept_of_besideAdmission {s u : State} (h : u.besideAdmission = s.besideAdmission) :
    u.sch.opened = s.sch.opened ∧ u.sch.parts = s.sch.parts ∧ u.tiles = s.tiles ∧ u.queues = s.queues ∧
      u.descs = s.descs ∧ u.mem = s.mem :=
  ⟨congrArg (·.sch.opened) h, congrArg (·.sch.parts) h, congrArg (·.tiles) h, congrArg (·.queues) h, congrArg (·.descs) h,
    congrArg (·.mem) h⟩

/-- The batch step of a context, with its version and the slot that admitted it. -/
def State.batchStep (s : State) (c : Nat) : Option (Bool × W16 × Option (Option Nat × Nat)) :=
  (s.ctx? c).map fun x => (x.bstep, x.bstepVer, x.bstepSlot)

theorem State.batchStep_modCtx (s : State) (c d : Nat) {f : Ctx → Ctx}
    (hf : ∀ x, ((f x).bstep, (f x).bstepVer, (f x).bstepSlot) = (x.bstep, x.bstepVer, x.bstepSlot)) :
    (s.modCtx d f).batchStep c = s.batchStep c := by
  rw [State.batchStep, State.ctx?, State.modCtx_ctxs, SMap.get?_adj]
  split
  · rw [Option.map_map]
    exact congrArg (fun g => (s.ctx? c).map g) (funext hf)
  · rfl

@[simp] theorem State.setFlag_besideAdmission (s : State) (c : Nat) (psn : Bool) :
    (s.setFlag c psn).besideAdmission = s.besideAdmission := by
  unfold State.setFlag
  split
  · rfl
  · extract_lets fresh late t
    split <;> rfl

@[simp] theorem State.setFlag_batchStep (s : State) (c d : Nat) (psn : Bool) :
    (s.setFlag d psn).batchStep c = s.batchStep c := by
  unfold State.setFlag
  split
  · rfl
  · extract_lets fresh late t
    have ht : t.batchStep c = s.batchStep c := s.batchStep_modCtx c d fun _ => rfl
    split
    · exact ht
    · exact ht

@[simp] theorem State.signalEntry_besideAdmission (s : State) (c : Nat) (y : Layer) :
    (s.signalEntry c y).besideAdmission = s.besideAdmission := by
  unfold State.signalEntry
  split
  · exact s.setFlag_besideAdmission c true
  · rfl

@[simp] theorem State.signalEntry_batchStep (s : State) (c d : Nat) (y : Layer) :
    (s.signalEntry d y).batchStep c = s.batchStep c := by
  unfold State.signalEntry
  split
  · exact s.setFlag_batchStep c d true
  · rfl

/-- What marking a layer and signalling its entry keep, an admission keeps once it has written the context (R332). -/
theorem State.admitStep_keeps {β : Type} {g : State → β} {s : State} {c : Nat} {x : Ctx} (hx : s.ctx? c = some x)
    (hlayer : ∀ (u : State) l f, g (u.modLayer x l f) = g u) (hsignal : ∀ (u : State) y, g (u.signalEntry c y) = g u)
    (slot : Option (Option Nat × Nat)) :
    g (s.admitStep c slot) =
      g (s.modCtx c fun x => { x with bstep := true, bstepVer := x.admVer, bstepSlot := slot, overSince := none }) := by
  simp only [State.admitStep, hx]
  refine State.foldl_keeps g (fun u l => ?_) _ _
  split
  · exact (hsignal _ _).trans (hlayer u l _)
  · exact hlayer u l _

theorem State.admitStep_besideAdmission {s : State} {c : Nat} {x : Ctx} (hx : s.ctx? c = some x)
    (slot : Option (Option Nat × Nat)) : (s.admitStep c slot).besideAdmission = s.besideAdmission :=
  State.admitStep_keeps hx (fun _ _ _ => rfl) (fun u y => u.signalEntry_besideAdmission c y) slot

theorem State.admitStep_batchStep {s : State} {c : Nat} {x : Ctx} (hx : s.ctx? c = some x)
    (slot : Option (Option Nat × Nat)) : (s.admitStep c slot).batchStep c = some (true, x.admVer, slot) := by
  rw [State.admitStep_keeps (g := fun u => u.batchStep c) hx (fun _ _ _ => rfl) (fun u y => u.signalEntry_batchStep c c y)]
  rw [State.batchStep, State.ctx?, State.modCtx_ctxs, SMap.get?_adj, if_pos rfl, ← State.ctx?, hx]
  rfl

/-! Commits -/

/-- The host's write of a register reaches its rule when the host may write it (R399, R444). -/
theorem State.hostWrite_of_hostMay {s : State} {item : RegItem} {tee : Bool} (h : HostMay s item tee) (bar off : Nat)
    (f : State → RegRes) : s.hostWrite bar off item tee f = State.recordRes bar off (f s) := by
  obtain ⟨hopen, hright, hhand⟩ := h
  have hfree : ¬(s.sec.st = .handover && item ≠ .hif) = true := by simpa using hhand
  rw [State.hostWrite, if_neg (by simp [hopen]), State.regWrite, if_neg (by simp [hright]), if_neg hfree]

theorem exec_schCommit {s : State} {tee : Bool} (h : HostMay s .sch tee) :
    exec (.schCommit tee) s = .next (State.recordRes 0 0xA00000 (s.schCtl 0x80000000)) :=
  congrArg Host.Outcome.next (State.hostWrite_of_hostMay h 0 schBase fun s => s.schCtl 0x80000000)

/-- A write of COMMIT alone, of a bank that passes Table 10.2 with no commit pending, sets PEND (R319). -/
theorem State.schCtl_commits {s : State} (hload : s.loadSch = false) (hbank : s.bankCheck s.bankShadow = none)
    (hpend : s.sch.pend = none) :
    s.schCtl 0x80000000 = ({ s with sch := { s.sch with pend := some s.commitAt } }, none) := by
  have hrsvd : (fld (0x80000000 : W32) 3 28 != 0) = false := by decide
  have hcommit : (0x80000000 : W32).getLsbD 31 = true := by decide
  simp only [State.schCtl, State.schCommitGo, hload, hrsvd, hcommit, hbank, hpend, Option.isSome_none, Bool.false_eq_true,
    if_false, if_true]

theorem exec_schCommitEffect_due {s : State} {e : Nat} (hpend : s.sch.pend = some e) (hnow : e ≤ s.now) :
    exec .schCommitEffect s = .next (s.commitEffect e) := by
  change execSchCommitEffect s = _
  simp only [execSchCommitEffect, hpend, ge_iff_le, if_pos hnow]

theorem exec_schCommitEffect_stays {s : State} {e : Nat} (h : s.sch.pend = none ∨ (s.sch.pend = some e ∧ s.now < e)) :
    exec .schCommitEffect s = .next s := by
  change execSchCommitEffect s = _
  rcases h with hpend | ⟨hpend, hnow⟩
  · simp only [execSchCommitEffect, hpend]
  · simp only [execSchCommitEffect, hpend, ge_iff_le, if_neg (Nat.not_le.mpr hnow)]

/-- The banks have swapped at time `e`, and the schedule starts there afresh (R319). -/
def State.banksSwapped (s : State) (e : Nat) : State :=
  { s with sch := { s.sch with
      bank := !s.sch.bank, pend := none, cycT := e, cycles := if bankCount s.bankShadow > 0 then 1 else 0
      slots := [], parts := [], opened := [] } }

/-- A commit that takes effect swaps the banks; only contexts, queues, pushes' numbers, dies' power states and partitions'
schedules change besides (R319, R322, R335, R462). -/
theorem State.commitEffect_besideHolders (s : State) (e : Nat) :
    (s.commitEffect e).besideHolders = (s.banksSwapped e).besideHolders := by
  unfold State.commitEffect
  extract_lets s1 sc s2 sd s3 ps s4
  have hoverruns : s1.besideSlots = s.besideSlots := State.foldl_keeps _ (fun u x => by
    dsimp only
    split
    · exact u.overrun_besideSlots _ _ _
    · rfl) _ _
  clear_value s1
  have hshadow : s2.bankNow = s1.bankShadow := by
    change (if (!s1.sch.bank) = true then _ else _) = if s1.sch.bank = true then _ else _
    cases s1.sch.bank <;> rfl
  have hswap : s3.besideHolders = (s1.banksSwapped e).besideHolders := by
    unfold s3 State.banksSwapped State.tableOn
    rw [hshadow]
    by_cases hcount : bankCount s1.bankShadow > 0
    · simp only [hcount, decide_true, if_true]
      rfl
    · simp only [hcount, decide_false, Bool.false_eq_true, if_false]
      rfl
  clear_value s3
  have hpass : s4.besideHolders = s3.besideHolders := State.foldl_keeps State.besideHolders (fun u p => by
    have hwake := State.foldl_keeps State.besideHolders (fun (v : State) (r : Rect) => v.wakeDie_besideHolders r.die)
      (u.load.prects.filter fun r => r.id = p) u
    dsimp only
    split
    · exact (State.setHolder_besideHolders _ _ _).trans hwake
    · exact (State.passOn_besideHolders _ _ _).trans hwake) ps s3
  clear_value s4
  have hresume := State.foldl_keeps State.besideHolders (fun (u : State) (x : Nat × Ctx) => u.schResume_besideHolders x.1)
    (s4.ctxs.filter fun x => x.2.preempted = some .sch) s4
  exact hresume.trans (hpass.trans (hswap.trans (congrArg (fun u => (u.banksSwapped e).besideHolders) hoverruns)))

/-! Openings -/

/-- Entry `i` has opened in this cycle. -/
def State.noted (s : State) (i : Nat) : State := { s with sch := { s.sch with opened := s.sch.opened ++ [i] } }

theorem exec_slotOpen {i : Nat} (hi : i < 512) (s : State) : exec (.slotOpen i) s = .next (s.slotOpen i) :=
  guardWf_next (decide_eq_true hi)

theorem exec_slotClose {i : Nat} (hi : i < 512) (s : State) : exec (.slotClose i) s = .next (s.slotClose i) :=
  guardWf_next (decide_eq_true hi)

section
variable {s : State} {i : Nat} (hon : s.tableOn = true) (hcount : i < bankCount s.bankNow)
  (hlen : (bankEntry s.bankNow i).len ≠ 0) (hnew : s.sch.opened.contains i = false)
  (hdue : s.sch.cycT + (bankEntry s.bankNow i).off ≤ s.now) (hpend : s.sch.pend = none)
include hon hcount hlen hnew hdue hpend

/-- An entry of the table in effect opens at its time, once in a cycle: it is skipped, waits, or takes its partition
(R321; log entry 53 for one that comes after its close). -/
theorem State.slotOpen_due :
    s.slotOpen i =
      let e := bankEntry s.bankNow i
      let t := s.sch.cycT + e.off
      if !s.partOpen e.part || decide (s.now ≥ t + e.len) then (s.noted i).countSkip i e.ctx
      else if s.heldByOther e.part e.ctx then (s.noted i).modSchPart e.part fun x => { x with opening := some (i, t, t + e.len) }
      else (s.noted i).openGo i (t + e.len) := by
  unfold State.slotOpen
  extract_lets e t u close
  rw [if_neg]
  · rfl
  · have hlate : ¬s.now < t := Nat.not_lt.mpr hdue
    have hin : ¬i ≥ bankCount s.bankNow := Nat.not_le.mpr hcount
    simp [hon, hin, show e.len ≠ 0 from hlen, show i ∉ s.sch.opened by simpa using hnew, hlate, hpend]

theorem State.slotOpen_skips (h : s.partOpen (bankEntry s.bankNow i).part = false ∨
      s.sch.cycT + (bankEntry s.bankNow i).off + (bankEntry s.bankNow i).len ≤ s.now) :
    s.slotOpen i = (s.noted i).countSkip i (bankEntry s.bankNow i).ctx := by
  refine (State.slotOpen_due hon hcount hlen hnew hdue hpend).trans (if_pos ?_)
  simpa using h

theorem State.slotOpen_goes (hpart : s.partOpen (bankEntry s.bankNow i).part = true)
    (hclose : s.now < s.sch.cycT + (bankEntry s.bankNow i).off + (bankEntry s.bankNow i).len)
    (hheld : s.heldByOther (bankEntry s.bankNow i).part (bankEntry s.bankNow i).ctx = false) :
    s.slotOpen i = (s.noted i).openGo i (s.sch.cycT + (bankEntry s.bankNow i).off + (bankEntry s.bankNow i).len) := by
  refine (State.slotOpen_due hon hcount hlen hnew hdue hpend).trans ((if_neg ?_).trans (if_neg ?_))
  · simpa [hpart] using hclose
  · simp [hheld]

end

/-- The partition of entry `i`, which is `e`, has passed to its context, in a slot that opens now (R321). -/
def State.slotTaken (s : State) (i : Nat) (e : SlotEnt) : State :=
  ((s.modSchPart e.part fun x => { x with opening := none }).setHolder e.part (.slot e.ctx)).modSlot i
    fun t => { t with open_ := s.now, used := 0xFFFFFFFF }

@[simp] theorem State.slotTaken_opened (s : State) (i : Nat) (e : SlotEnt) : (s.slotTaken i e).sch.opened = s.sch.opened := rfl
@[simp] theorem State.slotTaken_tiles (s : State) (i : Nat) (e : SlotEnt) : (s.slotTaken i e).tiles = s.tiles := rfl
@[simp] theorem State.slotTaken_queues (s : State) (i : Nat) (e : SlotEnt) : (s.slotTaken i e).queues = s.queues := rfl
@[simp] theorem State.slotTaken_descs (s : State) (i : Nat) (e : SlotEnt) : (s.slotTaken i e).descs = s.descs := rfl
@[simp] theorem State.slotTaken_mem (s : State) (i : Nat) (e : SlotEnt) : (s.slotTaken i e).mem = s.mem := rfl

theorem State.slotTaken_holder (s : State) (i : Nat) (e : SlotEnt) :
    ((s.slotTaken i e).schPart e.part).holder = .slot e.ctx := by
  change SchPart.holder (SMap.getD (SMap.set _ _ _) _ _) = _
  rw [SMap.getD, SMap.get?_set_self, Option.getD_some]
  dsimp only
  split
  next h => exact h
  next => rfl

/-- A context that is not pre-empted has nothing to resume from. -/
theorem State.schResume_of_not_preempted {s : State} {c : Nat} {x : Ctx} (hx : s.ctx? c = some x)
    (hpre : x.preempted = none) : s.schResume c = s := by
  rw [State.schResume, if_neg]
  simp [State.ctxIs, hx, hpre]

/-- The question whether a LAUNCH waits draws at most a free value. -/
theorem State.launchWaits_free (s : State) (p c : Nat) :
    (s.launchWaits p c).1 = { s with free := (s.launchWaits p c).1.free } := by
  unfold State.launchWaits
  extract_lets qs
  split
  split
  · rfl
  · split <;> rfl

/-- Whether a LAUNCH waits does not hang on the schedule. -/
theorem State.launchWaits_sch (s : State) (x : Sch) (p c : Nat) :
    (({ s with sch := x } : State).launchWaits p c).2 = (s.launchWaits p c).2 := by
  simp only [State.launchWaits, apply_ite Prod.snd]
  rfl

section
variable {s : State} {i : Nat} {e : SlotEnt} {x : Ctx} (he : bankEntry s.bankNow i = e) (hx : s.ctx? e.ctx = some x)
  (hstep : x.bstep = false) (hpre : x.preempted = none) (hpreing : x.preempting = none)
  (hflt : x.flt = .run ∨ x.flt = .suspect) (hfence : (s.fab.ctx e.ctx).fenced = false)
  (hback : s.backfilling e.part e.ctx = [])
  (hstop : (s.ctxs.any fun y => y.1 ≠ e.ctx && y.2.preempting = some .sch && (y.2.part = e.part || y.1 = e.bfctx)) = false)
  (hwait : (s.launchWaits e.part e.ctx).2 = true)
include he hx hstep hpre hpreing hflt hfence hback hstop hwait

/-- With nothing to stop first and a LAUNCH waiting, an opening takes the partition and admits a batch step (R321). -/
theorem State.openGo_admits (close : Nat) :
    s.openGo i close =
      ((s.slotTaken i e).launchWaits e.part e.ctx).1.admitStep e.ctx (some (some i, s.now)) := by
  subst he
  have hresume := State.schResume_of_not_preempted (s := s.slotTaken i (bankEntry s.bankNow i)) hx hpre
  unfold State.openGo
  extract_lets e c p bfs stopping u1 u2 u3 u4 may
  have hu : u4 = s.slotTaken i e := hresume
  have hctx : u4.ctx? c = some x := (congrArg (State.ctx? · c) hu).trans hx
  have hidle : ¬(u4.ctxIs c fun x => x.bstep) = true := by simp [State.ctxIs, hctx, hstep]
  have hmay : may = true := by
    have hfree : (u4.fab.ctx c).fenced = false := (congrArg (fun u : State => (u.fab.ctx c).fenced) hu).trans hfence
    simpa [may, State.ctxIs, hctx, hpre, hpreing, hfree] using hflt
  have hlaunch : (u4.launchWaits p c).2 = true := by
    rw [hu]
    exact (s.launchWaits_sch (s.slotTaken i e).sch p c).trans hwait
  have hnow : (u4.launchWaits p c).1.now = s.now := by
    rw [State.launchWaits_free, hu]
    rfl
  have hgo : ¬(!bfs.isEmpty || stopping) = true := by
    rw [show bfs = [] from hback, show stopping = false from hstop]
    decide
  rw [if_neg hgo, if_neg hidle, if_pos hmay, ← hu, ← hnow]
  exact if_pos hlaunch

/-- What an opening that admits a batch step leaves: the step in progress, in the version that ADMIT names, and the partition
with its context; the work in progress and the entries opened stay (R314, R321). -/
theorem State.openGo_admits_step (close : Nat) :
    (s.openGo i close).batchStep e.ctx = some (true, x.admVer, some (some i, s.now)) ∧
      ((s.openGo i close).schPart e.part).holder = .slot e.ctx ∧ (s.openGo i close).sch.opened = s.sch.opened ∧
      (s.openGo i close).tiles = s.tiles ∧ (s.openGo i close).queues = s.queues ∧ (s.openGo i close).descs = s.descs ∧
      (s.openGo i close).mem = s.mem := by
  have hgo := State.openGo_admits he hx hstep hpre hpreing hflt hfence hback hstop hwait close
  obtain ⟨n, hfree⟩ : ∃ n, ((s.slotTaken i e).launchWaits e.part e.ctx).1 = { s.slotTaken i e with free := n } :=
    ⟨_, State.launchWaits_free _ _ _⟩
  have hx' : ({ s.slotTaken i e with free := n } : State).ctx? e.ctx = some x := hx
  rw [hgo, hfree]
  have hstep' := State.admitStep_batchStep hx' (some (some i, s.now))
  have hbeside := State.admitStep_besideAdmission hx' (some (some i, s.now))
  generalize State.admitStep { s.slotTaken i e with free := n } e.ctx (some (some i, s.now)) = u at hstep' hbeside ⊢
  obtain ⟨hopened, hparts, htiles, hqueues, hdescs, hmem⟩ := State.kept_of_besideAdmission hbeside
  have hholder : (u.schPart e.part).holder = .slot e.ctx := by
    rw [State.schPart, hparts]
    exact s.slotTaken_holder i e
  exact ⟨hstep', hholder, hopened.trans (s.slotTaken_opened i e), htiles.trans (s.slotTaken_tiles i e),
    hqueues.trans (s.slotTaken_queues i e), hdescs.trans (s.slotTaken_descs i e), hmem.trans (s.slotTaken_mem i e)⟩

end

/-! Closes and cycles -/

theorem State.slotClose_stays {s : State} {i : Nat} (h : s.sch.opened.contains i = false ∨
      s.now < s.sch.cycT + (bankEntry s.bankNow i).off + (bankEntry s.bankNow i).len) : s.slotClose i = s := by
  rw [State.slotClose, if_pos]
  simpa using h

/-- A slot that closes on the batch step it admitted counts one overrun of the slot and of its context, which keeps the time
(R323). -/
theorem State.slotClose_overruns {s : State} {i t : Nat} {x : Ctx} (hopen : s.sch.opened.contains i = true)
    (hclose : s.sch.cycT + (bankEntry s.bankNow i).off + (bankEntry s.bankNow i).len ≤ s.now)
    (hx : s.ctx? (bankEntry s.bankNow i).ctx = some x) (hstep : x.bstep = true) (hslot : x.bstepSlot = some (some i, t))
    (hover : x.overSince = none) (hwaits : (s.schPart (bankEntry s.bankNow i).part).opening = none) :
    s.slotClose i = (s.modSlot i fun t => { t with overruns := satInc t.overruns }).modCtx (bankEntry s.bankNow i).ctx fun x =>
      { x with
        overSince := some (s.sch.cycT + (bankEntry s.bankNow i).off + (bankEntry s.bankNow i).len)
        overruns := satInc x.overruns } := by
  unfold State.slotClose
  extract_lets e close u
  have hdue : ¬(!s.sch.opened.contains i || decide (s.now < close)) = true := by
    rw [hopen, decide_eq_false (Nat.not_lt.mpr hclose)]
    decide
  have hu : u = (s.modSlot i fun t => { t with overruns := satInc t.overruns }).modCtx e.ctx fun x =>
      { x with overSince := some close, overruns := satInc x.overruns } :=
    if_pos (by simp [State.ctxIs, e, hx, hstep, hslot, hover])
  have hnone : (u.schPart e.part).opening = none := (congrArg (fun v : State => (v.schPart e.part).opening) hu).trans hwaits
  rw [if_neg hdue, hnone]
  exact hu

/-- Every slot that opened in this cycle has closed. -/
def State.slotsClosed (s : State) : State := s.sch.opened.foldl (fun (s : State) i => s.slotClose i) s

theorem State.slotsClosed_besideSlots (s : State) : s.slotsClosed.besideSlots = s.besideSlots :=
  State.foldl_keeps State.besideSlots (fun u i => u.slotClose_besideSlots i) s.sch.opened s

/-- When the cycle ends and no commit takes effect, its slots close and the next one begins (R317). -/
theorem State.cycleNext_due {s : State} (hon : s.tableOn = true) (hdue : s.sch.cycT + bankCycle s.bankNow ≤ s.now)
    (hpend : s.sch.pend = none) :
    s.cycleNext = { s.slotsClosed with sch := { s.slotsClosed.sch with
      cycT := s.sch.cycT + bankCycle s.bankNow, cycles := s.slotsClosed.sch.cycles + 1, opened := [] } } := by
  rw [State.cycleNext, if_neg]
  · rfl
  · simpa [hon, hpend] using hdue

/-! The statement -/

/-- Settles O35: commits by the swapped banks, openings and closes by one equation for each case, and each frame by what the
operations on slots, holders and admissions leave alone. -/
theorem commitsTakeEffectAndSlotsOpen : Obligations.CommitsTakeEffectAndSlotsOpen := by
  refine ⟨fun s tee hmay => exec_schCommit hmay, fun s e hpend hnow => exec_schCommitEffect_due hpend hnow,
    fun s e h => exec_schCommitEffect_stays h, fun s tee hmay hload hbank hpend => ?commits, fun s e hpend hnow => ?effect,
    fun s i hi => exec_slotOpen hi s, fun s i hi => exec_slotClose hi s, fun s => rfl,
    fun s i hi hon hcount hlen hnew hdue hpend h => ?skips, fun s i hi h => ?stays,
    fun s i x hi hon hcount hlen hnew hpend hdue hclose hpart hheld _ hx hstep hpre hpreing hflt hfence hback hstop hwait =>
      ?admits,
    fun s i t x hi hopen hclose hx hstep hslot hover hwaits => ?overruns, fun s hon hdue hpend => ?cycle⟩
  case commits =>
    rw [exec_schCommit hmay, State.schCtl_commits hload hbank hpend]
    rfl
  case effect =>
    have h := s.commitEffect_besideHolders e
    refine ⟨_, exec_schCommitEffect_due hpend hnow, ?_⟩
    generalize s.commitEffect e = u at h ⊢
    exact ⟨congrArg (·.sch.bank) h, congrArg (·.sch.pend) h, congrArg (·.sch.cycT) h, congrArg (·.sch.slots) h,
      congrArg (·.sch.opened) h, congrArg (·.sch.bankA) h, congrArg (·.sch.bankB) h, congrArg (·.tiles) h,
      congrArg (·.descs) h, congrArg (·.mem) h⟩
  case skips =>
    rw [exec_slotOpen hi, State.slotOpen_skips hon hcount hlen hnew hdue hpend h]
    rfl
  case stays => rw [exec_slotClose hi, State.slotClose_stays h]
  case admits =>
    have hgoes := State.slotOpen_goes hon hcount hlen hnew hdue hpend hpart hclose hheld
    have hwait' := (s.launchWaits_sch (s.noted i).sch _ _).trans hwait
    have hadmits := State.openGo_admits_step (s := s.noted i) (i := i) (e := bankEntry s.bankNow i) rfl hx hstep hpre hpreing
      hflt hfence hback hstop hwait' (s.sch.cycT + (bankEntry s.bankNow i).off + (bankEntry s.bankNow i).len)
    rw [← hgoes] at hadmits
    obtain ⟨hbatch, hholder, hopened, hwork⟩ := hadmits
    exact ⟨_, exec_slotOpen hi s, hopened, hbatch, hholder, hwork⟩
  case overruns =>
    have h := State.slotClose_overruns hopen hclose hx hstep hslot hover hwaits
    refine ⟨_, (exec_slotClose hi s).trans (congrArg Host.Outcome.next h), ?_, ?_, rfl, rfl, rfl, rfl⟩
    · rw [State.ctx?, State.modCtx_ctxs, SMap.get?_adj, if_pos rfl]
      exact congrArg (Option.map _) hx
    · exact congrArg SlotStat.overruns (SMap.getD_setD_self s.sch.slots i _ SlotStat.reset)
  case cycle =>
    have h := s.slotsClosed_besideSlots
    refine ⟨_, congrArg Host.Outcome.next (State.cycleNext_due hon hdue hpend), ?_⟩
    generalize s.slotsClosed = u at h ⊢
    exact ⟨rfl, congrArg (·.sch.cycles + 1) h, rfl, congrArg (·.sch.bank) h,
      congrArg (·.tiles) h, congrArg (·.queues) h, congrArg (·.descs) h, congrArg (·.mem) h⟩

end Sys2Proof.Machine
end

section
/-! SUPPORT. Loads: the word of DEV_LOAD_CTL and what a write of it does, the end of a load, a partial container that passes
its check phase, and partial loads that apply (R345, R346, R349, R352, R354, R355). -/
namespace Sys2Proof.Machine

/-! The word of DEV_LOAD_CTL -/

theorem b2n_lt_two (b : Bool) : b2n b < 2 := by cases b <;> decide

theorem getLsbD_of_b2n {w : W32} {i : Nat} {b : Bool} (h : w.toNat / 2 ^ i % 2 = b2n b) : w.getLsbD i = b := by
  rw [BitVec.getLsbD, Nat.testBit_eq_decide_div_mod_eq, h]
  cases b <;> rfl

/-- The fields of the word: VEC and IRQEN as given, START and ABORT, and the reserved bits zero (R355). -/
theorem loadCtlWord_fields {vec : Nat} (hvec : vec < 2048) {start abort irqen : Bool} {w : W32}
    (hw : loadCtlWord start abort vec irqen = w) :
    fld w 12 11 = vec ∧ w.getLsbD 0 = irqen ∧ w.getLsbD 31 = start ∧ w.getLsbD 30 = abort ∧
      fld w 23 7 = 0 ∧ fld w 1 11 = 0 := by
  have hs := b2n_lt_two start
  have ha := b2n_lt_two abort
  have hi := b2n_lt_two irqen
  have hnat : w.toNat = b2n start * 2 ^ 31 + b2n abort * 2 ^ 30 + vec * 2 ^ 12 + b2n irqen := by
    rw [← hw, loadCtlWord, BitVec.toNat_ofNat, Nat.mod_eq_of_lt (by omega)]
  simp only [fld, nbits, Nat.shiftRight_eq_div_pow]
  refine ⟨?_, getLsbD_of_b2n ?_, getLsbD_of_b2n ?_, getLsbD_of_b2n ?_, ?_, ?_⟩ <;> omega

/-- The load with VEC and IRQEN as the last write of DEV_LOAD_CTL gave them. -/
def State.loadIrq (s : State) (vec : Nat) (irqen : Bool) : State :=
  { s with load := { s.load with vec := vec, irqen := irqen } }

/-! What a write of START or of ABORT does -/

section
variable {s : State} {vec : Nat} (irqen : Bool)

/-- With no load, no lock that bars one, an ABI agreed and the container below 2^44, START begins the check phase (R349). -/
theorem State.loadCtl_starts (hvec : vec < 2048) (hidle : s.load.st = .idle) (hlock : s.loadLocked = false)
    (habi : s.hif.agreed ≠ 0) (haddr : s.load.addr.toNat + s.load.len.toNat ≤ 2 ^ 44) :
    s.loadCtl (loadCtlWord true false vec irqen) = ({ s with load := { s.load with
      vec := vec, irqen := irqen, st := .check, since := s.now, abi := s.hif.agreed, record := s.flt.retired
      staged := none } }, none) := by
  obtain ⟨hv, hi, hs, -, hr, hr'⟩ := loadCtlWord_fields hvec (w := loadCtlWord true false vec irqen) rfl
  simp only [State.loadCtl, hv, hi, hs, hr, hr', hidle, hlock, habi, haddr, gt_iff_lt, Nat.not_lt.mpr, ne_eq, not_true_eq_false,
    bne_self_eq_false, decide_false, Bool.or_self, Bool.and_false, Bool.false_eq_true, if_false, if_true]
  rfl

/-- ABORT without START takes VEC and IRQEN and abandons the load in progress (R354). -/
theorem State.loadCtl_aborts (hvec : vec < 2048) :
    s.loadCtl (loadCtlWord false true vec irqen) = ((s.loadIrq vec irqen).loadAbandon, none) := by
  obtain ⟨hv, hi, hs, ha, hr, hr'⟩ := loadCtlWord_fields hvec (w := loadCtlWord false true vec irqen) rfl
  simp only [State.loadCtl, hv, hi, hs, ha, hr, hr', bne_self_eq_false, Bool.or_self, Bool.false_and, Bool.false_eq_true,
    if_false, if_true]
  rfl

end

theorem State.loadAbandon_of_check {s : State} (h : s.load.st = .check) : s.loadAbandon = s.loadFail .abandoned 0 0 := by
  rw [State.loadAbandon, h]

theorem State.loadAbandon_of_apply {s : State} {g : Staged} (h : s.load.st = .apply) (hg : s.load.staged = some g) :
    s.loadAbandon = s.applyFail g .abandoned 0 0 := by
  rw [State.loadAbandon, h, hg]

section
variable {s : State} {vec : Nat} {tee : Bool} (hvec : vec < 2048) (hmay : HostMay s .dev tee) (irqen : Bool)
include hvec hmay

theorem exec_loadStart : exec (.loadStart vec irqen tee) s =
    .next (State.recordRes 0 0xC01010 (s.loadCtl (loadCtlWord true false vec irqen))) :=
  (guardWf_next (decide_eq_true hvec)).trans (congrArg _ (State.hostWrite_of_hostMay hmay _ _ _))

theorem exec_loadAbort : exec (.loadAbort vec irqen tee) s =
    .next (State.recordRes 0 0xC01010 (s.loadCtl (loadCtlWord false true vec irqen))) :=
  (guardWf_next (decide_eq_true hvec)).trans (congrArg _ (State.hostWrite_of_hostMay hmay _ _ _))

theorem exec_loadAbort_abandons : exec (.loadAbort vec irqen tee) s = .next (s.loadIrq vec irqen).loadAbandon := by
  rw [exec_loadAbort hvec hmay, State.loadCtl_aborts irqen hvec, State.recordRes]

end

/-! The end of a load -/

/-- All but the event record, the message and the microseconds by which the end of a load is reported (R346, R352). -/
def State.besideReport (s : State) : State :=
  { s with hrt := Hrt.reset, out := [], hif := { s.hif with pba := [] }, load := { s.load with us := 0 } }

@[simp] theorem State.msix_besideReport (s : State) (v : Nat) : (s.msix v).besideReport = s.besideReport := by
  unfold State.msix
  split
  · rfl
  · split <;> rfl

/-- Beside its report, the end of a load takes the load engine back to idle and drops what was staged. -/
theorem State.loadEnd_besideReport (s : State) (st : Status) :
    (s.loadEnd st).besideReport = { s with load := { s.load with st := .idle, staged := none } }.besideReport := by
  simp only [State.loadEnd, apply_ite State.besideReport, State.msix_besideReport, ite_self]
  rfl

theorem State.loadFail_besideReport (s : State) (st : Status) (sect off : Nat) :
    (s.loadFail st sect off).besideReport =
      { s with load := { s.load with
          err := true, lastErr := st, errSect := sect % 256, errOff := BitVec.ofNat 32 (min off 0xFFFFFFFF), st := .idle
          staged := none } }.besideReport :=
  State.loadEnd_besideReport _ st

theorem State.workKept_of_besideReport {s u : State} (h : u.besideReport = s.besideReport) : WorkKept s u :=
  ⟨congrArg (·.tiles) h, congrArg (·.queues) h, congrArg (·.ctxs) h, congrArg (·.descs) h, congrArg (·.mem) h⟩

/-! The check phase -/

theorem exec_loadCheckDone {s : State} (h : s.loadRuns .check = true) {r : CheckRead}
    (hwf : (Instr.loadCheckDone r).wf = true) : exec (.loadCheckDone r) s = .next (s.loadChecked r) :=
  (guardWf_next hwf).trans (congrArg _ (if_pos h))

theorem wf_loadCheckDone_read {c : Container} (hhdr : c.hdr.length = 128) (hsig : c.sig.length = 256) :
    (Instr.loadCheckDone (.read c)).wf = true := by
  simp [Instr.wf, hhdr, hsig]

theorem State.loadChecked_failed (s : State) (e : HostErr) :
    s.loadChecked (.failed e) = s.loadFail (if s.t3Denied then .denied else e.status) 0 0 := by
  rw [State.loadChecked]
  split <;> rfl

theorem State.loadChecked_rejects {s : State} {c : Container} {st : Status} {i o : Nat} (hden : s.t3Denied = false)
    (hchk : s.containerChk c = some (st, i, o)) : s.loadChecked (.read c) = s.loadFail st i o := by
  simp only [State.loadChecked, hden, hchk, Bool.false_eq_true, if_false]

/-- The state in which a partial container has passed, before the dies it needs are woken. -/
def State.partialChecked (s : State) (c : Container) : State :=
  { s.keepNonce c with load := { s.load with
      st := .apply
      staged := some ((c.opened s.loadKey).staged
        ((c.opened s.loadKey).ctxsNamed s.lgrpCtx ((s.stages.map fun e => e.2.ctx).eraseDups))) } }

/-- All but the power and reset state of the dies. -/
def State.besideDies (s : State) : State := { s with pwr := { s.pwr with dies := [] } }

@[simp] theorem State.wakeDeep_besideDies (s : State) (d : Nat) : (s.wakeDeep d).besideDies = s.besideDies := by
  unfold State.wakeDeep State.wakeDie
  split
  · split <;> rfl
  · rfl

/-- Beside the dies that it wakes, a partial container that passes is staged, and its NONCE kept (R345, R349, R353). -/
theorem State.loadChecked_partial_besideDies {s : State} {c : Container} (hden : s.t3Denied = false)
    (hchk : s.containerChk c = none) (hpart : c.partial_ = true)
    (hsects : State.sectsChk { s with flt := { s.flt with retired := s.load.record } } true s.selfDev
      (c.opened s.loadKey).tables = none)
    (hbusy : s.reloadBusy (c.opened s.loadKey) = none) :
    (s.loadChecked (.read c)).besideDies = (s.partialChecked c).besideDies := by
  have hopen : (c.opened s.loadKey).partial_ = true := hpart
  have hfull (named : List Nat) : ((c.opened s.loadKey).staged named).full = false := congrArg not hopen
  simp only [State.loadChecked, hden, hchk, hopen, hsects, hbusy, hfull, Bool.false_eq_true, if_false, if_true]
  refine (State.foldl_keeps State.besideDies State.wakeDeep_besideDies _ _).trans ?_
  rfl

/-! The apply phase of a partial load -/

/-- All but the tiles: sweeps and writes of images touch nothing else. -/
def State.besideTiles (s : State) : State := { s with tiles := [] }

@[simp] theorem State.sweepPart_besideTiles (s : State) (p : Nat) : (s.sweepPart p).besideTiles = s.besideTiles := rfl

@[simp] theorem State.setTile_besideTiles (s : State) (l : Nat) (t : Tile) : (s.setTile l t).besideTiles = s.besideTiles := by
  unfold State.setTile
  split <;> rfl

@[simp] theorem State.imageWrite_besideTiles (s : State) (p : Nat) (bs : List Byte) :
    (s.imageWrite p bs).besideTiles = s.besideTiles :=
  State.foldl_keeps State.besideTiles (fun u _ =>
    State.foldl_keeps State.besideTiles (fun v l => v.setTile_besideTiles l _) _ u) _ s

@[simp] theorem State.imagesWrite_besideTiles (s : State) (xs : List (Nat × List Byte)) :
    (s.imagesWrite xs).besideTiles = s.besideTiles := by
  rw [State.imagesWrite]
  exact State.foldl_keeps State.besideTiles (fun u x => u.imageWrite_besideTiles x.1 x.2) xs s

/-- The scratchpads of the partitions whose images a load carries are swept, and the images written (R349, Table 11.9). -/
def State.imagesApplied (s : State) (g : Staged) (xs : List (Nat × List Byte)) : State :=
  ((g.images.map (·.1)).foldl (fun (s : State) p => s.sweepPart p) s).imagesWrite xs

theorem State.imagesApplied_besideTiles (s : State) (g : Staged) (xs : List (Nat × List Byte)) :
    (s.imagesApplied g xs).besideTiles = s.besideTiles := by
  rw [State.imagesApplied, State.imagesWrite_besideTiles]
  exact State.foldl_keeps State.besideTiles State.sweepPart_besideTiles _ s

/-- The completion of a partial load is counted (Table 11.11). -/
def State.partialCounted (s : State) : State := { s with load := { s.load with partials := satInc s.load.partials } }

/-- A partial load of images alone, all of them correct: they are applied, and the load ends and counts (R349, R352). -/
theorem State.loadApplied_images {s : State} {g : Staged} {r : ImageRead} {xs : List (Nat × List Byte)}
    (hfull : g.full = false) (hsects : g.sects = []) (hden : s.t3Denied = false)
    (hread : s.imagesRead g g.images r.sects r.fail = (xs, none)) :
    s.loadApplied g r = (s.imagesApplied g xs).partialCounted.loadEnd .ok := by
  simp only [State.loadApplied, State.instTables, State.instFrame, State.instLast, hfull, hsects, hden, hread,
    Bool.false_eq_true, if_false, List.foldl_nil, State.imagesApplied, State.partialCounted, List.foldl_map]

/-- With no request held and no BAR4 access waiting, nothing goes on. -/
theorem State.resume_of_none {s : State} (hserved : s.fab.served = []) (hbar4 : s.hif.bar4 = []) : s.resume = s := by
  have hfab : { s.fab with served := [] } = s.fab := by rw [← hserved]
  have hhif : { s.hif with bar4 := [] } = s.hif := by rw [← hbar4]
  rw [State.resume, State.serveHeld, hserved, List.foldl_nil, hfab, State.bar4Held, hbar4, List.foldl_nil, hhif]

theorem exec_loadComplete {s : State} {g : Staged} (hruns : s.loadRuns .apply = true) (hg : s.load.staged = some g)
    (hdies : ((s.loadDies g).any fun d => s.downDies.contains d) = false) (r : ImageRead) :
    exec (.loadComplete r) s = .next (s.loadApplied g r).resume := by
  change execLoadComplete r s = _
  simp only [execLoadComplete, hg, hruns, hdies, Bool.not_false, Bool.and_true, if_true]

/-! The statement -/

/-- Settles O39: writes of DEV_LOAD_CTL by the fields of its word, the ends of a load by what its report leaves alone, the
check phase by its verdict, and the apply phase of a partial load by what sweeps and image writes leave alone. -/
theorem loadsRunTheirPhases : Obligations.LoadsRunTheirPhases := by
  refine ⟨fun s vec irqen tee hvec hmay => exec_loadStart hvec hmay irqen,
    fun s vec irqen tee hvec hmay => exec_loadAbort hvec hmay irqen,
    fun s vec irqen tee hvec hmay hidle hlock habi haddr => ?starts, fun s vec irqen tee hvec hmay hcheck => ?abandonsCheck,
    fun s g vec irqen tee hvec hmay happly hg => ?abandonsApply, fun s e hruns => ?unread,
    fun s c st i o hhdr hsig hruns hden hchk => ?rejects,
    fun s c hhdr hsig hruns => exec_loadCheckDone hruns (wf_loadCheckDone_read hhdr hsig),
    fun s c hhdr hsig hruns hden hchk hpart hsects hbusy => ?passes,
    fun s g r hruns hg hdies => exec_loadComplete hruns hg hdies r,
    fun s g r xs hruns hg hfull hsects hdies hden hread hserved hbar4 => ?applies⟩
  case starts =>
    rw [exec_loadStart hvec hmay, State.loadCtl_starts irqen hvec hidle hlock habi haddr]
    rfl
  case abandonsCheck =>
    have h := (s.loadIrq vec irqen).loadFail_besideReport .abandoned 0 0
    have hwork := State.workKept_of_besideReport h
    refine ⟨_, (exec_loadAbort_abandons hvec hmay irqen).trans (congrArg _ (State.loadAbandon_of_check hcheck)), ?_⟩
    exact ⟨congrArg (·.load.st) h, congrArg (·.load.err) h, congrArg (·.load.lastErr) h, congrArg (·.load.vec) h,
      congrArg (·.load.frame) h, congrArg (·.load.program) h, congrArg (·.load.id) h, congrArg (·.load.partials) h, hwork⟩
  case abandonsApply =>
    exact (exec_loadAbort_abandons hvec hmay irqen).trans (congrArg _ (State.loadAbandon_of_apply happly hg))
  case unread => rw [exec_loadCheckDone hruns rfl, State.loadChecked_failed]
  case rejects =>
    rw [exec_loadCheckDone hruns (wf_loadCheckDone_read hhdr hsig), State.loadChecked_rejects hden hchk]
  case passes =>
    have h := State.loadChecked_partial_besideDies hden hchk hpart hsects hbusy
    have hstaged := congrArg (·.load.staged) h
    refine ⟨_, exec_loadCheckDone hruns (wf_loadCheckDone_read hhdr hsig), congrArg (·.load.st) h, ?_, ?_, ?_, ?_,
      congrArg (·.sec.ownerNonce) h, congrArg (·.sec.tenantNonce) h, congrArg (·.tiles) h, congrArg (·.queues) h,
      congrArg (·.ctxs) h, congrArg (·.descs) h, congrArg (·.mem) h⟩
    · refine (congrArg (Option.map (·.full)) hstaged).trans ?_
      exact congrArg (some ∘ not) hpart
    · exact congrArg (Option.map (·.images)) hstaged
    · exact congrArg (Option.map (·.sects)) hstaged
    · exact congrArg (Option.map (·.nonce)) hstaged
  case applies =>
    have ht := s.imagesApplied_besideTiles g xs
    have h := (s.imagesApplied g xs).partialCounted.loadEnd_besideReport .ok
    rw [← State.loadApplied_images hfull hsects hden hread] at h
    have hserved' : (s.loadApplied g r).fab.served = [] :=
      (congrArg (·.fab.served) h).trans ((congrArg (·.fab.served) ht).trans hserved)
    have hbar4' : (s.loadApplied g r).hif.bar4 = [] :=
      (congrArg (·.hif.bar4) h).trans ((congrArg (·.hif.bar4) ht).trans hbar4)
    rw [exec_loadComplete hruns hg hdies, State.resume_of_none hserved' hbar4']
    refine ⟨_, rfl, congrArg (·.load.st) h,
      congrArg (·.load.staged) h, ?_, ?_, congrArg (·.tiles) h, ?_, ?_, ?_, ?_⟩
    · exact (congrArg (·.load.partials) h).trans (congrArg (fun u => satInc u.load.partials) ht)
    · exact (congrArg (·.load.err) h).trans (congrArg (·.load.err) ht)
    · exact (congrArg (·.queues) h).trans (congrArg (·.queues) ht)
    · exact (congrArg (·.ctxs) h).trans (congrArg (·.ctxs) ht)
    · exact (congrArg (·.descs) h).trans (congrArg (·.descs) ht)
    · exact (congrArg (·.mem) h).trans (congrArg (·.mem) ht)

end Sys2Proof.Machine
end

section
/-! SUPPORT. What work stands on: reference time, the load, the partitions, the Gauntlet, power and resets, and the monitors
of whole dies. Work that starts, stops, fails, is pre-empted or resumed leaves them alone (R35, R154, R270, R334, R365). -/
namespace Sys2Proof.Machine

/-- Reference time, the load, the partitions, the Gauntlet, power and resets, and the monitors of whole dies. -/
def State.footing (s : State) : RefTime × Load × SMap Part × Sec × Pwr × SMap Brm :=
  (s.time, s.load, s.flt.parts, s.sec, s.pwr, s.brmDie)

section
variable {s u : State} (h : u.footing = s.footing)
include h

theorem State.now_of_footing : u.now = s.now := congrArg (·.1.now) h
theorem State.load_of_footing : u.load = s.load := congrArg (·.2.1) h
theorem State.part?_of_footing (p : Nat) : u.part? p = s.part? p := congrArg (SMap.get? · p) (congrArg (·.2.2.1) h)
theorem State.sec_of_footing : u.sec = s.sec := congrArg (·.2.2.2.1) h
theorem State.pwr_of_footing : u.pwr = s.pwr := congrArg (·.2.2.2.2.1) h
theorem State.brmDie_of_footing : u.brmDie = s.brmDie := congrArg (·.2.2.2.2.2) h

end

/-- What every step of a fold keeps of a state that is carried with something else, the fold keeps. -/
theorem State.foldl_fst_keeps {α β γ : Type} (g : State → β) {f : State × γ → α → State × γ}
    (h : ∀ r a, g (f r a).1 = g r.1) (l : List α) (r : State × γ) : g (l.foldl f r).1 = g r.1 :=
  l.foldlRecOn (motive := fun u => g u.1 = g r.1) f rfl fun u hu a _ => (h u a).trans hu

/-! Flags, messages and the tiers -/

theorem State.footing_of_tiersOnly {s v : State} (h : s.TiersOnly v) : v.footing = s.footing :=
  (congrArg State.footing h :)

@[simp] theorem State.setFlag_footing (s : State) (c : Nat) (psn : Bool) : (s.setFlag c psn).footing = s.footing :=
  (congrArg State.footing (s.setFlag_besideAdmission c psn) :)

@[simp] theorem State.ev_footing (s : State) (a b c d e : Nat) : (s.ev a b c d e).footing = s.footing := rfl

@[simp] theorem State.msix_footing (s : State) (v : Nat) : (s.msix v).footing = s.footing := by
  unfold State.msix
  split
  · rfl
  · split <;> rfl

@[simp] theorem State.sigIrq_footing (s : State) (g : Signal) : (s.sigIrq g).footing = s.footing := by
  unfold State.sigIrq
  split
  · exact s.msix_footing _
  · rfl

@[simp] theorem State.dropSigs_footing (s : State) (c : Nat) : (s.dropSigs c).footing = s.footing :=
  State.foldl_keeps State.footing State.sigIrq_footing _ _

@[simp] theorem State.dropWait?_footing (s : State) (w : Option Nat) : (s.dropWait? w).footing = s.footing :=
  State.footing_of_tiersOnly (s.dropWait?_tiersOnly w)

@[simp] theorem State.dropWait_footing (s : State) (w : Nat) : (s.dropWait w).footing = s.footing :=
  s.dropWait?_footing (some w)

@[simp] theorem State.setTile_footing (s : State) (l : Nat) (t : Tile) : (s.setTile l t).footing = s.footing := by
  unfold State.setTile
  split <;> rfl

@[simp] theorem State.spdWrite_footing (s : State) (l a : Nat) (bs : List Byte) (bad : List Nat) :
    (s.spdWrite l a bs bad).1.footing = s.footing := by
  unfold State.spdWrite
  split <;> rfl

/-! The schedule -/

@[simp] theorem State.modSchPart_footing (s : State) (p : Nat) (f : SchPart → SchPart) :
    (s.modSchPart p f).footing = s.footing := rfl

@[simp] theorem State.modSlot_footing (s : State) (i : Nat) (f : SlotStat → SlotStat) :
    (s.modSlot i f).footing = s.footing := rfl

@[simp] theorem State.setHolder_footing (s : State) (p : Nat) (h : Holder) : (s.setHolder p h).footing = s.footing :=
  s.modSchPart_footing p _

@[simp] theorem State.countSkip_footing (s : State) (i c : Nat) : (s.countSkip i c).footing = s.footing := rfl

@[simp] theorem State.schResume_footing (s : State) (c : Nat) : (s.schResume c).footing = s.footing := by
  unfold State.schResume
  extract_lets u
  split
  · split <;> rfl
  · rfl

@[simp] theorem State.passOn_footing (s : State) (p : Nat) (i : Option Nat) : (s.passOn p i).footing = s.footing := by
  unfold State.passOn
  extract_lets h u
  have hu : u.footing = s.footing := rfl
  clear_value u h
  split
  · exact (u.schResume_footing _).trans hu
  · exact hu

@[simp] theorem State.dropStep_footing (s : State) (c : Nat) : (s.dropStep c).footing = s.footing := by
  unfold State.dropStep
  split
  · rfl
  · dsimp only
    split
    · exact State.passOn_footing _ _ _
    · rfl

@[simp] theorem State.unhold_footing (s : State) (c : Nat) : (s.unhold c).footing = s.footing := rfl

@[simp] theorem State.admitStep_footing (s : State) (c : Nat) (slot : Option (Option Nat × Nat)) :
    (s.admitStep c slot).footing = s.footing := by
  cases hx : s.ctx? c with
  | none => simp only [State.admitStep, hx]
  | some x => exact (congrArg State.footing (State.admitStep_besideAdmission hx slot) :)

@[simp] theorem State.launchWaits_footing (s : State) (p c : Nat) : (s.launchWaits p c).1.footing = s.footing :=
  (congrArg State.footing (s.launchWaits_free p c) :)

/-! Descriptors given up -/

@[simp] theorem State.modDesc_footing (s : State) (id : Nat) (f : Desc → Desc) : (s.modDesc id f).footing = s.footing := rfl

@[simp] theorem State.forget_footing (s : State) (id : Nat) : (s.forget id).footing = s.footing := by
  unfold State.forget
  split
  · rfl
  · refine (State.foldl_keeps State.footing State.dropWait_footing _ _).trans ?_
    dsimp only
    split <;> rfl

@[simp] theorem State.cutShort_footing (s : State) (id : Nat) (st : Status) : (s.cutShort id st).footing = s.footing := by
  unfold State.cutShort
  split
  · rfl
  · split
    · rfl
    · exact s.forget_footing id

@[simp] theorem State.moveCheck_footing (s : State) (id : Nat) : (s.moveCheck id).footing = s.footing := by
  unfold State.moveCheck
  split
  · split
    · split <;> rfl
    · rfl
  · rfl

@[simp] theorem State.failPiece_footing (s : State) (id k : Nat) (st : Status) : (s.failPiece id k st).footing = s.footing :=
  State.moveCheck_footing _ id

/-! Collectives that close without their work (R270, R291, R296) -/

@[simp] theorem State.setInst_footing (s : State) (i : Inst) : (s.setInst i).footing = s.footing := rfl

@[simp] theorem State.dropCollOp_footing (s : State) (id : Nat) : (s.dropCollOp id).footing = s.footing := by
  unfold State.dropCollOp
  split
  · split
    · dsimp only
      split
      · exact State.dropWait?_footing _ _
      · rfl
      · rfl
    · rfl
  · rfl

@[simp] theorem State.instOver_footing (s : State) (i : Inst) : (s.instOver i).footing = s.footing := by
  unfold State.instOver
  extract_lets me shard st u v
  have hv : v.footing = s.footing := rfl
  clear_value v
  split
  · exact (State.modDesc_footing _ _ _).trans ((v.dropCollOp_footing _).trans hv)
  · exact hv

@[simp] theorem State.scramble_footing (s : State) (c sp a : Nat) (bs : List Byte) :
    (s.scramble c sp a bs).footing = s.footing := by
  unfold State.scramble
  split
  · exact s.spdWrite_footing _ _ _ _
  · refine State.foldl_keeps State.footing (fun u j => ?_) _ _
    dsimp only
    split <;> rfl
  · rfl

@[simp] theorem State.permuteLeft_footing (s : State) (i : Inst) : (s.permuteLeft i).footing = s.footing := by
  have hleft (u : State) (ws : List (Nat × Nat × List MByte)) :
      (ws.foldl (fun (s : State) w => s.scramble i.key.ctx w.1 w.2.1 (w.2.2.map (·.1))) u).footing = u.footing :=
    State.foldl_keeps State.footing (fun u w => u.scramble_footing _ _ _ _) ws u
  unfold State.permuteLeft
  split
  · dsimp only
    split
    · split
      · exact hleft _ _
      · rfl
    · exact hleft _ _
  · rfl

@[simp] theorem State.instClose_footing (s : State) (i : Inst) (st : Status) : (s.instClose i st).footing = s.footing :=
  (State.instOver_footing _ _).trans (s.permuteLeft_footing i)

@[simp] theorem State.closeColls_footing (s : State) (c : Nat) (st : Status) : (s.closeColls c st).footing = s.footing :=
  State.foldl_keeps State.footing (fun u i => u.instClose_footing i st) _ _

/-! Pre-emption and openings that wait (R321, R334) -/

@[simp] theorem State.abandonCtx_footing (s : State) (c : Nat) : (s.abandonCtx c).footing = s.footing := by
  unfold State.abandonCtx
  extract_lets u v fab w
  have hu : u.footing = s.footing := s.closeColls_footing c .abandoned
  have hforget : ((u.ctxDescs c).foldl (fun (s : State) e => s.forget e.1) u).footing = u.footing :=
    State.foldl_keeps State.footing (fun t (e : Nat × Desc) => t.forget_footing e.1) _ u
  have hv : v.footing = u.footing := (State.dropSigs_footing _ c).trans hforget
  clear_value v
  have hw : w.footing = v.footing := rfl
  clear_value w
  refine (State.foldl_keeps State.footing (fun t e => ?_) _ w).trans (hw.trans (hv.trans hu))
  exact (State.dropWait?_footing _ _).trans (t.dropWait?_footing _)

@[simp] theorem State.preemptStart_footing (s : State) (c : Nat) (who : Preempter) :
    (s.preemptStart c who).footing = s.footing := by
  unfold State.preemptStart
  split
  · rfl
  · exact (State.dropStep_footing _ c).trans (State.abandonCtx_footing _ c)

@[simp] theorem State.openGo_footing (s : State) (i close : Nat) : (s.openGo i close).footing = s.footing := by
  unfold State.openGo
  extract_lets e c p bfs stopping u1 u2 u3 u4 may
  split
  · refine (State.foldl_keeps State.footing (fun u b => u.preemptStart_footing b .sch) _ _).trans ?_
    exact (u1.modSchPart_footing p _).trans (s.modSlot_footing i _)
  · have hu2 : u2.footing = s.footing := s.modSchPart_footing p _
    clear_value u2
    have hu3 : u3.footing = u2.footing := (State.modSlot_footing _ i _).trans (u2.setHolder_footing p _)
    clear_value u3
    have hu : u4.footing = s.footing := (u3.schResume_footing c).trans (hu3.trans hu2)
    clear_value u4 may
    split
    · exact hu
    · cases may with
      | false => exact (State.passOn_footing _ _ _).trans hu
      | true =>
        have hw := (u4.launchWaits_footing p c).trans hu
        simp only [if_true]
        split
        · exact (State.admitStep_footing _ _ _).trans hw
        · exact (State.passOn_footing _ _ _).trans hw

@[simp] theorem State.schAdvance_footing (s : State) (p : Nat) : (s.schAdvance p).footing = s.footing := by
  unfold State.schAdvance
  split
  · rfl
  · dsimp only
    split
    · exact (State.countSkip_footing _ _ _).trans (s.modSchPart_footing p _)
    · split
      · rfl
      · exact s.openGo_footing _ _

@[simp] theorem State.preemptDone_footing (s : State) (c : Nat) : (s.preemptDone c).footing = s.footing := by
  unfold State.preemptDone
  split
  · rfl
  · split
    · rfl
    · exact State.schAdvance_footing _ _

@[simp] theorem State.preemptKeep_footing (s : State) (c : Nat) : (s.preemptKeep c).footing = s.footing :=
  (State.preemptDone_footing _ c).trans (s.preemptStart_footing c .sch)

/-! Faults of contexts (R138, R366) -/

@[simp] theorem State.enterFaulted_footing (s : State) (c : Nat) (st : Status) (src : Nat) (lead : Option Nat) :
    (s.enterFaulted c st src lead).footing = s.footing := by
  unfold State.enterFaulted
  split
  · rfl
  · exact State.foldl_keeps State.footing (fun u id => by split <;> rfl) _ _

@[simp] theorem State.faultTile_footing (s : State) (l : Nat) (st : Status) (pc : Nat) :
    (s.faultTile l st pc).footing = s.footing := by
  unfold State.faultTile
  extract_lets t u
  split
  · exact (State.enterFaulted_footing _ _ _ _ _).trans (s.setTile_footing _ _)
  · exact s.setTile_footing _ _

@[simp] theorem State.failRemote_footing (s : State) (c : Nat) (st : Status) (to_ : Nat → Bool) :
    (s.failRemote c st to_).footing = s.footing :=
  State.foldl_keeps State.footing (fun u e => by
    split
    · exact u.failPiece_footing _ _ _
    · exact u.faultTile_footing _ _ _) _ _

/-! Retirements installed (R25, R26, R364) -/

@[simp] theorem State.installTile_footing (s : State) (p : Nat) : (s.installTile p).footing = s.footing := by
  unfold State.installTile
  extract_lets flt u note
  have hu : u.footing = s.footing := rfl
  have hnote : ∀ v q, (note v q).footing = v.footing := fun _ _ => rfl
  clear_value u note
  split
  · exact (hnote u none).trans hu
  · split
    · exact (State.ev_footing _ _ _ _ _ _).trans ((hnote _ _).trans hu)
    · exact (State.ev_footing _ _ _ _ _ _).trans ((hnote _ _).trans hu)

@[simp] theorem State.installAll_footing (s : State) (ds : List Due) : (s.installAll ds).footing = s.footing :=
  State.foldl_keeps State.footing (fun u (d : Due) => u.installTile_footing d.ptile) _ s

@[simp] theorem State.degradeCtx_footing (s : State) (c : Nat) : (s.degradeCtx c).footing = s.footing :=
  (State.preemptKeep_footing _ c).trans
    ((State.foldl_keeps State.footing (fun u (e : Nat × Desc) => u.cutShort_footing e.1 .degraded) _ _).trans
      (s.closeColls_footing c .degraded))

end Sys2Proof.Machine
end

section
/-! SUPPORT. What fences, and the collectives that they bring up to date, leave alone (R267 to R272, R282 to R294). -/
namespace Sys2Proof.Machine

theorem State.footing_fab (s : State) (f : Fab) : ({ s with fab := f } : State).footing = s.footing := rfl

/-! Packets sent -/

@[simp] theorem State.sealed_footing (s : State) (k : Packet) : (s.sealed k).1.footing = s.footing := by
  unfold State.sealed
  split
  · rfl
  · split <;> rfl

@[simp] theorem State.send_footing (s : State) (cls : TCls) (k : Packet) : (s.send cls k).footing = s.footing := by
  have h := s.sealed_footing k
  unfold State.send
  split
  next hseal => rwa [hseal] at h
  next hseal => rwa [hseal] at h

@[simp] theorem State.queueOn_footing (s : State) (p : Nat) (cls : TCls) (k : Packet) :
    (s.queueOn p cls k).footing = s.footing := by
  have h := s.sealed_footing k
  unfold State.queueOn
  split
  · rfl
  · split
    next hseal => rwa [hseal] at h
    next hseal => rwa [hseal] at h

@[simp] theorem State.sendColl_footing (s : State) (g : CGroup) (cls : TCls) (k : InstKey) (fo to_ op aux : Nat)
    (pay : List W32) : (s.sendColl g cls k fo to_ op aux pay).footing = s.footing := s.send_footing _ _

@[simp] theorem State.sendCredit_footing (s : State) (g : CGroup) (i : Inst) (fo r n : Nat) :
    (s.sendCredit g i fo r n).footing = s.footing := by
  unfold State.sendCredit
  split
  · rfl
  · exact s.sendColl_footing _ _ _ _ _ _ _ _

/-! Late segments (R285, R286) -/

@[simp] theorem State.dropLate_footing (s : State) (ls : List LateSeg) : (s.dropLate ls).footing = s.footing := by
  refine State.foldl_keeps State.footing (fun u l => ?_) ls s
  rfl

@[simp] theorem State.holdLate_footing (s : State) (l : LateSeg) : (s.holdLate l).footing = s.footing := by
  unfold State.holdLate
  extract_lets room
  split
  · rfl
  · exact s.dropLate_footing _

@[simp] theorem State.takeLate_footing (s : State) (i : Inst) (b : CollBody) (me : Nat) :
    (s.takeLate i b me).1.footing = s.footing := by
  unfold State.takeLate
  extract_lets mine age older fold drop fab u v x f
  have hv : v.footing = u.footing := u.dropLate_footing drop
  exact (v.footing_fab _).trans (hv.trans (s.footing_fab _))

@[simp] theorem State.putAside_footing (s : State) (i : Inst) (b : CollBody) (n r : Nat) :
    (s.putAside i b n r).1.footing = s.footing := by
  refine (State.dropLate_footing _ _).trans (State.foldl_keeps State.footing (fun u gd => ?_) _ _)
  split
  · rfl
  · split
    · exact u.holdLate_footing _
    · rfl

/-! Collectives that end (R149, R281) -/

@[simp] theorem State.instEnd_footing (s : State) (i : Inst) (st : Status) (detail : W32)
    (ws : List (Nat × Nat × List MByte)) : (s.instEnd i st detail ws).footing = s.footing := by
  unfold State.instEnd
  dsimp only
  split
  · exact s.instOver_footing _
  · rfl

@[simp] theorem State.instConclude_footing (s : State) (g : CGroup) (i : Inst) (b : CollBody) (poison : Bool) :
    (s.instConclude g i b poison).footing = s.footing := by
  unfold State.instConclude
  extract_lets c n me own u stOf
  have hu : u.footing = s.footing := by
    unfold u
    split
    · exact s.setFlag_footing c true
    · rfl
  clear_value u
  split
  case h_2 | h_3 =>
    split
    · exact (State.instEnd_footing _ _ _ _ _).trans hu
    · exact (State.instEnd_footing _ _ _ _ _).trans hu
  case h_7 => exact hu
  all_goals exact (State.instEnd_footing _ _ _ _ _).trans hu

@[simp] theorem State.voteEnd_footing (s : State) (i : Inst) (op : CollOp) (result : Nat) (st : Status) (detail : W32) :
    (s.voteEnd i op result st detail).footing = s.footing := by
  unfold State.voteEnd
  extract_lets u v
  have hu : u.footing = s.footing := by
    unfold u
    split <;> rfl
  clear_value u
  have hv : v.footing = u.footing := by
    unfold v
    split
    · split <;> rfl
    · rfl
  exact (State.instEnd_footing _ _ _ _ _).trans (hv.trans hu)

/-! Flows (R282, R283, R294) -/

@[simp] theorem State.openFlow_footing (s : State) (g : CGroup) (k : InstKey) (r n : Nat) :
    (s.openFlow g k r n).footing = s.footing := by
  unfold State.openFlow
  split
  · split
    · split
      · rfl
      · exact State.sendCredit_footing _ _ _ _ _ _
    · rfl
  · rfl

@[simp] theorem State.openScratch_footing (s : State) (c : Nat) : (s.openScratch c).footing = s.footing := by
  unfold State.openScratch
  extract_lets cap
  refine State.foldl_keeps State.footing (fun u k => ?_) _ s
  split
  · split
    · rfl
    · extract_lets i' v
      split
      · rfl
      · refine (State.foldl_keeps State.footing (fun v r => ?_) _ _).trans rfl
        split
        · exact v.openFlow_footing _ _ _ _
        · rfl
  · rfl

@[simp] theorem State.judgeSeg_footing (g : CGroup) (i : Inst) (b : CollBody) (rank c r : Nat) (a : State × InFlow)
    (p : Nat × Nat × Nat) : (State.judgeSeg g i b rank c r a p).1.footing = a.1.footing := by
  unfold State.judgeSeg
  split
  · rfl
  · split
    · rfl
    · extract_lets lost staged
      split
      · dsimp only
        split
        · exact a.1.sendCredit_footing _ _ _ _ _
        · rfl
      · split
        · exact (State.sendColl_footing _ _ _ _ _ _ _ _ _).trans (a.1.sendCredit_footing _ _ _ _ _)
        · exact a.1.sendCredit_footing _ _ _ _ _

@[simp] theorem State.judgeFlow_footing (g : CGroup) (i : Inst) (b : CollBody) (a : State × Inst) (x : InFlow) :
    (State.judgeFlow g i b a x).1.footing = a.1.footing :=
  State.foldl_fst_keeps State.footing (State.judgeSeg_footing g i b x.rank _ _) _ _

@[simp] theorem State.judge_footing (s : State) (g : CGroup) (i : Inst) (b : CollBody) :
    (s.judge g i b).1.footing = s.footing :=
  State.foldl_fst_keeps State.footing (State.judgeFlow_footing g i b) i.inn (s, i)

@[simp] theorem State.grantAll_footing (s : State) (g : CGroup) (i : Inst) (b : CollBody) :
    (s.grantAll g i b).1.footing = s.footing :=
  State.foldl_keeps State.footing (fun u r => State.foldl_keeps State.footing (fun v x => by
    split
    · exact v.sendColl_footing _ _ _ _ _ _ _ _
    · rfl) _ u) _ s

@[simp] theorem State.reduceOwn_footing (s : State) (g : CGroup) (i : Inst) (b : CollBody) :
    (s.reduceOwn g i b).1.footing = s.footing := by
  unfold State.reduceOwn
  dsimp only
  refine (State.foldl_keeps State.footing (fun u r => u.openFlow_footing _ _ _ _) _ _).trans ?_
  rw [State.setInst_footing]
  refine (State.foldl_fst_keeps State.footing (fun r a => r.1.putAside_footing _ _ _ _) _ _).trans ?_
  dsimp only
  split
  · exact (State.setFlag_footing _ _ _).trans ((State.footing_fab _ _).trans (s.takeLate_footing i b g.rank))
  · exact (State.footing_fab _ _).trans (s.takeLate_footing i b g.rank)

/-! Blocks that leave (R282, R294) -/

@[simp] theorem State.sendBlock_footing (s : State) (g : CGroup) (i : Inst) (b : CollBody) (o : OutFlow)
    (lo m slo sn : Nat) : (s.sendBlock g i b o lo m slo sn).footing = s.footing := by
  unfold State.sendBlock
  extract_lets flow sg blk seg u
  have hu : u.footing = s.footing := by
    unfold u
    split
    · rfl
    · exact s.sendColl_footing _ _ _ _ _ _ _ _
  clear_value u
  split
  · exact (u.sendColl_footing _ _ _ _ _ _ _ _).trans hu
  · exact hu

@[simp] theorem State.sendPart_footing (s : State) (g : CGroup) (i : Inst) (b : CollBody) (o : OutFlow) (lo n : Nat)
    (rest : List (Nat × Nat)) (m slo sn : Nat) : (s.sendPart g i b o lo n rest m slo sn).footing = s.footing :=
  (State.setInst_footing _ _).trans (s.sendBlock_footing _ _ _ _ _ _ _ _)

@[simp] theorem State.sendWithin_footing (s : State) (g : CGroup) (i : Inst) (b : CollBody) (o : OutFlow) (lo n : Nat)
    (rest : List (Nat × Nat)) (r : Option (Nat × Nat)) : (s.sendWithin g i b o lo n rest r).footing = s.footing := by
  cases r with
  | none => rfl
  | some x => exact s.sendPart_footing _ _ _ _ _ _ _ _ _ _

@[simp] theorem State.sendNext_footing (s : State) (g : CGroup) (i : Inst) (b : CollBody) :
    (s.sendNext g i b).footing = s.footing := by
  unfold State.sendNext
  split
  · rfl
  · split
    · rfl
    · exact s.sendWithin_footing _ _ _ _ _ _ _ _

@[simp] theorem State.sendLeft_footing (s : State) (k : InstKey) : (s.sendLeft k).footing = s.footing := by
  unfold State.sendLeft
  split
  · split
    · split
      · rfl
      · refine State.foldl_keeps State.footing (fun u _ => ?_) _ s
        cases u.inst? k with
        | none => rfl
        | some j => exact u.sendNext_footing _ j _
    · rfl
  · rfl

/-! Instances brought up to date -/

@[simp] theorem State.lightCheck_footing (s : State) (g : CGroup) (i : Inst) (b : CollBody) :
    (s.lightCheck g i b).footing = s.footing := by
  unfold State.lightCheck
  dsimp only
  split
  · exact (State.voteEnd_footing _ _ _ _ _ _).trans (s.setFlag_footing _ _)
  · split
    · split
      · exact s.voteEnd_footing _ _ _ _ _
      · split
        · exact s.voteEnd_footing _ _ _ _ _
        · rfl
    · split
      · exact (State.voteEnd_footing _ _ _ _ _ _).trans
          (State.foldl_keeps State.footing (fun u r => u.sendColl_footing _ _ _ _ _ _ _ _) _ s)
      · rfl

@[simp] theorem State.dataCheck_footing (s : State) (g : CGroup) (i : Inst) (b : CollBody) :
    (s.dataCheck g i b).footing = s.footing := by
  simp only [State.dataCheck, apply_ite State.footing, apply_ite (fun r : State × Inst => r.1.footing),
    State.judge_footing, State.grantAll_footing, State.reduceOwn_footing, State.setInst_footing, State.setFlag_footing,
    State.instEnd_footing, State.instConclude_footing, ite_self]

@[simp] theorem State.instCheck_footing (s : State) (k : InstKey) : (s.instCheck k).footing = s.footing := by
  unfold State.instCheck
  split
  · split
    · split
      · rfl
      · refine (State.sendLeft_footing _ k).trans ((State.openScratch_footing _ _).trans ?_)
        split
        · exact s.lightCheck_footing _ _ _
        · exact s.dataCheck_footing _ _ _
    · rfl
  · rfl

/-! Fences -/

@[simp] theorem State.selfFence_footing (s : State) (c : Nat) : (s.selfFence c).footing = s.footing := by
  unfold State.selfFence
  extract_lets u fenced v w x y
  have hu : u.footing = s.footing := State.foldl_keeps State.footing (fun t id => t.modDesc_footing id _) _ s
  have hv : v.footing = u.footing := u.footing_fab _
  have hw : w.footing = v.footing := v.enterFaulted_footing c .fenced _ _
  have hx : x.footing = w.footing := w.failRemote_footing c .fenced _
  have hy : y.footing = x.footing := (State.dropStep_footing _ c).trans (x.closeColls_footing c .fenced)
  exact (y.ev_footing _ _ _ _ _).trans (hy.trans (hx.trans (hw.trans (hv.trans hu))))

@[simp] theorem State.recordFence_footing (s : State) (c dev : Nat) : (s.recordFence c dev).footing = s.footing := by
  unfold State.recordFence
  dsimp only
  split
  · rfl
  · split
    · exact s.selfFence_footing c
    · split
      · exact State.selfFence_footing _ c
      · exact (State.foldl_keeps State.footing (fun u (i : Inst) => u.instCheck_footing i.key) _ _).trans
          (State.failRemote_footing _ c .fenced _)

@[simp] theorem State.addFenceKey_footing (s : State) (f : Fence) : (s.addFenceKey f).footing = s.footing :=
  State.footing_fab s _

@[simp] theorem State.sendFence_footing (s : State) (c dev issuer hop : Nat) (ep : W32) (except : Option Nat) :
    (s.sendFence c dev issuer hop ep except).footing = s.footing := by
  refine State.foldl_keeps State.footing (fun u _ => ?_) _ s
  exact u.queueOn_footing _ _ _

@[simp] theorem State.issueFence_footing (s : State) (c dev : Nat) : (s.issueFence c dev).footing = s.footing :=
  (State.recordFence_footing _ c dev).trans ((State.sendFence_footing _ _ _ _ _ _ _).trans (s.addFenceKey_footing _))

@[simp] theorem State.fenceSelf_footing (s : State) : s.fenceSelf.footing = s.footing :=
  State.foldl_keeps State.footing (fun u c => u.issueFence_footing c u.selfDev) _ s

end Sys2Proof.Machine
end

section
/-! SUPPORT. Quenches of partitions: how they begin, by command or AUTOQ, and how they end (R35, R363, R365, R375). -/
namespace Sys2Proof.Machine

/-! A partition's record -/

theorem State.part?_modPart_self (s : State) (p : Nat) (f : Part → Part) : (s.modPart p f).part? p = (s.part? p).map f :=
  (SMap.get?_adj s.flt.parts p p f).trans (if_pos rfl)

/-! Beginning a quench (R365 steps 1 to 3) -/

/-- Partition `p` is in QUENCH, from source `src`, and the contexts to pre-empt are noted. -/
def State.inQuench (s : State) (p src : Nat) : State :=
  s.modPart p fun x => { x with st := .quench, quench := some (src, s.quenched p) }

/-- Beside the work that it stops and the retirements that it installs, a quench marks its partition and nothing else. -/
theorem State.quenchStart_footing (s : State) (p src : Nat) (keep : Option Nat) :
    (s.quenchStart p src keep).footing = (s.inQuench p src).footing := by
  unfold State.quenchStart
  extract_lets cs u v w x
  have hu : u.footing = (s.inQuench p src).footing := State.schAdvance_footing _ p
  clear_value u
  have hv : v.footing = u.footing := by
    unfold v
    split
    · exact State.foldl_keeps State.footing (fun t c => t.degradeCtx_footing c) _ u
    · rfl
  clear_value v
  have hw : w.footing = v.footing := State.foldl_keeps State.footing (fun t c => by
    split
    · exact t.preemptKeep_footing c
    · exact (State.preemptDone_footing _ c).trans (t.preemptStart_footing c .sch)) cs v
  clear_value w
  have hx : x.footing = w.footing := w.installAll_footing _
  exact hx.trans (hw.trans (hv.trans hu))

/-- A quench that is asked for notes in its partition, which is no die's that is in reset, the source and the contexts. -/
theorem State.quenchAsk_part? {s : State} {p : Nat} {x : Part} (hx : s.part? p = some x) (hrst : s.partInReset p = false)
    (src : Nat) :
    ((s.quenchAsk p src).part? p).map (fun y => (y.st, y.quench)) = some (.quench, some (src, s.quenched p)) := by
  rw [State.quenchAsk, if_neg (by simp [hrst]), State.part?_of_footing (s.quenchStart_footing p src none), State.inQuench,
    State.part?_modPart_self, hx]
  rfl

/-! DEV_PART_CTL -/

section
variable {s : State} {part : Nat} {tee : Bool} (hpart : part < 1024) (hmay : HostMay s .devFlt tee)
include hpart hmay

theorem exec_partitionQuench : exec (.partitionQuench part tee) s =
    .next (State.recordRes 0 (partCtlOff part) (s.partCtl part 0x80000000)) :=
  (guardWf_next (decide_eq_true hpart)).trans (congrArg _ (State.hostWrite_of_hostMay hmay _ _ _))

theorem exec_partitionResume : exec (.partitionResume part tee) s =
    .next (State.recordRes 0 (partCtlOff part) (s.partCtl part 0x40000000)) :=
  (guardWf_next (decide_eq_true hpart)).trans (congrArg _ (State.hostWrite_of_hostMay hmay _ _ _))

end

/-- A write of QUENCH alone asks for a quench of a partition in RUN or DEGRADED (R365). -/
theorem State.partCtl_quenches {s : State} {p : Nat} {x : Part} (hx : s.part? p = some x)
    (hst : x.st = .run ∨ x.st = .degraded) : s.partCtl p 0x80000000 = (s.quenchAsk p 1, none) := by
  rcases hst with hst | hst <;> simp [State.partCtl, hx, hst, fld, nbits]

/-- A write of RESUME alone asks for the quench that ends MAINT, once every mapped tile is tested (R375). -/
theorem State.partCtl_resumes {s : State} {p : Nat} {x : Part} (hx : s.part? p = some x) (hst : x.st = .maint)
    (htested : s.partTested p x = true) : s.partCtl p 0x40000000 = (s.quenchAsk p 1, none) := by
  simp [State.partCtl, hx, hst, htested, fld, nbits]

/-! AUTOQ (R363) -/

theorem exec_autoqQuench (s : State) {part : Nat} (hpart : part < 1024) :
    exec (.autoqQuench part) s = .next (if s.autoqWaits part = true ∧ (s.flt.autoqMs = 0 ∨ s.atBoundary part = true)
      then s.quenchAsk part 8 else s) := by
  refine (guardWf_next (decide_eq_true hpart)).trans (congrArg _ (ite_congr (propext ?_) (fun _ => rfl) fun _ => rfl))
  simp

theorem exec_autoqTimeout (s : State) {part : Nat} (hpart : part < 1024) :
    exec (.autoqTimeout part) s = .next (if s.autoqWaits part = true ∧ ((s.pendOf part).any fun d =>
      s.ripe d && decide (d.since + s.flt.autoqMs.toNat * 1000000 ≤ s.now)) = true then s.quenchAsk part 8 else s) :=
  (guardWf_next (decide_eq_true hpart)).trans (congrArg _
    (ite_congr (propext (Bool.and_eq_true_iff ..)) (fun _ => rfl) fun _ => rfl))

/-- AUTOQ waits on partitions that are defined only. -/
theorem State.part?_of_autoqWaits {s : State} {p : Nat} (h : s.autoqWaits p = true) : ∃ x, s.part? p = some x := by
  cases hx : s.part? p with
  | some x => exact ⟨x, rfl⟩
  | none => simp [State.autoqWaits, hx] at h

/-! The end of a quench (R365 step 4) -/

/-- The quench of partition `p` is over: counted, recorded, and the partition runs again. -/
def State.quenchOver (s : State) (p src : Nat) : State :=
  ((s.modPart p fun x => { x with quench := none, quenches := x.quenches + 1 }).resetRecord 2 src p).modPart p
    fun x => { x with st := .run }

/-- With no tile unmapped and no hang in hand, a quench ends so, beside the contexts that go on. -/
theorem State.quenchDone_footing {s : State} {p src : Nat} {cs : List Nat} {x : Part} (hx : s.part? p = some x)
    (hquench : x.quench = some (src, cs)) (hhang : x.hang = none) (hhole : s.partHole p = false) :
    (s.quenchDone p).footing = (s.quenchOver p src).footing := by
  unfold State.quenchDone
  simp only [hx, hquench, hhang, Option.isSome_none, Bool.false_eq_true, if_false]
  rw [if_neg]
  · exact State.foldl_keeps State.footing (fun u c => (State.schResume_footing _ c).trans (u.unhold_footing c)) cs _
  · exact Bool.eq_false_iff.mp hhole

/-! The statement -/

/-- Settles O40: quenches begin with `State.quenchStart_footing`, whoever asks for them, and end with
`State.quenchDone_footing`. -/
theorem partitionsAreQuenched : Obligations.PartitionsAreQuenched := by
  refine ⟨fun s part tee hpart hmay => exec_partitionQuench hpart hmay,
    fun s part tee hpart hmay => exec_partitionResume hpart hmay, fun s part hpart => exec_autoqQuench s hpart,
    fun s part hpart => exec_autoqTimeout s hpart, fun s part hpart => guardWf_next (decide_eq_true hpart),
    fun s part tee x hpart hmay hx hst hrst => ⟨_, exec_partitionQuench hpart hmay, ?quench⟩,
    fun s part tee x hpart hmay hx hst htested hrst => ⟨_, exec_partitionResume hpart hmay, ?resume⟩,
    fun s part hpart hwaits hbound hrst => ?boundary, fun s part d hpart hwaits hd hripe hover hrst => ?timeout,
    fun s part src cs x hpart hx hquench hhang hhole => ⟨_, guardWf_next (decide_eq_true hpart), ?done⟩⟩
  case quench =>
    rw [State.partCtl_quenches hx hst]
    exact State.quenchAsk_part? hx hrst 1
  case resume =>
    rw [State.partCtl_resumes hx hst htested]
    exact State.quenchAsk_part? hx hrst 1
  case boundary =>
    obtain ⟨x, hx⟩ := State.part?_of_autoqWaits hwaits
    exact ⟨_, (exec_autoqQuench s hpart).trans (congrArg _ (if_pos ⟨hwaits, hbound⟩)), State.quenchAsk_part? hx hrst 8⟩
  case timeout =>
    obtain ⟨x, hx⟩ := State.part?_of_autoqWaits hwaits
    have hdue : ((s.pendOf part).any fun d =>
        s.ripe d && decide (d.since + s.flt.autoqMs.toNat * 1000000 ≤ s.now)) = true :=
      List.any_eq_true.mpr ⟨d, hd, Bool.and_eq_true_iff.mpr ⟨hripe, decide_eq_true hover⟩⟩
    exact ⟨_, (exec_autoqTimeout s hpart).trans (congrArg _ (if_pos ⟨hwaits, hdue⟩)), State.quenchAsk_part? hx hrst 8⟩
  case done =>
    have h := State.quenchDone_footing hx hquench hhang hhole
    have hpwr := State.pwr_of_footing h
    refine ⟨?_, congrArg Pwr.kind hpwr, congrArg Pwr.source hpwr, congrArg Pwr.arg hpwr, congrArg Pwr.new hpwr⟩
    rw [State.part?_of_footing h, State.quenchOver, State.part?_modPart_self]
    refine (congrArg _ (s.part?_modPart_self part _)).trans ?_
    rw [hx]
    rfl

end Sys2Proof.Machine
end

section
/-! SUPPORT. Die resets and device warm resets: how they begin, and how they end (R34, R35, R368, R369, R465, R466). -/
namespace Sys2Proof

/-- The word of DEV_RESET_REQ that asks for the reset of a die (Table 16.4). -/
theorem dieResetWord_fields {die : Nat} (hdie : die < 8) :
    fld (BitVec.ofNat 32 (2 ^ 30 + die)) 3 27 = 0 ∧ fld (BitVec.ofNat 32 (2 ^ 30 + die)) 0 3 = die ∧
      (BitVec.ofNat 32 (2 ^ 30 + die)).getLsbD 31 = false ∧ (BitVec.ofNat 32 (2 ^ 30 + die)).getLsbD 30 = true := by
  have hall : ∀ d : Fin 8,
      fld (BitVec.ofNat 32 (2 ^ 30 + d.val)) 3 27 = 0 ∧ fld (BitVec.ofNat 32 (2 ^ 30 + d.val)) 0 3 = d.val ∧
        (BitVec.ofNat 32 (2 ^ 30 + d.val)).getLsbD 31 = false ∧ (BitVec.ofNat 32 (2 ^ 30 + d.val)).getLsbD 30 = true := by
    decide
  exact hall ⟨die, hdie⟩

/-- The reset that an EXIT_MAINT began leads to OWNED_IDLE (R413). -/
theorem Sec.exitOver_st (x : Sec) : x.exitOver.st = if x.exiting then .ownedIdle else x.st := by
  rw [Sec.exitOver, apply_ite Sec.st]

end Sys2Proof

namespace Sys2Proof.Machine

/-! The registers -/

/-- A host write that reaches the block finds its 48 V domain up. -/
theorem State.computeOn_of_hostMay {s : State} {item : RegItem} {tee : Bool} (h : HostMay s item tee)
    (hwarm : s.pwr.warm = none) : s.computeOn = true := by
  obtain ⟨hopen, -, -⟩ := h
  have hdom : s.pwr.dom = .on :=
    Decidable.byContradiction fun hne => by simp [State.barShut, hne] at hopen
  simp [State.computeOn, hdom, hwarm]

theorem State.resetReq_die (s : State) {die : Nat} (hdie : die < 8) :
    s.resetReq (BitVec.ofNat 32 (2 ^ 30 + die)) = (s.dieReset die 1, none) := by
  obtain ⟨hrsvd, hsel, hwarm, hreq⟩ := dieResetWord_fields hdie
  generalize BitVec.ofNat 32 (2 ^ 30 + die) = w at hrsvd hsel hwarm hreq ⊢
  simp only [State.resetReq, hrsvd, hsel, hwarm, hreq]
  rfl

theorem State.resetReq_warm (s : State) : s.resetReq 0x80000000 = (s.warmReset 1, none) := by
  simp [State.resetReq, fld, nbits]

theorem State.causeReg_clears (s : State) :
    s.causeReg 0x80000000 = ({ s with pwr := { s.pwr with new := false, widest := 0 } }, none) := by
  simp [State.causeReg, fld, nbits]

section
variable {s : State} {tee : Bool} (hmay : HostMay s .dev tee)
include hmay

theorem exec_dieResetRequest_writes {die : Nat} (hdie : die < 8) : exec (.dieResetRequest die tee) s =
    .next (State.recordRes 0 0xC00110 (s.resetReq (BitVec.ofNat 32 (2 ^ 30 + die)))) :=
  (guardWf_next (decide_eq_true hdie)).trans (congrArg _ (State.hostWrite_of_hostMay hmay _ _ _))

theorem exec_dieResetRequest {die : Nat} (hdie : die < 8) :
    exec (.dieResetRequest die tee) s = .next (s.dieReset die 1) := by
  rw [exec_dieResetRequest_writes hmay hdie, State.resetReq_die s hdie, State.recordRes]

theorem exec_warmResetRequest : exec (.warmResetRequest tee) s = .next (s.warmReset 1) := by
  refine congrArg Host.Outcome.next ((State.hostWrite_of_hostMay hmay _ _ _).trans ?_)
  rw [State.resetReq_warm, State.recordRes]

theorem exec_resetCauseClear :
    exec (.resetCauseClear tee) s = .next { s with pwr := { s.pwr with new := false, widest := 0 } } := by
  refine congrArg Host.Outcome.next ((State.hostWrite_of_hostMay hmay _ _ _).trans ?_)
  rw [State.causeReg_clears, State.recordRes]

end

/-! A die -/

theorem State.die_modDie_self (s : State) (d : Nat) (f : Die → Die) : (s.modDie d f).die d = f (s.die d) :=
  SMap.getD_setD_self s.pwr.dies d (f (s.die d)) Die.reset

theorem State.die_of_footing {s u : State} (h : u.footing = s.footing) (d : Nat) : u.die d = s.die d :=
  congrArg (fun p : Pwr => SMap.getD p.dies d Die.reset) (State.pwr_of_footing h)

/-- A die reset that begins marks the die with its source, ends its park, and takes its monitors to reset; what it resumes
and advances then leaves that alone (R368). -/
theorem State.dieReset_marks {s : State} {d : Nat} (hon : s.computeOn = true) (hrst : (s.die d).rst = none) (src : Nat) :
    ((s.dieReset d src).die d).rst = some src ∧ ((s.dieReset d src).die d).park = .run ∧
      SMap.get? (s.dieReset d src).brmDie d = none := by
  rw [State.dieReset, if_neg (by simp [hon, hrst])]
  extract_lets cs s1 ps s2 s3 s4 s5 s6 s7 s8 s9
  have hgo : s9.footing = s8.footing := State.foldl_keeps State.footing (fun u p =>
    State.foldl_keeps State.footing (fun v c => (State.schResume_footing _ c).trans (by split <;> rfl)) _ u) _ s8
  have hadvance : (ps.foldl (fun (s : State) p => s.schAdvance p) s9).footing = s8.footing :=
    (State.foldl_keeps State.footing (fun u p => u.schAdvance_footing p) ps s9).trans hgo
  have hdie : s8.die d = { s7.die d with park := .run, deep := false, rst := some src, since := s7.now } :=
    s7.die_modDie_self d _
  rw [State.die_of_footing hadvance, State.brmDie_of_footing hadvance, hdie]
  exact ⟨rfl, rfl, SMap.get?_erase_self _ d⟩

/-! What waited for a die goes on (R34) -/

theorem State.dieBack_footing {s : State} (hserved : s.fab.served = []) (hbar4 : s.hif.bar4 = []) :
    s.dieBack.footing = s.footing := by
  have htiers := s.memStep_tiersOnly fun m d b => m.serve d b
  have hfab : (s.memStep fun m d b => m.serve d b).wakeAll.fab = s.fab := (congrArg State.fab htiers :)
  have hhif : (s.memStep fun m d b => m.serve d b).wakeAll.hif = s.hif := (congrArg State.hif htiers :)
  rw [State.dieBack, State.resume_of_none (hfab.symm ▸ hserved) (hhif.symm ▸ hbar4)]
  exact (State.footing_of_tiersOnly htiers :)

/-! The end of a die reset (R465) -/

/-- Die `d` is out of reset, from source `src`, counted and recorded. -/
def State.dieReturned (s : State) (d src : Nat) : State :=
  let v := s.modDie d fun x => { x with rst := none }
  ({ v with pwr := { v.pwr with dieCnt := satInc v.pwr.dieCnt } } : State).resetRecord 4 src d

theorem State.dieResetEnd_stays {s : State} {d : Nat}
    (h : (s.die d).rst = none ∨ (s.die d).trip = true ∨ s.now < (s.die d).since + 20000000) : s.dieResetEnd d = s := by
  rw [State.dieResetEnd]
  split
  · rfl
  · exact if_pos (by simp_all)

/-- The contexts of the partitions with a tile on die `d` go on where SCH had stopped them (R335). -/
def State.diePartsResume (s : State) (d : Nat) : State :=
  (s.dieParts d).foldl (fun (s : State) p => (s.partCtxs p).foldl (fun (s : State) c => s.schResume c) s) s

theorem State.diePartsResume_besideHolders (s : State) (d : Nat) :
    (s.diePartsResume d).besideHolders = s.besideHolders :=
  State.foldl_keeps State.besideHolders (fun u _ =>
    State.foldl_keeps State.besideHolders State.schResume_besideHolders _ u) _ s

theorem State.diePartsResume_footing (s : State) (d : Nat) : (s.diePartsResume d).footing = s.footing :=
  State.foldl_keeps State.footing (fun u _ => State.foldl_keeps State.footing State.schResume_footing _ u) _ s

theorem State.dieResetEnd_footing {s : State} {d src : Nat} (hon : s.computeOn = true) (hrst : (s.die d).rst = some src)
    (htrip : (s.die d).trip = false) (hdue : (s.die d).since + 20000000 ≤ s.now) (hserved : s.fab.served = [])
    (hbar4 : s.hif.bar4 = []) : (s.dieResetEnd d).footing = (s.dieReturned d src).footing := by
  have hends : s.dieResetEnd d = ((s.dieReturned d src).diePartsResume d).dieBack := by
    rw [State.dieResetEnd, hrst]
    exact if_neg (by simp [hon, htrip, hdue])
  have hbeside := (s.dieReturned d src).diePartsResume_besideHolders d
  rw [hends, State.dieBack_footing, State.diePartsResume_footing]
  · exact (congrArg (·.fab.served) hbeside).trans hserved
  · exact (congrArg (·.hif.bar4) hbeside).trans hbar4

/-! Device warm reset (R369) -/

/-- What a descriptor that is given up leaves of the ABI agreed. -/
theorem State.forget_agreed (s : State) (id : Nat) : (s.forget id).hif.agreed = s.hif.agreed := by
  unfold State.forget
  split
  · rfl
  · refine (State.foldl_keeps (fun u : State => u.hif.agreed) (fun u w => ?_) _ _).trans ?_
    · exact (congrArg (·.hif.agreed) (u.dropWait?_tiersOnly (some w)) :)
    · dsimp only
      split <;> rfl

/-- The end of the present program leaves the time, the frame, the Gauntlet and the ABI agreed (R349). -/
theorem State.dropProgram_keeps (s : State) : s.dropProgram.now = s.now ∧ s.dropProgram.load.frame = s.load.frame ∧
    s.dropProgram.sec = s.sec ∧ s.dropProgram.hif.agreed = s.hif.agreed := by
  have h := State.foldl_keeps State.footing State.forget_footing (SMap.keys s.descs) s
  have hagreed := State.foldl_keeps (fun u : State => u.hif.agreed) State.forget_agreed (SMap.keys s.descs) s
  exact ⟨(State.now_of_footing h :), (congrArg Load.frame (State.load_of_footing h) :), (State.sec_of_footing h :),
    hagreed⟩

/-- The state in which the program of a module that is reset ends: it has fenced itself, its retirements are installed, and
what Table 16.2 lists is at its defaults (R364, R369, R456). -/
def State.warmFenced (s : State) (src : Nat) : State :=
  let v := s.fenceSelf.installAll s.fenceSelf.flt.due
  { v with
    load := { Load.reset with frame := v.load.frame, partials := v.load.partials, fulls := v.load.fulls }
    hif := v.hif.warm (src = 2 || src = 3 || src = 4)
    fab := { v.fab with
      ports := (v.fab.ports.map fun (e : Nat × Port) => (e.1, e.2.warm)).filter fun (e : Nat × Port) => e.2 ≠ Port.reset }
    sec := { v.sec with tdi := .unlocked, ideSecure := false } }

theorem State.warmFenced_keeps (s : State) (src : Nat) : (s.warmFenced src).now = s.now ∧
    (s.warmFenced src).load.frame = s.load.frame ∧ (s.warmFenced src).sec.st = s.sec.st := by
  have h := (s.fenceSelf.installAll_footing s.fenceSelf.flt.due).trans s.fenceSelf_footing
  exact ⟨(State.now_of_footing h :), (congrArg Load.frame (State.load_of_footing h) :),
    (congrArg Sec.st (State.sec_of_footing h) :)⟩

theorem State.warmReset_eq {s : State} (hon : s.computeOn = true) (src : Nat) :
    s.warmReset src =
      let v := (s.warmFenced src).computeLost
      { v with pwr := { v.pwr with warm := some src, warmSince := v.now } } := by
  rw [State.warmReset, if_neg (by simp [hon])]
  rfl

/-! The end of a device warm reset (R412, R465) -/

/-- The warm reset from source `src` is over, counted and recorded. -/
def State.warmReturned (s : State) (src : Nat) : State :=
  let v := ({ s with pwr := { s.pwr with warm := none, warmCnt := satInc s.pwr.warmCnt } } : State).resetRecord 5 src 0
  { v with sec := v.sec.exitOver }

theorem State.warmEnd_footing {s : State} {src : Nat} (hwarm : s.pwr.warm = some src)
    (hdue : s.pwr.warmSince + 150000000 ≤ s.now) (hserved : s.fab.served = []) (hbar4 : s.hif.bar4 = []) :
    s.warmEnd.footing = (s.warmReturned src).footing := by
  rw [State.warmEnd, hwarm]
  dsimp only
  rw [if_neg (Nat.not_lt.mpr hdue)]
  exact State.dieBack_footing hserved hbar4

/-! The statement -/

/-- Settles O52: die resets by the marks they leave, warm resets by what the end of the program keeps, and the ends of both
by their records, which what waited for a die leaves alone. -/
theorem diesAreResetAndTheDevice : Obligations.DiesAreResetAndTheDevice := by
  refine ⟨fun s die hdie => guardWf_next (decide_eq_true hdie),
    fun s die tee hdie hmay => exec_dieResetRequest_writes hmay hdie,
    fun s die tee hdie hmay => exec_dieResetRequest hmay hdie, fun s die hdie => guardWf_next (decide_eq_true hdie),
    fun s die h hdie => (guardWf_next (decide_eq_true hdie)).trans (congrArg _ (State.dieResetEnd_stays h)),
    fun s tee hmay => exec_warmResetRequest hmay, fun s => rfl,
    fun s die hdie hon hrst => ⟨_, guardWf_next (decide_eq_true hdie), State.dieReset_marks hon hrst 5⟩,
    fun s die tee hdie hmay hwarm hrst =>
      ⟨_, exec_dieResetRequest hmay hdie, State.dieReset_marks (State.computeOn_of_hostMay hmay hwarm) hrst 1⟩,
    fun s die src hdie hon hrst htrip hdue hserved hbar4 => ⟨_, guardWf_next (decide_eq_true hdie), ?dieBack⟩,
    fun s tee hmay hwarm => ⟨_, exec_warmResetRequest hmay, ?warm⟩,
    fun s src hwarm hdue hserved hbar4 => ⟨_, rfl, ?warmBack⟩, fun s tee hmay => exec_resetCauseClear hmay⟩
  case dieBack =>
    have h := State.dieResetEnd_footing hon hrst htrip hdue hserved hbar4
    have hpwr := State.pwr_of_footing h
    refine ⟨?_, congrArg Pwr.dieCnt hpwr, congrArg Pwr.kind hpwr, congrArg Pwr.source hpwr, congrArg Pwr.arg hpwr,
      congrArg Pwr.new hpwr, congrArg Pwr.widest hpwr⟩
    rw [State.die_of_footing h]
    exact (congrArg Die.rst (s.die_modDie_self die fun x => { x with rst := none }) :)
  case warm =>
    obtain ⟨hnow, hframe, hsec⟩ := s.warmFenced_keeps 1
    obtain ⟨hnow', hframe', hsec', hagreed'⟩ := (s.warmFenced 1).dropProgram_keeps
    rw [State.warmReset_eq (State.computeOn_of_hostMay hmay hwarm)]
    exact ⟨rfl, hnow'.trans hnow, rfl, rfl, rfl, rfl, rfl, rfl, rfl, rfl, hframe'.trans hframe, rfl, hagreed',
      (congrArg Sec.st hsec').trans hsec⟩
  case warmBack =>
    have h := State.warmEnd_footing hwarm hdue hserved hbar4
    have hpwr := State.pwr_of_footing h
    refine ⟨congrArg Pwr.warm hpwr, congrArg Pwr.warmCnt hpwr, congrArg Pwr.kind hpwr, congrArg Pwr.source hpwr, ?_⟩
    rw [State.sec_of_footing h]
    exact s.sec.exitOver_st

end Sys2Proof.Machine
end

section
/-! SUPPORT. Health: remote timeouts, tiles that fall due, scores that decay, and margins measured (R357, R361, R384,
R385). -/
namespace Sys2Proof

/-! Maps of scores -/

theorem SMap.get?_of_above {α : Type} {m : SMap α} {k : Nat} (h : SMap.above k m) : SMap.get? m k = none := by
  induction m with
  | nil => rfl
  | cons e m ih =>
    have hne : e.1 ≠ k := Nat.ne_of_gt (h e (List.mem_cons_self ..))
    rw [SMap.get?_cons, if_neg hne]
    exact ih fun q hq => h q (List.mem_cons_of_mem _ hq)

/-- An entry of a map whose entries have all been changed, those then at the default left out. -/
theorem SMap.getD_changed {α : Type} [DecidableEq α] {f : α → α} {d : α} (hd : f d = d) (k : Nat) {m : SMap α}
    (hwf : SMap.wf m = true) :
    SMap.getD ((m.mapV fun _ x => f x).filter fun e => e.2 ≠ d) k d = f (SMap.getD m k d) := by
  induction m with
  | nil => exact hd.symm
  | cons e m ih =>
    obtain ⟨habove, hrest⟩ := (SMap.wf_cons e m).mp hwf
    have ih := ih hrest
    simp only [SMap.getD, SMap.mapV, List.map_cons, List.filter_cons, SMap.get?_cons] at ih ⊢
    by_cases hk : e.1 = k
    · subst hk
      rw [SMap.get?_of_above habove] at ih
      by_cases he : f e.2 = d
      · simp only [he, ne_eq, not_true_eq_false, decide_false, Bool.false_eq_true, if_false, if_true, Option.getD_some]
        exact ih.trans hd
      · simp [he, SMap.get?_cons]
    · rw [if_neg hk]
      split
      · rw [SMap.get?_cons, if_neg hk]
        exact ih
      · exact ih

/-! Ports -/

/-- The effect routes packets of the port again. -/
def FEff.isReroute : FEff → Bool
  | .reroute _ => true
  | _ => false

/-- A port's effects that route nothing again leave the port as the update gives it. -/
theorem Fab.onPort_port_self (f : Fab) (p : Nat) {g : Port → Port × List FEff}
    (h : ∀ e ∈ (g (f.port p)).2, e.isReroute = false) : (f.onPort p g).1.port p = (g (f.port p)).1 := by
  have hset : (f.setPort p (g (f.port p)).1).port p = (g (f.port p)).1 := SMap.getD_setD_self f.ports p _ Port.reset
  refine Eq.trans ?_ hset
  exact congrArg (Fab.port · p) (List.foldlRecOn (motive := fun a : Fab × List FEff => a.1 = f.setPort p (g (f.port p)).1)
    (g (f.port p)).2 _ rfl fun a ha e he => by
      cases e with
      | reroute ks => exact nomatch h _ he
      | out o => exact ha
      | event e => exact ha)

/-- A port without its score and the warning that goes with it. -/
def Port.besideScore (x : Port) : Port := { x with score := 0, warned := false }

theorem Port.addScore_besideScore (x : Port) (p w : Nat) : (x.addScore p w).1.besideScore = x.besideScore := by
  unfold Port.addScore
  dsimp only
  split <;> rfl

theorem Port.addScore_not_reroute (x : Port) (p w : Nat) : ∀ e ∈ (x.addScore p w).2, e.isReroute = false := by
  unfold Port.addScore
  dsimp only
  split
  · intro e he
    rw [List.mem_singleton.mp he]
    rfl
  · exact fun e he => nomatch he

/-- Port `p` after `n` lanes of low margin have added to its score, with the warnings this gave. -/
def Port.lowLanes (x : Port) (p n : Nat) : Port × List FEff :=
  (List.range n).foldl (fun (a : Port × List FEff) _ => ((a.1.addScore p 256).1, a.2 ++ (a.1.addScore p 256).2)) (x, [])

theorem Port.lowLanes_spec (x : Port) (p n : Nat) :
    (x.lowLanes p n).1.besideScore = x.besideScore ∧ ∀ e ∈ (x.lowLanes p n).2, e.isReroute = false :=
  List.foldlRecOn
    (motive := fun a : Port × List FEff => a.1.besideScore = x.besideScore ∧ ∀ e ∈ a.2, e.isReroute = false) _ _
    ⟨rfl, fun _ he => nomatch he⟩ fun a ha _ _ =>
      ⟨(a.1.addScore_besideScore p 256).trans ha.1, fun e he =>
        (List.mem_append.mp he).elim (ha.2 e) (a.1.addScore_not_reroute p 256 e)⟩

/-- The margins of a measurement, and the codewords corrected since the last one (R384, R385). -/
def Port.measured (x : Port) (ms : List (BitVec 8)) : Port := { x with margin := ms, cwRate := x.cwNow, cwNow := 0 }

/-- A measurement of port `p`, and what it adds to the score. -/
def Port.sampled (x : Port) (p : Nat) (ms : List (BitVec 8)) : Port × List FEff :=
  let a := (x.measured ms).lowLanes p (ms.filter fun m => decide (m.toInt < 15)).length
  if x.cwNow.toNat > 1000000 then ((a.1.addScore p 64).1, a.2 ++ (a.1.addScore p 64).2) else a

theorem Fab.marginSample_eq (f : Fab) (p : Nat) (ms : List (BitVec 8)) :
    f.marginSample p ms = f.onPort p fun x => x.sampled p ms := by
  unfold Fab.marginSample Port.sampled Port.lowLanes Port.measured
  dsimp only

/-- Beside its score, a measurement changes the margins and the codewords of its port. -/
theorem Port.sampled_spec (x : Port) (p : Nat) (ms : List (BitVec 8)) :
    (x.sampled p ms).1.besideScore = (x.measured ms).besideScore ∧ ∀ e ∈ (x.sampled p ms).2, e.isReroute = false := by
  obtain ⟨hport, heffs⟩ := (x.measured ms).lowLanes_spec p (ms.filter fun m : BitVec 8 => decide (m.toInt < 15)).length
  unfold Port.sampled
  extract_lets a
  split
  · exact ⟨(a.1.addScore_besideScore p 64).trans hport, fun e he =>
      (List.mem_append.mp he).elim (heffs e) (a.1.addScore_not_reroute p 64 e)⟩
  · exact ⟨hport, heffs⟩

theorem Port.measured_of_besideScore {x y : Port} {ms : List (BitVec 8)}
    (h : x.besideScore = (y.measured ms).besideScore) :
    x.margin = ms ∧ x.cwRate = y.cwNow ∧ x.cwNow = 0 ∧ x.state = y.state :=
  ⟨congrArg (·.margin) h, congrArg (·.cwRate) h, congrArg (·.cwNow) h, congrArg (·.state) h⟩

/-! Words -/

/-- The word of DEV_FLT_RETIRE that asks for the retirement of a physical tile (R361). -/
theorem retireWord_fields {ptile : W16} (h : ptile.toNat < 32768) :
    fld (0x80000000#32 ||| ptile.setWidth 32) 15 16 = 0 ∧ fld (0x80000000#32 ||| ptile.setWidth 32) 0 16 = ptile.toNat ∧
      (0x80000000#32 ||| ptile.setWidth 32).getLsbD 31 = true := by
  have hnat : (0x80000000#32 ||| ptile.setWidth 32).toNat = 2 ^ 31 + ptile.toNat := by
    rw [BitVec.toNat_or, BitVec.toNat_setWidth_of_le (by decide)]
    exact (Nat.two_pow_add_eq_or_of_lt (i := 31) (by omega) 1).symm
  refine ⟨?_, ?_, by simp⟩
  · simp only [fld, nbits, hnat, Nat.shiftRight_eq_div_pow]
    omega
  · simp only [fld, nbits, hnat, Nat.shiftRight_eq_div_pow]
    omega

/-- A tile's health an hour later (R384). -/
def Health.decayed (h : Health) : Health :=
  { h with score := (decayScore h.score h.warned).1, warned := (decayScore h.score h.warned).2 }

/-- A port an hour later (R384). -/
def Port.decayed (x : Port) : Port :=
  { x with score := (decayScore x.score x.warned).1, warned := (decayScore x.score x.warned).2 }

end Sys2Proof

namespace Sys2Proof.Machine

/-! Recurring events -/

theorem State.recurs_recurred (s : State) (r : Recur) : (s.recurred r).recurs r = false := by
  have hmark : SMap.getD (SMap.set s.time.marks r.key (s.now / r.interval)) r.key 0 = s.now / r.interval := by
    rw [SMap.getD, SMap.get?_set_self, Option.getD_some]
  exact decide_eq_false (Nat.not_lt.mpr (Nat.le_of_eq hmark.symm))

theorem State.recurs_of_time {s u : State} (h : u.time = s.time) (r : Recur) : u.recurs r = s.recurs r := by
  rw [State.recurs, State.now, h, State.recurs, State.now]

/-- Between the multiples of its interval an event does nothing. -/
theorem exec_between {s : State} {die : Nat} {c : Instr} {r : Recur} (hrecurs : s.recurs r = false)
    (hc : (c, r) ∈ [(Instr.healthDecay, Recur.decay), (.timingMarginDaily die, .timing die), (.hangScan, .scan),
      (.rateWindowEnd, .rate), (.quantWindowEnd true, .slow), (.quantWindowEnd false, .quick)]) : exec c s = .next s := by
  simp only [List.mem_cons, List.not_mem_nil, or_false, Prod.mk.injEq] at hc
  rcases hc with ⟨rfl, rfl⟩ | ⟨rfl, rfl⟩ | ⟨rfl, rfl⟩ | ⟨rfl, rfl⟩ | ⟨rfl, rfl⟩ | ⟨rfl, rfl⟩
  · change execHealthDecay s = _
    simp [execHealthDecay, hrecurs]
  · change execTimingMarginDaily die s = _
    simp [execTimingMarginDaily, hrecurs, guardWf]
  · change execHangScan s = _
    simp [execHangScan, hrecurs]
  · change execRateWindowEnd s = _
    simp [execRateWindowEnd, hrecurs]
  · change execQuantWindowEnd true s = _
    simp [execQuantWindowEnd, hrecurs]
  · change execQuantWindowEnd false s = _
    simp [execQuantWindowEnd, hrecurs]

/-! Remote timeouts (R357) -/

theorem State.remoteOver_of_le {s : State} {since : Nat} (h : since + s.flt.remoteMs.toNat * 1000000 ≤ s.now) :
    s.remoteOver since = true := decide_eq_true h

theorem State.phys_of_pushSince {s : State} {l since : Nat} (h : s.pushSince l = some since) : ∃ p, s.phys l = some p := by
  unfold State.pushSince at h
  split at h
  · obtain ⟨p, hp, -⟩ := Option.bind_eq_some_iff.mp h
    exact ⟨p, hp⟩
  · cases h

/-- The program of a mapped tile that no context holds faults: the tile is marked, and nothing else changes (R138). -/
theorem State.faultTile_free {s : State} {l p : Nat} (hp : s.phys l = some p) (hctx : (s.ptile p).ctx = none) (st : Status)
    (pc : Nat) : s.faultTile l st pc = s.setPtile p ((s.ptile p).fault st pc) := by
  simp [State.faultTile, State.setTile, State.tile, hp, hctx]

/-- A push of a tile that no context holds has waited REMOTE_MS: the timeout is counted, and the tile's program faults. -/
theorem State.pushTimeout_free {s : State} {l p since : Nat} (hpush : s.pushSince l = some since)
    (hover : s.remoteOver since = true) (hp : s.phys l = some p) (hctx : (s.ptile p).ctx = none) :
    ∃ dst, s.pushTimeout l = (s.countRemote 0 dst).setPtile p ((s.ptile p).fault .abandoned (s.ptile p).pc) := by
  have htile : s.tile l = s.ptile p := by rw [State.tile, hp]
  simp only [State.pushTimeout, hpush, hover, htile, hctx, Bool.not_true, Bool.false_eq_true, if_false, Option.getD_none]
  exact ⟨_, State.faultTile_free (s := State.countRemote s 0 _) hp hctx _ _⟩

/-- A piece that fails changes descriptors alone (R158). -/
theorem State.failPiece_descsOnly (s : State) (id k : Nat) (st : Status) :
    s.failPiece id k st = { s with descs := (s.failPiece id k st).descs } := by
  have hcheck : ∀ u : State, u.moveCheck id = { u with descs := (u.moveCheck id).descs } := fun u => by
    unfold State.moveCheck
    split
    · split
      · split <;> rfl
      · rfl
    · rfl
  exact hcheck _

theorem State.setFlag_psn {s : State} {c : Nat} {x : Ctx} (hx : s.ctx? c = some x) :
    ((s.setFlag c true).ctx? c).map (·.psn) = some true := by
  unfold State.setFlag
  split
  next hnone => exact nomatch hnone.symm.trans hx
  next y hy =>
    extract_lets fresh late t
    have ht : (t.ctx? c).map (·.psn) = some true := by
      rw [State.ctx?, State.modCtx_ctxs, SMap.get?_adj, if_pos rfl, ← State.ctx?, hx]
      exact congrArg some (Bool.or_true x.psn)
    clear_value t
    split
    · exact ht
    · exact ht

/-- A MOVE's remote operation that times out sets PSN of its context; it changes contexts and descriptors, and may record a
late flag. -/
theorem State.pieceTimeout_besideAdmission (s : State) (id k c : Nat) :
    (s.pieceTimeout id k c).besideAdmission =
      { s with descs := (s.failPiece id k .abandoned).descs }.besideAdmission :=
  (State.setFlag_besideAdmission _ c true).trans (congrArg State.besideAdmission (s.failPiece_descsOnly id k .abandoned))

theorem State.pieceTimeout_psn {s : State} {c : Nat} {x : Ctx} (hx : s.ctx? c = some x) (id k : Nat) :
    ((s.pieceTimeout id k c).ctx? c).map (·.psn) = some true :=
  State.setFlag_psn ((congrArg (State.ctx? · c) (s.failPiece_descsOnly id k .abandoned)).trans hx)

/-- The sequence number is retired and the timeout counted. -/
def State.txnLost (s : State) (seq : Nat) (t : Txn) : State :=
  ({ s with fab := { s.fab with txns := SMap.erase s.fab.txns seq } } : State).countRemote t.ctx t.dst

theorem State.txnTimeout_piece {s : State} {seq id k : Nat} {t : Txn} (ht : SMap.get? s.fab.txns seq = some t)
    (hwho : t.who = .piece id k) (hover : s.remoteOver t.since = true) :
    s.txnTimeout seq = (s.txnLost seq t).pieceTimeout id k t.ctx := by
  simp only [State.txnTimeout, ht, hwho, hover, Bool.not_true, Bool.false_eq_true, if_false, State.txnLost]

/-! Tiles that fall due (R361) -/

theorem exec_retireRequest {s : State} {tee : Bool} (hmay : HostMay s .devFlt tee) (ptile : W16) :
    exec (.retireRequest ptile tee) s =
      .next (State.recordRes 0 0xC0200C (s.retireReg (0x80000000#32 ||| ptile.setWidth 32))) :=
  congrArg Host.Outcome.next (State.hostWrite_of_hostMay hmay _ _ _)

theorem State.retireReg_accepts {s : State} {ptile : W16} (hok : ptileOk ptile.toNat = true)
    (hretired : s.isRetired ptile.toNat = false)
    (hstands : ptile.toNat % 4096 / 64 < 50 ∨ (s.logOf ptile.toNat).isSome = true) :
    s.retireReg (0x80000000#32 ||| ptile.setWidth 32) = (s.dueTile ptile.toNat 5, none) := by
  have hlt : ptile.toNat < 32768 := of_decide_eq_true (Bool.and_eq_true_iff.mp hok).1
  obtain ⟨hrsvd, hsel, hreq⟩ := retireWord_fields hlt
  have hspare : (decide (ptile.toNat % 4096 / 64 ≥ 50) && (s.logOf ptile.toNat).isNone) = false :=
    Bool.and_eq_false_iff.mpr
      (hstands.imp (fun h => decide_eq_false (Nat.not_le.mpr h)) Option.isNone_eq_false_iff.mpr)
  generalize 0x80000000#32 ||| ptile.setWidth 32 = w at hrsvd hsel hreq ⊢
  simp only [State.retireReg, hrsvd, hsel, hreq, hok, hretired, hspare]
  rfl

theorem State.health_setHealth_self (s : State) (p : Nat) (h : Health) : (s.setHealth p h).health p = h :=
  SMap.getD_setD_self s.flt.health p h Health.reset

theorem State.health_setHealth_ne (s : State) {p q : Nat} (h : Health) (hne : q ≠ p) :
    (s.setHealth p h).health q = s.health q := SMap.getD_setD_ne s.flt.health h Health.reset hne

theorem State.dueTile_new {s : State} {p : Nat} (hretired : s.isRetired p = false) (hdue : s.isDue p = false) (cause : Nat) :
    s.dueTile p cause =
      let v := s.setHealth p { s.health p with cause := if (s.health p).cause = 0 then cause else (s.health p).cause }
      { v with flt := { v.flt with due := s.flt.due ++ [⟨p, s.now⟩] } } := by
  rw [State.dueTile, if_neg (by simp [hretired, hdue])]
  rfl

/-! Scores decay (R384) -/

theorem State.healthDecay_health {s : State} (hwf : SMap.wf s.flt.health = true) (p : Nat) :
    s.healthDecay.health p = (s.health p).decayed :=
  SMap.getD_changed (f := Health.decayed) rfl p hwf

theorem State.healthDecay_port {s : State} (hwf : SMap.wf s.fab.ports = true) (p : Nat) :
    s.healthDecay.fab.port p = (s.fab.port p).decayed :=
  SMap.getD_changed (f := Port.decayed) rfl p hwf

theorem exec_healthDecay (s : State) :
    exec .healthDecay s = .next (if s.recurs .decay = true then (s.recurred .decay).healthDecay else s) := rfl

/-! Timing measured (R384, R385) -/

/-- All but the tiles' health and the records of events. -/
def State.besideHealth (s : State) : State := { s with hrt := Hrt.reset, flt := { s.flt with health := [] } }

theorem State.addScore_besideHealth (s : State) (p w : Nat) : (s.addScore p w).besideHealth = s.besideHealth := by
  unfold State.addScore
  dsimp only
  split <;> rfl

/-- What a score gains leaves the rest of the tile's health. -/
theorem State.addScore_health_self (s : State) (p w : Nat) :
    ((s.addScore p w).health p).score = satAdd (s.health p).score w ∧
      ((s.addScore p w).health p).marginValid = (s.health p).marginValid ∧
      ((s.addScore p w).health p).drift = (s.health p).drift := by
  unfold State.addScore
  extract_lets h sc
  split
  · have hset := s.health_setHealth_self p { h with score := sc, warned := true }
    exact ⟨(congrArg Health.score hset :), (congrArg Health.marginValid hset :), (congrArg Health.drift hset :)⟩
  · have hset := s.health_setHealth_self p { h with score := sc }
    exact ⟨(congrArg Health.score hset :), (congrArg Health.marginValid hset :), (congrArg Health.drift hset :)⟩

theorem State.addScore_health_ne (s : State) {p q : Nat} (w : Nat) (hne : q ≠ p) :
    (s.addScore p w).health q = s.health q := by
  unfold State.addScore
  dsimp only
  split
  · exact s.health_setHealth_ne _ hne
  · exact s.health_setHealth_ne _ hne

/-- The drift of a tile that its monitor shows (R385). -/
def State.driftNow (s : State) (p : Nat) : Int := driftOf (Config.madeCap p).toNat (s.brmOf p).cap.toNat

/-- In `u` the margin of tile `p` is the one that its monitor showed in `s`. -/
def Measured (s u : State) (p : Nat) : Prop :=
  (u.health p).marginValid = true ∧ (u.health p).drift = BitVec.ofInt 16 (s.driftNow p)

/-- The margin of tile `p` is taken. -/
def State.marginTaken (s : State) (p : Nat) : State :=
  s.setHealth p { s.health p with marginValid := true, drift := BitVec.ofInt 16 (s.driftNow p) }

theorem State.timeTile_eq (s : State) (p : Nat) :
    s.timeTile p = if 200 ≤ s.driftNow p then (s.marginTaken p).addScore p 512 else s.marginTaken p := rfl

theorem State.timeTile_besideHealth (s : State) (p : Nat) : (s.timeTile p).besideHealth = s.besideHealth := by
  rw [State.timeTile_eq]
  split
  · exact (State.addScore_besideHealth _ p 512).trans rfl
  · rfl

theorem State.timeTile_score (s : State) (p : Nat) : ((s.timeTile p).health p).score =
    if 200 ≤ s.driftNow p then satAdd (s.health p).score 512 else (s.health p).score := by
  have htaken := congrArg Health.score (s.health_setHealth_self p
    { s.health p with marginValid := true, drift := BitVec.ofInt 16 (s.driftNow p) })
  rw [State.timeTile_eq]
  split
  · obtain ⟨hscore, -, -⟩ := (s.marginTaken p).addScore_health_self p 512
    exact hscore.trans (congrArg (satAdd · 512) htaken)
  · exact htaken

theorem State.timeTile_measured_self (s : State) (p : Nat) : Measured s (s.timeTile p) p := by
  have hset := s.health_setHealth_self p { s.health p with marginValid := true, drift := BitVec.ofInt 16 (s.driftNow p) }
  have htaken : Measured s (s.marginTaken p) p := ⟨congrArg Health.marginValid hset, congrArg Health.drift hset⟩
  rw [State.timeTile_eq]
  split
  · obtain ⟨-, hvalid, hdrift⟩ := (s.marginTaken p).addScore_health_self p 512
    exact ⟨hvalid.trans htaken.1, hdrift.trans htaken.2⟩
  · exact htaken

theorem State.timeTile_health_ne (s : State) {p q : Nat} (hne : q ≠ p) : (s.timeTile p).health q = s.health q := by
  have htaken : (s.marginTaken p).health q = s.health q := s.health_setHealth_ne _ hne
  rw [State.timeTile_eq]
  split
  · exact ((s.marginTaken p).addScore_health_ne 512 hne).trans htaken
  · exact htaken

/-- A tile measured earlier, or now, is measured after this one is: the monitors have not changed. -/
theorem State.timeTile_measured {s v : State} (hv : v.besideHealth = s.besideHealth) {p q : Nat}
    (h : q = p ∨ Measured s v q) : Measured s (v.timeTile p) q := by
  by_cases hq : q = p
  · subst hq
    have hdrift : v.driftNow q = s.driftNow q := (congrArg (State.driftNow · q) hv :)
    have hself := v.timeTile_measured_self q
    rwa [Measured, hdrift] at hself
  · rw [Measured, v.timeTile_health_ne hq]
    exact h.resolve_left hq

/-- The tiles of a list are measured one by one. -/
def State.timeTiles (s : State) (ps : List Nat) : State := ps.foldl (fun (s : State) p => s.timeTile p) s

theorem State.timeTiles_besideHealth (s : State) (ps : List Nat) : (s.timeTiles ps).besideHealth = s.besideHealth :=
  State.foldl_keeps State.besideHealth State.timeTile_besideHealth ps s

theorem State.timeTiles_keeps (s : State) (ps : List Nat) : WorkKept s (s.timeTiles ps) ∧
    (s.timeTiles ps).flt.retired = s.flt.retired ∧ (s.timeTiles ps).flt.due = s.flt.due ∧
    (s.timeTiles ps).time = s.time := by
  have h := s.timeTiles_besideHealth ps
  generalize s.timeTiles ps = u at h ⊢
  exact ⟨⟨congrArg (·.tiles) h, congrArg (·.queues) h, congrArg (·.ctxs) h, congrArg (·.descs) h, congrArg (·.mem) h⟩,
    congrArg (·.flt.retired) h, congrArg (·.flt.due) h, congrArg (·.time) h⟩

theorem State.timeTiles_measured {s : State} (ps : List Nat) {v : State} (hv : v.besideHealth = s.besideHealth) {q : Nat}
    (h : q ∈ ps ∨ Measured s v q) : Measured s (v.timeTiles ps) q := by
  induction ps generalizing v with
  | nil => exact h.resolve_left List.not_mem_nil
  | cons p ps ih =>
    refine ih ((v.timeTile_besideHealth p).trans hv) ?_
    rcases h with h | h
    · rcases List.mem_cons.mp h with rfl | h
      · exact .inr (State.timeTile_measured hv (.inl rfl))
      · exact .inl h
    · exact .inr (State.timeTile_measured hv (.inr h))

theorem exec_timingMarginDaily_due {s : State} {die : Nat} (hdie : die < 8) (hrecurs : s.recurs (.timing die) = true)
    (hmv : s.dieMv die = 720) (hbin : s.tbin die = 13) :
    exec (.timingMarginDaily die) s = .next ((s.recurred (.timing die)).timeTiles (s.counted die)) := by
  change execTimingMarginDaily die s = _
  rw [execTimingMarginDaily, guardWf_next (ok := dieOk die) (decide_eq_true hdie)]
  simp [hrecurs, hmv, hbin, State.timeTiles]

theorem exec_timingMarginDaily_elsewhere {s : State} {die : Nat} (h : s.dieMv die ≠ 720 ∨ s.tbin die ≠ 13) :
    exec (.timingMarginDaily die) s = .next s := by
  change execTimingMarginDaily die s = _
  rcases h with h | h <;> simp [execTimingMarginDaily, h, guardWf]

/-! Optical margins (R384, R385) -/

theorem State.fabEffs_fab (s : State) (es : List FEff) : (s.fabEffs es).fab = s.fab :=
  State.foldl_keeps State.fab (fun _ e =>
    match e with
    | .out _ => rfl
    | .event _ => rfl
    | .reroute _ => rfl) es s

theorem State.onFab_fab (s : State) (f : Fab → Fab × List FEff) : (s.onFab f).fab = (f s.fab).1 :=
  State.fabEffs_fab _ _

/-- Port `p` is measured now. -/
def State.opticalSampled (s : State) (p : Nat) (ms : List (BitVec 8)) : State :=
  (s.recurred (.optical p)).onFab fun f => f.marginSample p ms

theorem State.opticalSampled_besideScore (s : State) (p : Nat) (ms : List (BitVec 8)) :
    ((s.opticalSampled p ms).fab.port p).besideScore = ((s.fab.port p).measured ms).besideScore := by
  obtain ⟨hport, heffs⟩ := (s.fab.port p).sampled_spec p ms
  rw [State.opticalSampled, State.onFab_fab, Fab.marginSample_eq, Fab.onPort_port_self _ _ heffs]
  exact hport

theorem exec_opticalMarginSample {s : State} {p : Nat} {ms : List (BitVec 8)} (hport : portOk p = true)
    (hlanes : ms.length = 5) : exec (.opticalMarginSample p ms) s =
      .next (if s.recurs (.optical p) = true then s.opticalSampled p ms else s) :=
  guardWf_next (Bool.and_eq_true_iff.mpr ⟨hport, decide_eq_true hlanes⟩)

/-! The statement -/

/-- Settles O42: each timeout by what it counts and marks, decay entry by entry, and measurements tile by tile and port by
port, beside what they leave alone. -/
theorem healthIsKeptAndTilesFallDue : Obligations.HealthIsKeptAndTilesFallDue := by
  refine ⟨fun s op => ?ops, fun s ptile tee hmay => exec_retireRequest hmay ptile, exec_healthDecay,
    fun s die c r hc hrecurs => exec_between hrecurs hc,
    fun s l since t hpush hover ht hctx => ?push, fun s seq id k t x ht hwho hover hx => ?remote,
    fun s ptile tee hmay hok hretired hdue hstands => ?retire, fun s hrecurs hhealth hports => ?decay,
    fun s die hdie hrecurs hmv hbin => ?timing, fun s die p hdie hrecurs hmv hbin hcounted => ?drift,
    fun s die hdie h => exec_timingMarginDaily_elsewhere h, fun s port ms hport hlanes hrecurs => ?optical,
    fun s port ms hport hlanes hrecurs =>
      (exec_opticalMarginSample hport hlanes).trans (congrArg _ (if_neg (by simp [hrecurs])))⟩
  case ops => cases op <;> rfl
  case push =>
    obtain ⟨p, hp⟩ := State.phys_of_pushSince hpush
    have htile : s.ptile p = t := by rw [← ht, State.tile, hp]
    obtain ⟨dst, hu⟩ := State.pushTimeout_free hpush (State.remoteOver_of_le hover) hp (htile ▸ hctx)
    have hfault : (s.pushTimeout l).tile l = (s.ptile p).fault .abandoned (s.ptile p).pc := by
      have hphys : (s.pushTimeout l).phys l = some p := by
        rw [hu]
        exact hp
      rw [State.tile, hphys, hu]
      exact State.ptile_setPtile_self _ _ _
    refine ⟨s.pushTimeout l, rfl, ?_, by rw [hfault]; rfl, by rw [hfault]; rfl, ?_⟩
    · rw [hu]
      rfl
    · rw [hu]
      exact ⟨rfl, rfl, rfl⟩
  case remote =>
    have h := (s.txnLost seq t).pieceTimeout_besideAdmission id k t.ctx
    have hpsn := State.pieceTimeout_psn (s := s.txnLost seq t) hx id k
    rw [← State.txnTimeout_piece ht hwho (State.remoteOver_of_le hover)] at h hpsn
    exact ⟨s.txnTimeout seq, rfl, (congrArg (·.fab.txns) h :), (congrArg (·.flt.toRemote) h :), hpsn,
      (congrArg (·.tiles) h :), (congrArg (·.queues) h :)⟩
  case retire =>
    refine ⟨s.dueTile ptile.toNat 5, ?_, ?_⟩
    · rw [exec_retireRequest hmay, State.retireReg_accepts hok hretired hstands, State.recordRes]
    · rw [State.dueTile_new hretired hdue]
      exact ⟨rfl, s.health_setHealth_self _ _, ⟨rfl, rfl, rfl, rfl, rfl⟩, rfl⟩
  case decay =>
    exact ⟨_, (exec_healthDecay s).trans (congrArg _ (if_pos hrecurs)),
      State.healthDecay_health (s := s.recurred .decay) hhealth,
      fun p => congrArg Port.score (State.healthDecay_port (s := s.recurred .decay) hports p),
      ⟨rfl, rfl, rfl, rfl, rfl⟩, s.recurs_recurred .decay⟩
  case timing =>
    obtain ⟨hwork, hretired, hdue, htime⟩ := (s.recurred (.timing die)).timeTiles_keeps (s.counted die)
    exact ⟨_, exec_timingMarginDaily_due hdie hrecurs hmv hbin, hwork,
      fun p hp => State.timeTiles_measured (s := s.recurred (.timing die)) _ rfl (.inl hp), hretired, hdue,
      (State.recurs_of_time htime _).trans (s.recurs_recurred _)⟩
  case drift =>
    refine ⟨_, exec_timingMarginDaily_due hdie hrecurs hmv hbin, ?_⟩
    rw [hcounted]
    exact (s.recurred (.timing die)).timeTile_score p
  case optical =>
    have hbeside : (s.opticalSampled port ms).besidePorts = (s.recurred (.optical port)).besidePorts :=
      State.onFab_besidePorts _ _
    obtain ⟨hmargin, hrate, hnow, hstate⟩ := Port.measured_of_besideScore (s.opticalSampled_besideScore port ms)
    exact ⟨_, (exec_opticalMarginSample hport hlanes).trans (congrArg _ (if_pos hrecurs)), hmargin, hrate, hnow, hstate,
      (State.workKept_of_besidePorts hbeside :),
      (State.recurs_of_time (congrArg State.time hbeside :) _).trans (s.recurs_recurred _)⟩

end Sys2Proof.Machine
end
